-- ==== Sys2Proof/Word.lean ====
section
/-! DEFINITION. The words of the machine: bytes, 32-bit words, and the list of (address, byte) pairs
that holds every addressed memory (R4: multi-byte values are little-endian; the helpers that read and
write them stand in Sys2Proof/Machine/Bits.lean). -/

namespace Sys2Proof

/-- One byte of a memory, a table or a frame. -/
abbrev Byte := BitVec 8

/-- One 32-bit word of an engine or of a register. -/
abbrev Word := BitVec 32

/-- An addressed memory: (address, byte) pairs, addresses strictly rising, no entry equal to the
value an unlisted address reads as (0, log entry 3, DESIGN CHOICE). -/
abbrev Mem := List (Nat × Byte)

end Sys2Proof
end

