-- ==== Sys2Proof/Syntax.lean ====
section
/-! DEFINITION. The commands of the block: one constructor per row of spec/opcode_table.json, in the
table's order, and the types of their operands. A descriptor's command names the origin whose oldest
unstarted descriptor it starts; an event's command names the channel it concerns and what is measured. -/

namespace Sys2Proof

/-- The dies of R10 that hold outputs or links; the digital die is where software's blocks stand. -/
inductive Die where
  | digital
  | loadA
  | loadB
  | base
  | field
deriving DecidableEq, Repr

/-- Who presented a descriptor (the ORIGIN of R44): a submission ring, an engine by SEND (R361), the
diagnostic tester (R84). -/
inductive Origin where
  | ring (n : Fin 64)
  | engine (e : Fin 16)
  | diag
deriving DecidableEq, Repr

/-- Why an outbound read failed (cause codes of R409). -/
inductive ReadFail where
  | timeout
  | unsupported
  | aborted
  | poisoned
  | linkDown
deriving DecidableEq, Repr

/-- A step of a descriptor with a parameter block or a source buffer (R37, R393): the next read of a block in host memory is
sent, or the operation runs, on what its reads have brought or on the bytes of SRAM. -/
inductive BlockStep where
  | read
  | run
deriving DecidableEq, Repr

/-- What a host access names (R384, R386): a device address, which BAR0 or BAR2 maps, or an offset in the endpoint's
configuration space. -/
inductive HostPlace where
  | device (addr : Nat)
  | config (off : Nat)
deriving DecidableEq, Repr

/-- The registers a RING_SETUP_WRITE may name (R29, R30, R35); a RING_CFG write with neither START nor
STOP is among them (R31). -/
inductive RingReg where
  | baseLo
  | baseHi
  | cfg
  | shadowLo
  | shadowHi
  | irq
deriving DecidableEq, Repr

/-- The geometry SFDP reports for one xSPI device (R405, R407): MiB, log2 of the erase and page sizes. -/
structure XspiGeometry where
  mib : Nat
  eraseLog2 : Nat
  pageLog2 : Nat
deriving DecidableEq, Repr

/-- What the start-up sequence finds outside the model's state (R448): the crystal runs; the expectations of
the pairs' comparator self-tests that do not hold, by number (R374); the geometry of each xSPI device, none where discovery
fails (R405); the stored release counter passes its CRC (R329); so does the stored set (R63); the channels whose
heat mirror, and the heat snapshots, whose CRC fails (R123, R125); the measured supplies in mV. -/
structure StartFindings where
  xtalRuns : Bool
  failedPairs : List (Fin 8 × Fin 203)
  xspi0 : Option XspiGeometry
  xspi1 : Option XspiGeometry
  counterOk : Bool
  setOk : Bool := true
  badMirrors : List (Fin 64) := []
  badSnaps : List (Fin 2) := []
  vbat : Nat
  vcore : Nat
deriving DecidableEq, Repr

/-- The completion of an outbound read (R394). -/
inductive ReadResult where
  | data (bytes : List Byte)
  | failed (why : ReadFail)
deriving DecidableEq, Repr

/-- What is unmasked (R402): one vector, the whole function, or MSI-X itself being enabled. -/
inductive Unmask where
  | vector (v : Fin 80)
  | function
  | enable
deriving DecidableEq, Repr

/-- The answer of a block in the park entry handshake (R440): it grants, delays, refuses, or withdraws the
grant it gave, for the wake that the block keeps (R304). -/
inductive BlockAnswer where
  | grant
  | delay
  | refuse
  | withdraw
deriving DecidableEq, Repr

/-- What starts a device reset (R423, R426, R478). -/
inductive ResetSource where
  | resetPin
  | faultReset
  | watchdog
  | trialTimeout
deriving DecidableEq, Repr

/-- How an xSPI operation ends in the external memory (R407): done, a page that does not verify after
so many good bytes, or with the bytes read. -/
inductive XspiResult where
  | done
  | verifyFailed (good : Nat)
deriving DecidableEq, Repr

/-- A CAN frame on a bus (R241): format, data length, bit-rate switch, ESI, identifier, data bytes. -/
structure CanFrame where
  ide : Bool
  fd : Bool
  brs : Bool
  rtr : Bool
  esi : Bool
  ident : Nat
  dlc : Nat
  data : List Byte
deriving DecidableEq, Repr

/-- A wake that an armed source latches in park (R297, R446); a WUF comes with the RT of its SOF. -/
inductive WakeKind where
  | network (bus : Fin 16) (wuf : Option (CanFrame × Nat))
  | switchPoll (group : Fin 8) (input : Fin 48)
  | resetPin
deriving DecidableEq, Repr



/-- What a receive error is (R239, R259): an error with its LEC code, or a recessive res bit. -/
inductive RxErrKind where
  | error (lec : Fin 7)
  | resBit
deriving DecidableEq, Repr

/-- A receive error and the DT of the SOF of the frame in which it lies (R262). -/
structure RxError where
  kind : RxErrKind
  sof : Nat
deriving DecidableEq, Repr


/-- Sequences of 11 recessive bits that a bus-off controller has counted since it last said so (R260). -/
structure SeqCount where
  n : Fin 8
  seqs : Nat
deriving DecidableEq, Repr

/-- A frame that a controller's wake-up decoder has decoded, erroneous or correct (R295), and its SOF: DT, or RT where the root
island decodes. -/
structure DecodedFrame where
  n : Fin 8
  bad : Bool
  sof : Nat
deriving DecidableEq, Repr
/-- What a load channel's sensors read over the last 1 ms (R88, R119): current samples in mA, signed, and the
switch temperature in 1/16 °C. -/
structure ChSample where
  readings : List Int
  tSw : Int
deriving DecidableEq, Repr

/-- What a bank's sensors read: die temperature in 1/16 °C, supply sense in mV. -/
structure BankSample where
  dieT : Int
  v : Nat
deriving DecidableEq, Repr

/-- What R106 takes as measured over the last 10 ms beside the load channels, in nW: half-bridges (R143), valve switches (R169),
field channels (R220), LF drivers (R314); and VBAT_B in mV (R198). -/
structure OtherLoss where
  hb : Nat
  vlv : Nat
  field : Nat
  lf : Nat
  vbat : Nat
deriving DecidableEq, Repr

/-- A die, its supply in mV, and the DT since which it has stood on its side of a threshold (R503). -/
structure DieSupply where
  die : Die
  v : Nat
  since : Nat
deriving DecidableEq, Repr

/-- What a half-bridge's sensors read over the last 1 ms (R147, R152, R159): leg current in mA, signed, and the hotter
switch's temperature in 1/16 °C. -/
structure HbSample where
  i : Int
  tSw : Int
deriving DecidableEq, Repr


/-- What trips a valve or a valve group (R187): a current in 10 mA steps, a temperature in 1/16 °C. -/
inductive VsTrip where
  | lowSide (v : Fin 24) (i : Nat)
  | highSide (g : Fin 4) (i : Nat)
  | overTemp (g : Fin 4) (t : Int)
deriving DecidableEq, Repr

/-- What on-state diagnosis measures (R189), in mA and held since DT `since`: a valve's highest current in BOOST; the current
of VHS_n and the sum of its group's low-sides. -/
inductive VsFinding where
  | openLoad (v : Fin 24) (i since : Nat)
  | shortGround (g : Fin 4) (high lows since : Nat)
deriving DecidableEq, Repr

/-- The voltages that the off-state steps of R188 measure, in mV: the common in step 2, and each valve's land in
steps 1, 3 and 4. -/
structure VgDiag where
  common : Nat
  lands : Vector (Nat × Nat × Nat) 6
deriving DecidableEq, Repr


/-- A supply voltage in mV, and the DT since which it has stood on its side of the threshold (R182, R202, R219, R454, R503). -/
structure HeldV where
  v : Nat
  since : Nat
deriving DecidableEq, Repr

/-- Currents in 10 mA steps: a valve's, and that of its group's VHS_n (R196). -/
structure VlvCurs where
  i : Nat
  hi : Nat
deriving DecidableEq, Repr

/-- At the end of a release: the current of VHS_n in 10 mA steps, the charge returned in 0.1 µC (R171, R186). -/
structure VlvReturn where
  hi : Nat
  q : Nat
deriving DecidableEq, Repr
/-- A sample of a switch input (R200, R201, R204): its DT, the input's voltage and VBAT_B in mV. -/
structure SwiReading where
  dt : Nat
  v : Nat
  vbat : Nat
deriving DecidableEq, Repr

/-- A sample of a field input (R220, R221): its DT, the input voltage in mV, the input current in 10 µA steps. -/
structure FioReading where
  dt : Nat
  v : Int
  i : Nat
deriving DecidableEq, Repr

/-- What a debounce concerns: a switch input (R201) or a field input of FUNC 0 or 1 (R222). -/
inductive DebIn where
  | switch (n : Fin 48)
  | field (n : Fin 32)
deriving DecidableEq, Repr

/-- What that debounce has seen since its last report: its samples, in order. A sample left out reads as the one before it. -/
inductive DebTrace where
  | switch (l : List SwiReading)
  | field (l : List FioReading)
deriving DecidableEq, Repr


/-- What a poll reads (R207): VBAT_B and the voltage of each input in mV. -/
structure PollReading where
  vbat : Nat
  v : Vector Nat 48
deriving DecidableEq, Repr

/-- What a wiper's own filter has read of its park input since its last report (R156): samples of SWI_n, in order. -/
structure ParkReading where
  h : Fin 16
  l : List SwiReading
deriving DecidableEq, Repr

/-- What the readback or the open-load test of a field output finds (R228). -/
inductive FioFinding where
  | good
  | shortGround
  | shortBattery
  | openLoad
deriving DecidableEq, Repr

/-- How an attempt of a CAN controller fails (R252, R259): it loses arbitration, or meets an error with its LEC code,
whether the standard's exceptions leave TEC unchanged, and whether it is a bit error within the data field (R263). -/
inductive AttemptFail where
  | arbitrationLost
  | error (lec : Fin 7) (exempt inData : Bool)
deriving DecidableEq, Repr

/-- A token's answer as the coil receives it (R317, R318): none by the end of its slot or time, garbled, or a frame with
the DT of its first edge and its bytes, CRC included. -/
inductive TokenAnswer where
  | absent
  | garbled
  | frame (edge : Nat) (bytes : List Byte)
deriving DecidableEq, Repr

/-- What the memory answers to an access of an engine (R339): no error, a corrected one, an uncorrectable one. -/
inductive Ecc where
  | clean
  | corrected
  | uncorrectable
deriving DecidableEq, Repr

/-- What an instruction of an engine meets outside the model's state. `engine`: who runs it. `misses`, `front`:
instruction-cache misses of its fetch and the cycles they cost (R340); `memWaits`: the further cycles that each of its
loads waits, in order; `bufWait`, `stall`, `shadowStall`: those that the write buffer or a FENCE waits, that the main
engine of its pair stalls, that its shadow stalls (R340, R368, R371); `portWait`: DT ticks at a memory port (R489).
`fetchBad`: an uncorrectable error on the fetch (R339); `ecc` that of a data access. -/
structure Issue where
  engine : Fin 16
  misses : Nat := 0
  front : Nat := 0
  memWaits : List Nat := []
  bufWait : Nat := 0
  stall : Nat := 0
  shadowStall : Nat := 0
  portWait : Nat := 0
  fetchBad : Bool := false
  ecc : Ecc := .clean
deriving DecidableEq, Repr

/-- A register code of R342. -/
abbrev RegCode := Fin 16

/-- Kinds of SHI (R351). -/
inductive ShiftKind where
  | shl
  | shr
  | sar
  | rol
  | ror
deriving DecidableEq, Repr

/-- Conditions of R353, in code order. -/
inductive Cond where
  | eq
  | ne
  | lt
  | ge
  | ltu
  | geu
  | tst
  | ntst
deriving DecidableEq, Repr

/-- Access sizes of format M (R349). -/
inductive Size where
  | byte
  | half
  | word
deriving DecidableEq, Repr

/-- Addressing modes of R350. -/
inductive Amode where
  | absolute (addr : Word)
  | disp (d : BitVec 12)
  | postInc
  | preDec
  | indexed (i : RegCode) (scale : Fin 4)
  | longDisp (d : Word)
deriving DecidableEq, Repr

/-- The commands, one per row of the table of operations and events (spec/opcode_table.json). -/
inductive Instr where
  /-- ROOT_ISLAND_POWER_ON, R452. -/
  | rootIslandPowerOn (vbat : Nat)
  /-- DIGITAL_DIE_START, R448. -/
  | digitalDieStart (found : StartFindings)
  /-- GRAFT_BLOCK, R475. -/
  | graftBlock (writeOk : Bool)
  /-- SAFE_ENTRIES_DELIVERED, R16. -/
  | safeEntriesDelivered (die : Die)
  /-- HOST_LINK_TIMEOUT, R16. -/
  | hostLinkTimeout
  /-- HOST_LINK_UP, R404. -/
  | hostLinkUp (speed : Fin 3) (width : Fin 2)
  /-- AUTO_COMMIT, R449. -/
  | autoCommit
  /-- LINK_FAILURE, R12. -/
  | linkFailure (die : Die)
  /-- LINK_RETURN, R412. -/
  | linkReturn (die : Die)
  /-- DOORBELL_WRITE, R26. -/
  | doorbellWrite (n : Fin 64) (v : Word)
  /-- RING_START, R32. -/
  | ringStart (n : Fin 64) (v : Word)
  /-- RING_STOP, R33. -/
  | ringStop (n : Fin 64) (v : Word)
  /-- RING_STOPPED, R33. -/
  | ringStopped (n : Fin 64)
  /-- RING_SETUP_WRITE, R31. -/
  | ringSetupWrite (n : Fin 64) (r : RingReg) (v : Word)
  /-- REGISTER_WRITE, R5. -/
  | registerWrite (addr : HostPlace) (v : List Word) (be : List (BitVec 4))
  /-- READ_CLEAR, R7. -/
  | readClear (addr : Nat) (late : Option Nat)
  /-- HOST_READ, R389. -/
  | hostRead (addr : HostPlace) (len : Nat)
  /-- DESCRIPTOR_FETCH, R42. -/
  | descriptorFetch
  /-- IRQ_TIMER_EXPIRY, R46. -/
  | irqTimerExpiry (n : Fin 64)
  /-- STALL_TIMEOUT, R49. -/
  | stallTimeout (n : Fin 64)
  /-- NOP, R55. -/
  | nop (o : Origin)
  /-- ECHO, R55. -/
  | echo (o : Origin)
  /-- PLACEMENT_QUERY, R56. -/
  | placementQuery (o : Origin)
  /-- STAGE_WRITE, R64. -/
  | stageWrite (o : Origin) (b : BlockStep)
  /-- STAGE_LOAD, R64. -/
  | stageLoad (o : Origin)
  /-- STAGE_DISCARD, R64. -/
  | stageDiscard (o : Origin)
  /-- STAGE_QUERY, R64. -/
  | stageQuery (o : Origin)
  /-- STG_DATA_WRITE, R67. -/
  | stgDataWrite (v : Word)
  /-- STG_CTRL_COMMIT, R67. -/
  | stgCtrlCommit (v : Word)
  /-- STG_CTRL_CHECK, R67. -/
  | stgCtrlCheck (v : Word)
  /-- STG_CTRL_DISCARD, R67. -/
  | stgCtrlDiscard (v : Word)
  /-- COMMIT_CHECK, R69. -/
  | commitCheck (o : Origin)
  /-- COMMIT, R74. -/
  | commit (o : Origin)
  /-- CHECK_AND_PLACEMENT_COMPLETE, R74. -/
  | checkAndPlacementComplete
  /-- NEW_SET_HELD, R74. -/
  | newSetHeld
  /-- COMMIT_TICK, R74. -/
  | commitTick
  /-- MRAM_MARK_COMMITTED, R74. -/
  | mramMarkCommitted
  /-- SESSION_CHALLENGE, R81. -/
  | sessionChallenge (o : Origin)
  /-- SESSION_OPEN, R82. -/
  | sessionOpen (o : Origin)
  /-- SESSION_CLOSE, R83. -/
  | sessionClose (o : Origin)
  /-- CHALLENGE_EXPIRY, R81. -/
  | challengeExpiry (n : Fin 4)
  /-- SESSION_LOCK_EXPIRY, R82. -/
  | sessionLockExpiry (n : Fin 4)
  /-- SESSION_EXPIRY, R83. -/
  | sessionExpiry (n : Fin 4)
  /-- RUNTIME_SESSION_OPEN, R84. -/
  | runtimeSessionOpen
  /-- DIAGNOSTIC_REQUEST, R84. -/
  | diagnosticRequest (can : Fin 8) (f : CanFrame)
  /-- HEARTWOOD_RECORD_WRITE, R462. -/
  | heartwoodRecordWrite (archived : Bool)
  /-- LCH_SET, R111. -/
  | lchSet (o : Origin)
  /-- LCH_TIMED, R111. -/
  | lchTimed (o : Origin)
  /-- LCH_SET_MASK, R111. -/
  | lchSetMask (o : Origin)
  /-- LCH_QUERY, R113. -/
  | lchQuery (o : Origin)
  /-- HEAT_QUERY, R111. -/
  | heatQuery (o : Origin)
  /-- TIMED_END, R111. -/
  | timedEnd (n : Fin 64)
  /-- LEAF_STEP_UP, R88. -/
  | leafStepUp (n : Fin 64) (i : Nat)
  /-- LEAF_STEP_DOWN, R88. -/
  | leafStepDown (n : Fin 64)
  /-- PWM_PERIOD_START, R97. -/
  | pwmPeriodStart (n : Fin 64) (i vs : Nat)
  /-- INRUSH_END, R129. -/
  | inrushEnd (n : Fin 64)
  /-- PREHEAT_END, R103. -/
  | preheatEnd (n : Fin 64)
  /-- BUDGET_ALLOCATION, R106. -/
  | budgetAllocation (other : OtherLoss)
  /-- GANG_IMBALANCE, R94. -/
  | gangImbalance (n : Fin 64)
  /-- BANK_SENSE_IMPLAUSIBLE, R102. -/
  | bankSenseImplausible (b : Fin 8) (sense : Int) (die : Nat)
  /-- CP_FREEZE_END, R101. -/
  | cpFreezeEnd (b : Fin 8)
  /-- WIRE_MODEL_UPDATE, R119. -/
  | wireModelUpdate (m : Vector ChSample 64) (b : Vector BankSample 8) (h : Vector HbSample 16)
  /-- RESTART_COUNT_RESET, R133. -/
  | restartCountReset (n : Fin 64)
  /-- HEAT_SNAPSHOT, R123. -/
  | heatSnapshot
  /-- AMBIENT_STALE, R120. -/
  | ambientStale (g : Fin 4)
  /-- SHORT_CIRCUIT_LIMIT, R128. -/
  | shortCircuitLimit (n : Fin 64) (i : Nat)
  /-- ENVELOPE_TRIP, R129. -/
  | envelopeTrip (n : Fin 64) (i : Nat)
  /-- SWITCH_OVERTEMP, R131. -/
  | switchOvertemp (n : Fin 64) (t : Int)
  /-- ON_STATE_DIAGNOSIS, R135. -/
  | onStateDiagnosis (n : Fin 64) (v : Nat)
  /-- REVERSE_CURRENT, R135. -/
  | reverseCurrent (n : Fin 64) (i : Nat)
  /-- OFF_STATE_DIAGNOSIS, R136. -/
  | offStateDiagnosis (n : Fin 64) (v1 v2 : Nat)
  /-- PROT_CLEAR, R134. -/
  | protClear (o : Origin)
  /-- WIRE_QUERY, R139. -/
  | wireQuery (o : Origin)
  /-- WIRE_AMBIENT, R120. -/
  | wireAmbient (o : Origin)
  /-- DIAG_RUN, R139. -/
  | diagRun (o : Origin) (v1 v2 : Nat)
  /-- BR_DRIVE, R164. -/
  | brDrive (o : Origin)
  /-- BR_MOVE, R165. -/
  | brMove (o : Origin)
  /-- BR_PULSE, R157. -/
  | brPulse (o : Origin)
  /-- WIPER_SET, R156. -/
  | wiperSet (o : Origin)
  /-- BR_QUERY, R164. -/
  | brQuery (o : Origin)
  /-- BR_POS_SET, R151. -/
  | brPosSet (o : Origin)
  /-- HB_SET, R163. -/
  | hbSet (o : Origin)
  /-- HB_DIAG_RUN, R159. -/
  | hbDiagRun (o : Origin) (v1 v2 v3 : Nat)
  /-- BRAKE_END, R146. -/
  | brakeEnd (h : Fin 16)
  /-- PEAK_TIME_TRIP, R147. -/
  | peakTimeTrip (h : Fin 16)
  /-- HB_SHORT_CIRCUIT, R148. -/
  | hbShortCircuit (h : Fin 16) (i : Nat)
  /-- HB_OVERTEMP, R148. -/
  | hbOvertemp (h : Fin 16) (t : Int)
  /-- HB_HELD_CLEAR, R149. -/
  | hbHeldClear (h : Fin 16)
  /-- RIPPLE, R150. -/
  | ripple (h : Fin 16) (i v period : Nat)
  /-- PINCH_ARM, R153. -/
  | pinchArm (h : Fin 16)
  /-- BACK_EMF_COUNT_END, R150. -/
  | backEmfCountEnd (h : Fin 16)
  /-- STALL, R152. -/
  | stall (h : Fin 16)
  /-- WIPER_PARKED, R156. -/
  | wiperParked (x : ParkReading)
  /-- WIPER_INTERVAL, R156. -/
  | wiperInterval (h : Fin 16)
  /-- PARK_TIMEOUT, R156. -/
  | parkTimeout (h : Fin 16)
  /-- DRIVE_TIMEOUT, R164. -/
  | driveTimeout (h : Fin 16)
  /-- PULSE_END, R157. -/
  | pulseEnd (h : Fin 16)
  /-- HB_OFF_STATE_DIAGNOSIS, R159. -/
  | hbOffStateDiagnosis (h : Fin 16) (v1 v2 v3 : Nat)
  /-- HB_ON_STATE_OPEN_LOAD, R159. -/
  | hbOnStateOpenLoad (h : Fin 16)
  /-- VLV_FIRE, R178. -/
  | vlvFire (o : Origin)
  /-- VLV_RELEASE, R194. -/
  | vlvRelease (o : Origin)
  /-- VLV_PERIODIC, R181. -/
  | vlvPeriodic (o : Origin)
  /-- VLV_QUERY, R194. -/
  | vlvQuery (o : Origin)
  /-- BOOST_SET, R182. -/
  | boostSet (o : Origin)
  /-- LEDGER_QUERY, R194. -/
  | ledgerQuery (o : Origin)
  /-- VLV_DIAG_RUN, R188. -/
  | vlvDiagRun (o : Origin) (m : VgDiag)
  /-- FIRE_REQUESTED_START, R178. -/
  | fireRequestedStart (v : Fin 24)
  /-- SLOT_GRANT, R179. -/
  | slotGrant (g : Fin 4)
  /-- DEFER_TIMEOUT, R179. -/
  | deferTimeout (v : Fin 24)
  /-- PEAK_REACHED, R172. -/
  | peakReached (v : Fin 24) (x : VlvCurs) (q : Nat)
  /-- BOOST_TIMEOUT, R172. -/
  | boostTimeout (v : Fin 24) (q : Nat)
  /-- PEAK_END, R173. -/
  | peakEnd (v : Fin 24)
  /-- DECAY_END, R171. -/
  | decayEnd (v : Fin 24) (x : VlvCurs) (q : Nat)
  /-- HOLD_END, R175. -/
  | holdEnd (v : Fin 24)
  /-- VALVE_OFF, R171. -/
  | valveOff (v : Fin 24) (x : VlvReturn)
  /-- RELEASE_TIMEOUT, R174. -/
  | releaseTimeout (v : Fin 24)
  /-- PERIODIC_FIRING, R181. -/
  | periodicFiring (v : Fin 24)
  /-- PRECHARGE_DONE, R182. -/
  | prechargeDone (vCap vbat : Nat)
  /-- MEASURE_DONE, R183. -/
  | measureDone (rise vCap : Nat)
  /-- BOOST_READY, R182. -/
  | boostReady (vCap : Nat)
  /-- BOOST_SUSPEND, R182. -/
  | boostSuspend (x : HeldV)
  /-- BOOST_RESUME, R182. -/
  | boostResume (x : HeldV)
  /-- BOOST_CONVERTER_FAULT, R182. -/
  | boostConverterFault
  /-- BOOST_OVERVOLTAGE, R184. -/
  | boostOvervoltage (vCap : Nat)
  /-- LEDGER_WINDOW, R186. -/
  | ledgerWindow (qIn qLoss vCap : Nat)
  /-- VALVE_SHORT_CIRCUIT, R187. -/
  | valveShortCircuit (t : VsTrip)
  /-- VALVE_HELD_CLEAR, R187. -/
  | valveHeldClear (v : Fin 24) (t : Int)
  /-- VALVE_OFF_STATE_DIAGNOSIS, R188. -/
  | valveOffStateDiagnosis (g : Fin 4) (m : VgDiag)
  /-- VALVE_ON_STATE_DIAGNOSIS, R189. -/
  | valveOnStateDiagnosis (f : VsFinding)
  /-- DEBOUNCE_COMPLETE, R201. -/
  | debounceComplete (n : DebIn) (t : DebTrace)
  /-- IS_SUPPLY_LOW, R202. -/
  | isSupplyLow (vbat : Nat)
  /-- IS_SUPPLY_RETURN, R202. -/
  | isSupplyReturn (x : HeldV)
  /-- CLEANING_PULSE_END, R199. -/
  | cleaningPulseEnd (n : Fin 48)
  /-- LADDER_INVALID, R204. -/
  | ladderInvalid (n : Fin 48) (l : List SwiReading)
  /-- SWI_STUCK, R205. -/
  | swiStuck (n : Fin 48)
  /-- POLL, R207. -/
  | poll (g : Fin 8) (x : PollReading)
  /-- WET_THERMAL, R210. -/
  | wetThermal (t : Int)
  /-- SWI_QUERY, R214. -/
  | swiQuery (o : Origin)
  /-- SWI_SNAPSHOT, R214. -/
  | swiSnapshot (o : Origin)
  /-- SWI_CLEAN, R214. -/
  | swiClean (o : Origin)
  /-- FIO_SET, R236. -/
  | fioSet (o : Origin) (rb : Bool)
  /-- FIO_QUERY, R236. -/
  | fioQuery (o : Origin) (rb : Bool) (i : Nat)
  /-- FIO_SNAPSHOT, R236. -/
  | fioSnapshot (o : Origin)
  /-- FIO_CLEAR, R236. -/
  | fioClear (o : Origin)
  /-- FS_QUERY, R236. -/
  | fsQuery (o : Origin) (v gap : Nat)
  /-- FS_SUPPLY_LOW, R219. -/
  | fsSupplyLow (x : HeldV)
  /-- FS_SUPPLY_HIGH, R219. -/
  | fsSupplyHigh (x : HeldV)
  /-- FS_SUPPLY_NORMAL, R219. -/
  | fsSupplyNormal (x : HeldV)
  /-- BARRIER_POWER_FAIL, R218. -/
  | barrierPowerFail (v : Nat)
  /-- FIO_WIRE, R223. -/
  | fioWire (n : Fin 32) (i since : Nat)
  /-- FIO_CHANGE, R224. -/
  | fioChange (n : Fin 32) (l : List FioReading)
  /-- EDGE_QUEUE_DELIVERY, R225. -/
  | edgeQueueDelivery
  /-- FIO_PROT, R227. -/
  | fioProt (n : Fin 32) (hot : Bool) (i since : Nat)
  /-- FIO_RESTART, R227. -/
  | fioRestart (n : Fin 32) (t : Int)
  /-- FIO_COUNT_RESET, R227. -/
  | fioCountReset (n : Fin 32)
  /-- FIO_DIAG, R228. -/
  | fioDiag (n : Fin 32) (x : FioFinding) (i since : Nat)
  /-- SILENCE_TIMEOUT, R229. -/
  | silenceTimeout (gap : Nat)
  /-- FS_SILENCE, R230. -/
  | fsSilence (len last : Nat)
  /-- CAN_TX, R252. -/
  | canTx (o : Origin) (b : BlockStep)
  /-- CAN_TX_CANCEL, R256. -/
  | canTxCancel (o : Origin)
  /-- CAN_QUERY, R269. -/
  | canQuery (o : Origin)
  /-- CAN_RECOVER, R260. -/
  | canRecover (o : Origin)
  /-- CAN_QUEUE_QUERY, R269. -/
  | canQueueQuery (o : Origin)
  /-- FRAME_RECEIVED, R243. -/
  | frameReceived (n : Fin 8) (f : CanFrame) (sof : Nat)
  /-- FRAME_RECORD_WRITE, R249. -/
  | frameRecordWrite (n : Fin 8)
  /-- ARBITRATION_START, R252. -/
  | arbitrationStart (n : Fin 8)
  /-- FRAME_TRANSMITTED, R254. -/
  | frameTransmitted (n : Fin 8) (edges : List Nat)
  /-- TRANSMIT_ATTEMPT_FAILED, R252. -/
  | transmitAttemptFailed (n : Fin 8) (why : AttemptFail) (edges : Option (List Nat))
  /-- CANCEL_ERROR_FLAG, R256. -/
  | cancelErrorFlag (n : Fin 8)
  /-- TX_TIMEOUT, R258. -/
  | txTimeout (n : Fin 8)
  /-- BUSOFF_HOLD_EXPIRY, R260. -/
  | busoffHoldExpiry (n : Fin 8)
  /-- BUSOFF_RECOVERY_COMPLETE, R260. -/
  | busoffRecoveryComplete (x : SeqCount)
  /-- TXD_DOMINANT, R266. -/
  | txdDominant (n : Fin 8)
  /-- LIN_WRITE, R274. -/
  | linWrite (o : Origin)
  /-- LIN_SCHED, R276. -/
  | linSched (o : Origin)
  /-- LIN_DIAG_REQ, R287. -/
  | linDiagReq (o : Origin)
  /-- LIN_QUERY, R287. -/
  | linQuery (o : Origin)
  /-- GW_ISOLATE, R283. -/
  | gwIsolate (o : Origin)
  /-- GW_ROUTE_QUERY, R287. -/
  | gwRouteQuery (o : Origin)
  /-- LIN_SLOT_START, R273. -/
  | linSlotStart (n : Fin 8)
  /-- LIN_RX, R275. -/
  | linRx (n : Fin 8) (data : List Byte) (cks : Byte)
  /-- LIN_ERR, R275. -/
  | linErr (n : Fin 8) (code : Fin 7) (got : Nat) (header : Bool)
  /-- LIN_BUS_DOMINANT, R275. -/
  | linBusDominant (n : Fin 8)
  /-- GATEWAY_BUFFER_ASSIGN, R280. -/
  | gatewayBufferAssign (n : Fin 8)
  /-- GATEWAY_MAX_AGE, R280. -/
  | gatewayMaxAge
  /-- GW_DROP, R280. -/
  | gwDrop (r : Nat)
  /-- NET_SLEEP, R298. -/
  | netSleep (o : Origin)
  /-- NET_WAKE, R310. -/
  | netWake (o : Origin)
  /-- NET_LISTEN, R310. -/
  | netListen (o : Origin)
  /-- NET_QUERY, R310. -/
  | netQuery (o : Origin)
  /-- DRAIN_END, R298. -/
  | drainEnd (b : Fin 16)
  /-- SEGMENT_COMMIT, R300. -/
  | segmentCommit (b : Fin 16)
  /-- AGREE_TIMEOUT, R300. -/
  | agreeTimeout (b : Fin 16)
  /-- WAKE_UP_PATTERN, R294. -/
  | wakeUpPattern (n : Fin 8)
  /-- WAKE_UP_FRAME, R295. -/
  | wakeUpFrame (n : Fin 8) (w : CanFrame × Nat)
  /-- DECODER_ERROR_COUNT, R295. -/
  | decoderErrorCount (x : DecodedFrame)
  /-- DECODER_SILENCE, R295. -/
  | decoderSilence (n : Fin 8)
  /-- LIN_WAKE, R296. -/
  | linWake (n : Fin 8)
  /-- SEGMENT_AWAKE, R290. -/
  | segmentAwake (b : Fin 16)
  /-- NET_ANNOUNCE, R301. -/
  | netAnnounce (n : Fin 8)
  /-- MAX_AWAKE, R306. -/
  | maxAwake (b : Fin 16)
  /-- TOKEN_SEARCH, R321. -/
  | tokenSearch (o : Origin)
  /-- RELEASE_START, R327. -/
  | releaseStart (o : Origin)
  /-- RELEASE_END, R328. -/
  | releaseEnd (o : Origin)
  /-- TOKEN_READ, R324. -/
  | tokenRead (o : Origin)
  /-- TOKEN_WRITE, R324. -/
  | tokenWrite (o : Origin)
  /-- KEY_WRITE, R326. -/
  | keyWrite (o : Origin) (b : BlockStep)
  /-- KEY_QUERY, R325. -/
  | keyQuery (o : Origin)
  /-- FIELD_START, R315. -/
  | fieldStart (i : Nat)
  /-- WUP, R320. -/
  | wup (seed : Byte)
  /-- HALT, R319. -/
  | halt
  /-- AUTH_A, R323. -/
  | authA (rnd : BitVec 64)
  /-- AUTH_B, R323. -/
  | authB
  /-- READ, R324. -/
  | read
  /-- WRITE, R324. -/
  | write
  /-- TOKEN_ANSWER, R317. -/
  | tokenAnswer (a : TokenAnswer)
  /-- RELEASE_FRAME, R328. -/
  | releaseFrame
  /-- RELEASE_SESSION_TIMEOUT, R330. -/
  | releaseSessionTimeout
  /-- INTERRUPT_ENTRY, R347. -/
  | interruptEntry (x : Issue)
  /-- HANDLER_DISPATCH, R363. -/
  | handlerDispatch (e : Fin 16)
  /-- HANDLER_CYCLE_BUDGET_EXCEEDED, R363. -/
  | handlerCycleBudgetExceeded (x : Issue)
  /-- INBOUND_QUEUE_DELIVERY, R362. -/
  | inboundQueueDelivery (e : Fin 16)
  /-- LOCAL_TIMER, R346. -/
  | localTimer (e : Fin 16)
  /-- ADD, R352. -/
  | add (x : Issue) (d r t : RegCode)
  /-- SUB, R352. -/
  | sub (x : Issue) (d r t : RegCode)
  /-- ADC, R352. -/
  | adc (x : Issue) (d r t : RegCode)
  /-- SBC, R352. -/
  | sbc (x : Issue) (d r t : RegCode)
  /-- AND, R352. -/
  | and (x : Issue) (d r t : RegCode)
  /-- OR, R352. -/
  | or (x : Issue) (d r t : RegCode)
  /-- XOR, R352. -/
  | xor (x : Issue) (d r t : RegCode)
  /-- NOT, R352. -/
  | not (x : Issue) (d r : RegCode)
  /-- NEG, R352. -/
  | neg (x : Issue) (d r : RegCode)
  /-- ABS, R352. -/
  | abs (x : Issue) (d r : RegCode)
  /-- MOV, R352. -/
  | mov (x : Issue) (d r : RegCode)
  /-- MIN, R352. -/
  | min (x : Issue) (d r t : RegCode)
  /-- MAX, R352. -/
  | max (x : Issue) (d r t : RegCode)
  /-- MINU, R352. -/
  | minu (x : Issue) (d r t : RegCode)
  /-- MAXU, R352. -/
  | maxu (x : Issue) (d r t : RegCode)
  /-- CLZ, R352. -/
  | clz (x : Issue) (d r : RegCode)
  /-- POPC, R352. -/
  | popc (x : Issue) (d r : RegCode)
  /-- SXB, R352. -/
  | sxb (x : Issue) (d r : RegCode)
  /-- SXH, R352. -/
  | sxh (x : Issue) (d r : RegCode)
  /-- SHL, R354. -/
  | shl (x : Issue) (d r t : RegCode)
  /-- SHR, R354. -/
  | shr (x : Issue) (d r t : RegCode)
  /-- SAR, R354. -/
  | sar (x : Issue) (d r t : RegCode)
  /-- ROL, R354. -/
  | rol (x : Issue) (d r t : RegCode)
  /-- ROR, R354. -/
  | ror (x : Issue) (d r t : RegCode)
  /-- MUL, R352. -/
  | mul (x : Issue) (d r t : RegCode)
  /-- MULH, R352. -/
  | mulh (x : Issue) (d r t : RegCode)
  /-- MULHU, R352. -/
  | mulhu (x : Issue) (d r t : RegCode)
  /-- DIV, R354. -/
  | div (x : Issue) (d r t : RegCode)
  /-- DIVU, R354. -/
  | divu (x : Issue) (d r t : RegCode)
  /-- REM, R354. -/
  | rem (x : Issue) (d r t : RegCode)
  /-- REMU, R354. -/
  | remu (x : Issue) (d r t : RegCode)
  /-- ADDI, R351. -/
  | addi (x : Issue) (d r : RegCode) (imm : BitVec 18)
  /-- ANDI, R351. -/
  | andi (x : Issue) (d r : RegCode) (imm : BitVec 18)
  /-- ORI, R351. -/
  | ori (x : Issue) (d r : RegCode) (imm : BitVec 18)
  /-- XORI, R351. -/
  | xori (x : Issue) (d r : RegCode) (imm : BitVec 18)
  /-- LDI, R351. -/
  | ldi (x : Issue) (d : RegCode) (imm : BitVec 18)
  /-- LDL, R351. -/
  | ldl (x : Issue) (d : RegCode) (ext : Word)
  /-- SHI, R351. -/
  | shi (x : Issue) (d r : RegCode) (kind : ShiftKind) (amount : BitVec 6)
  /-- CMP, R353. -/
  | cmp (x : Issue) (d r t : RegCode) (c : Cond)
  /-- CMPI, R353. -/
  | cmpi (x : Issue) (d r : RegCode) (c : Cond) (imm : BitVec 15)
  /-- LD, R350. -/
  | ld (x : Issue) (d b : RegCode) (m : Amode) (sz : Size) (sx : Bool)
  /-- ST, R350. -/
  | st (x : Issue) (d b : RegCode) (m : Amode) (sz : Size)
  /-- LEA, R350. -/
  | lea (x : Issue) (d b : RegCode) (m : Amode)
  /-- PUSHM, R357. -/
  | pushm (x : Issue) (mask : BitVec 11)
  /-- POPM, R357. -/
  | popm (x : Issue) (mask : BitVec 11)
  /-- MOVS, R351. -/
  | movs (x : Issue) (d b : RegCode) (sz : Size)
  /-- XCHG, R351. -/
  | xchg (x : Issue) (d b : RegCode) (disp : BitVec 12)
  /-- CAS, R351. -/
  | cas (x : Issue) (d r t : RegCode)
  /-- BR, R351. -/
  | br (x : Issue) (off : BitVec 22)
  /-- BZ, R353. -/
  | bz (x : Issue) (c : RegCode) (off : BitVec 22)
  /-- BNZ, R353. -/
  | bnz (x : Issue) (c : RegCode) (off : BitVec 22)
  /-- JR, R351. -/
  | jr (x : Issue) (r : RegCode)
  /-- CALL, R355. -/
  | call (x : Issue) (mask : BitVec 11) (off : BitVec 15)
  /-- CALLX, R355. -/
  | callx (x : Issue) (mask : BitVec 11) (target : Word)
  /-- CALLR, R355. -/
  | callr (x : Issue) (mask : BitVec 11) (r : RegCode)
  /-- RET, R356. -/
  | ret (x : Issue)
  /-- LOOP, R358. -/
  | loop (x : Issue) (r : RegCode) (last : BitVec 14)
  /-- LOOPI, R358. -/
  | loopi (x : Issue) (count : BitVec 12) (last : BitVec 14)
  /-- LEAVE, R359. -/
  | leave (x : Issue)
  /-- REP, R360. -/
  | rep (x : Issue) (r : RegCode) (ni : Bool)
  /-- FENCE, R340. -/
  | fence (x : Issue)
  /-- SEND, R361. -/
  | send (x : Issue) (d r : RegCode)
  /-- RECV, R361. -/
  | recv (x : Issue) (d r : RegCode)
  /-- WAIT, R352. -/
  | wait (x : Issue)
  /-- YIELD, R363. -/
  | yield (x : Issue)
  /-- TRAP, R348. -/
  | trap (x : Issue) (code : BitVec 8)
  /-- MFS, R344. -/
  | mfs (x : Issue) (d : RegCode) (n : BitVec 8)
  /-- MTS, R344. -/
  | mts (x : Issue) (r : RegCode) (n : BitVec 8)
  /-- RETI, R347. -/
  | reti (x : Issue)
  /-- PAIR_MISMATCH, R373. -/
  | pairMismatch (k : Fin 8) (lane : Fin 4) (bit : Fin 128)
  /-- PKG_WRITE, R381. -/
  | pkgWrite (o : Origin) (b : BlockStep)
  /-- PKG_ERASE, R381. -/
  | pkgErase (o : Origin)
  /-- PKG_QUERY, R381. -/
  | pkgQuery (o : Origin)
  /-- PAIR_SPLIT, R375. -/
  | pairSplit (o : Origin)
  /-- PAIR_MERGE, R377. -/
  | pairMerge (o : Origin)
  /-- PAIR_QUERY, R381. -/
  | pairQuery (o : Origin)
  /-- MERGE_COPY_DONE, R377. -/
  | mergeCopyDone (k : Fin 8)
  /-- MERGE_SELFTEST_DONE, R377. -/
  | mergeSelftestDone (k : Fin 8) (failed : List (Fin 203))
  /-- HB_QUERY, R407. -/
  | hbQuery (o : Origin)
  /-- XSPI_READ, R407. -/
  | xspiRead (o : Origin)
  /-- XSPI_WRITE, R407. -/
  | xspiWrite (o : Origin) (b : BlockStep)
  /-- XSPI_ERASE, R407. -/
  | xspiErase (o : Origin)
  /-- XSPI_QUERY, R407. -/
  | xspiQuery (o : Origin)
  /-- XSPI_NO_ANSWER, R406. -/
  | xspiNoAnswer (cs : Fin 2)
  /-- READ_COMPLETION, R394. -/
  | readCompletion (tag : Fin 128) (r : ReadResult)
  /-- TAG_TIMEOUT, R394. -/
  | tagTimeout (tag : Fin 128)
  /-- TAG_QUARANTINE_END, R395. -/
  | tagQuarantineEnd (tag : Fin 128)
  /-- DELAYED_READ_DISCARD, R397. -/
  | delayedReadDiscard
  /-- HOST_LINK_LOSS, R404. -/
  | hostLinkLoss
  /-- MSIX_UNMASK, R402. -/
  | msixUnmask (u : Unmask)
  /-- FAULT_QUERY, R429. -/
  | faultQuery (o : Origin)
  /-- FAULT_ACK, R419. -/
  | faultAck (o : Origin)
  /-- FAULT_RESET, R422. -/
  | faultReset (o : Origin) (failed : List (Fin 203))
  /-- FAULT_INJECT, R429. -/
  | faultInject (o : Origin)
  /-- FAULT_RAISE, R411. -/
  | faultRaise (srcs : List (Fin 256))
  /-- DEVICE_RESET, R423. -/
  | deviceReset (r : ResetSource)
  /-- HEARTBEAT, R426. -/
  | heartbeat
  /-- RUNTIME_WATCHDOG, R426. -/
  | runtimeWatchdog
  /-- RECOVERY_END, R420. -/
  | recoveryEnd
  /-- POWER_SET, R439. -/
  | powerSet (o : Origin)
  /-- POWER_QUERY, R455. -/
  | powerQuery (o : Origin)
  /-- ALARM_SET, R455. -/
  | alarmSet (o : Origin)
  /-- ENTRY_HANDSHAKE_ANSWER, R440. -/
  | entryHandshakeAnswer (block : Fin 11) (a : BlockAnswer)
  /-- ENTRY_TIMEOUT, R440. -/
  | entryTimeout
  /-- ENTRY_COMPLETE, R441. -/
  | entryComplete
  /-- STANDBY_EXIT, R433. -/
  | standbyExit
  /-- VOUT_ACKNOWLEDGE, R445. -/
  | voutAcknowledge (vout : Nat) (status : Nat)
  /-- PMBUS_NO_ACK, R445. -/
  | pmbusNoAck
  /-- PM_ALERT, R445. -/
  | pmAlert (status : Nat)
  /-- WAKE_LATCH, R297. -/
  | wakeLatch (w : WakeKind)
  /-- ROOT_TIMER_WAKE, R446. -/
  | rootTimerWake
  /-- PERST_N_WAKE, R446. -/
  | perstNWake
  /-- WAKE_N_RELEASE, R447. -/
  | wakeNRelease
  /-- REGULATOR_RETRY, R450. -/
  | regulatorRetry
  /-- VCORE_BROWNOUT, R450. -/
  | vcoreBrownout
  /-- XTAL32_START, R436. -/
  | xtal32Start
  /-- XTAL32_FAIL, R436. -/
  | xtal32Fail
  /-- XTAL40_FAIL, R436. -/
  | xtal40Fail
  /-- PFW_FALL, R453. -/
  | pfwFall (vbat : Nat)
  /-- PFW_RISE, R456. -/
  | pfwRise (vbat : Nat)
  /-- CRANK, R454. -/
  | crank (x : HeldV)
  /-- HW_READ, R480. -/
  | hwRead (o : Origin)
  /-- HW_QUERY, R480. -/
  | hwQuery (o : Origin)
  /-- UPD_WRITE, R480. -/
  | updWrite (o : Origin) (b : BlockStep)
  /-- UPD_ARM, R471. -/
  | updArm (o : Origin)
  /-- UPD_DISARM, R480. -/
  | updDisarm (o : Origin)
  /-- UPD_QUERY, R480. -/
  | updQuery (o : Origin)
  /-- UPD_CONFIRM, R478. -/
  | updConfirm (o : Origin)
  /-- UPD_REJECT, R478. -/
  | updReject (o : Origin)
  /-- UPD_KEY_SET, R473. -/
  | updKeySet (o : Origin) (b : BlockStep)
  /-- TRIAL_TIMEOUT, R478. -/
  | trialTimeout
  /-- PERF_SET, R485. -/
  | perfSet (o : Origin)
  /-- FAB_SET, R489. -/
  | fabSet (o : Origin)
  /-- PERF_RING, R491. -/
  | perfRing (o : Origin)
  /-- PERF_SNAP, R491. -/
  | perfSnap (o : Origin)
  /-- PERF_SAMPLE, R487. -/
  | perfSample
  /-- PC_CYCLES_LO_READ, R492. -/
  | pcCyclesLoRead (e : Fin 16)
  /-- FAB_LO_READ, R492. -/
  | fabLoRead (n : Fin 4)
  /-- LEDGER_LO_READ, R196. -/
  | ledgerLoRead (n : Fin 4)
  /-- LOAD_DIE_SUPPLY_LOW, R503. -/
  | loadDieSupplyLow (die : Die) (x : HeldV)
  /-- LS_SUPPLY_HIGH, R503. -/
  | lsSupplyHigh (x : DieSupply)
  /-- SUPPLY_RETURN, R503. -/
  | supplyReturn (x : DieSupply)
  /-- DIE_OVERTEMP, R505. -/
  | dieOvertemp (b : Fin 8) (t : Int)
  /-- ROOT_ISLAND_SUPPLY_LOSS, R452. -/
  | rootIslandSupplyLoss
  /-- BUS_INTEGRATED, R262. -/
  | busIntegrated (n : Fin 8)
  /-- RECEIVE_ERROR, R259. -/
  | receiveError (n : Fin 8) (why : RxError) (eight : Bool)
  /-- LIN_BUS_RECESSIVE, R275. -/
  | linBusRecessive (n : Fin 8)
  /-- NOP_INSTRUCTION, R352. -/
  | nopInstruction (x : Issue)
  /-- ILLEGAL_INSTRUCTION, R348. -/
  | illegalInstruction (x : Issue) (w : Word)
  /-- XTAL40_RETRY, R450. -/
  | xtal40Retry (runs : Bool)
  /-- BARRIER_POWER_RETURN, R218. -/
  | barrierPowerReturn
  /-- BANK_SENSE_PLAUSIBLE, R102. -/
  | bankSensePlausible (b : Fin 8) (sense : Int) (die : Nat)
  /-- OV_SLOW_END, R184. -/
  | ovSlowEnd (vCap : Nat)
  /-- XSPI_OPERATION_END, R407. -/
  | xspiOperationEnd (cs : Fin 2) (r : XspiResult)
deriving DecidableEq, Repr

end Sys2Proof
end

