-- ==== Sys2Proof/Decode.lean ====
section
/-! DEFINITION. Words to commands: spec/opcode_table.json gives no row any bits. -/

namespace Sys2Proof

/-- The command that a word spells by the table's bits: none, since every row's field list is empty. The encodings that
the spec does give (descriptors of R37, engine instructions of R349) are read where they arrive. -/
def decodeTableWord (_nbits _w : Nat) : Option Instr := none

end Sys2Proof
end

