-- ==== Sys2Proof/Machine/Bits.lean ====
section
/-! DEFINITION. Bit fields, saturation, little-endian bytes, the sparse memory's read and write, and
the update of one element of a fixed array: the helpers every block of the machine uses. -/

namespace Sys2Proof.Machine

/-- The `w`-bit field of `x` that starts at bit `lo` (R4: a field is written [msb:lsb]). -/
def fld (x lo w : Nat) : Nat := x / 2 ^ lo % 2 ^ w

/-- Bit `i` of `x`. -/
def bitN (x i : Nat) : Bool := fld x i 1 == 1

/-- 1 for true, 0 for false: a flag as a field of a register or record. -/
def b2n (b : Bool) : Nat := if b then 1 else 0

/-- `x` placed as a `w`-bit field at bit `lo`; bits of `x` beyond the field are dropped. -/
def putF (x lo w : Nat) : Nat := x % 2 ^ w * 2 ^ lo

/-- A count of `w` bits that saturates (R36, R431 and others). -/
def sat (w x : Nat) : Nat := min x (2 ^ w - 1)

/-- A signed value of `w` bits in two's complement. -/
def toSigned (w x : Nat) : Int := if x % 2 ^ w < 2 ^ (w - 1) then (x % 2 ^ w : Nat) else (x % 2 ^ w : Nat) - (2 ^ w : Nat)

/-- An integer as a `w`-bit two's-complement field, saturating at the ends of its range. -/
def ofSigned (w : Nat) (i : Int) : Nat :=
  let hi : Int := (2 ^ (w - 1) : Nat) - 1
  let lo : Int := - (2 ^ (w - 1) : Nat)
  ((max lo (min hi i)) % (2 ^ w : Nat)).toNat

/-- Free-running 32-bit index arithmetic (R23): `a` minus `b`, modulo 2^32. -/
def sub32 (a b : Nat) : Nat := (a + (2 ^ 32 - b % 2 ^ 32)) % 2 ^ 32

/-- `x` modulo 2^32. -/
def w32 (x : Nat) : Nat := x % 2 ^ 32

/-- The little-endian bytes of `x`, `n` of them (R4). -/
def leBytes : Nat → Nat → List Byte
  | 0, _ => []
  | n + 1, x => BitVec.ofNat 8 x :: leBytes n (x / 256)

/-- The number that a list of bytes spells, little-endian (R4). -/
def ofLe : List Byte → Nat
  | [] => 0
  | b :: bs => b.toNat + 256 * ofLe bs

/-- The big-endian bytes of `x`, `n` of them (keys, digests and counter blocks of R470, R81). -/
def beBytes (n x : Nat) : List Byte := (leBytes n x).reverse

/-- The number that a list of bytes spells, big-endian. -/
def ofBe (l : List Byte) : Nat := ofLe l.reverse

/-- Read of one byte: an unlisted address reads as 0 (log entry 3, DESIGN CHOICE). -/
def memRead : Mem → Nat → Byte
  | [], _ => 0
  | (k, v) :: m, a => if k == a then v else memRead m a

/-- Write of one byte, keeping the canonical form: rising addresses, no listed 0. -/
def memWrite : Mem → Nat → Byte → Mem
  | [], a, b => if b == 0 then [] else [(a, b)]
  | (k, v) :: m, a, b =>
    if a < k then (if b == 0 then (k, v) :: m else (a, b) :: (k, v) :: m)
    else if a == k then (if b == 0 then m else (a, b) :: m)
    else (k, v) :: memWrite m a b

/-- The canonical form of a memory: addresses strictly rising from `lo`, no listed 0. -/
def memWfFrom : Nat → Mem → Bool
  | _, [] => true
  | lo, (k, v) :: m => lo ≤ k && v != 0 && memWfFrom (k + 1) m

/-- A memory is in canonical form. -/
def memWf (m : Mem) : Bool := memWfFrom 0 m

/-- `n` bytes from address `a`, rising. -/
def memBytes (m : Mem) (a : Nat) : Nat → List Byte
  | 0 => []
  | n + 1 => memRead m a :: memBytes m (a + 1) n

/-- The little-endian value of `n` bytes at `a` (R4). -/
def memLe (m : Mem) (a n : Nat) : Nat := ofLe (memBytes m a n)

/-- Write of consecutive bytes. -/
def memWriteL (m : Mem) (a : Nat) : List Byte → Mem
  | [] => m
  | b :: bs => memWriteL (memWrite m a b) (a + 1) bs

/-- The bytes of a memory from `a` on whose addresses lie in [a, a+n), moved to start at `d`. -/
def memSlice (m : Mem) (a n d : Nat) : Mem :=
  (m.filter fun c => a ≤ c.1 && c.1 < a + n).map fun c => (c.1 - a + d, c.2)

/-- A memory without its bytes in [a, a+n): they read 0 again. -/
def memErase (m : Mem) (a n : Nat) : Mem := m.filter fun c => !(a ≤ c.1 && c.1 < a + n)

/-- The bytes [d, d+n) of `m` replaced by the bytes [a, a+n) of `src`. -/
def memCopy (m : Mem) (d : Nat) (src : Mem) (a n : Nat) : Mem :=
  (m.filter fun c => c.1 < d) ++ memSlice src a n d ++ (m.filter fun c => d + n ≤ c.1)

/-- One element of a fixed array changed. -/
def upd {α : Type} {n : Nat} (v : Vector α n) (i : Fin n) (f : α → α) : Vector α n := v.set i (f v[i])

/-- The elements of an array with their index, rising. -/
def idxs (n : Nat) : List (Fin n) := List.finRange n

/-- A map over a fixed array that sees the index. -/
def mapFin {α β : Type} {n : Nat} (v : Vector α n) (f : Fin n → α → β) : Vector β n := Vector.ofFn fun i => f i v[i]

/-- A number as an index of an array of `n` (n > 0), when it is one. -/
def fin? (n x : Nat) : Option (Fin n) := if h : x < n then some ⟨x, h⟩ else none

/-- Element `x` of an array, when there is one. -/
def at? {α : Type} {n : Nat} (v : Vector α n) (x : Nat) : Option α := if h : x < n then some v[x] else none

/-- Run a change on element `x` of a fixed array, when there is one. -/
def updN {α : Type} {n : Nat} (v : Vector α n) (x : Nat) (f : α → α) : Vector α n := if h : x < n then v.set x (f v[x]) else v

/-- DT ticks (12.5 ns, R8) in `n` microseconds. -/
def us (n : Nat) : Nat := 80 * n

/-- DT ticks in `n` milliseconds. -/
def ms (n : Nat) : Nat := 80000 * n

/-- DT ticks in `n` seconds. -/
def sec (n : Nat) : Nat := 80000000 * n

end Sys2Proof.Machine
end

