-- ==== Sys2Proof/Machine/Crypto.lean ====
section
/-! DEFINITION. The checks and ciphers that the spec names by their standards: CRC-32 (R60), AES-128 with
CMAC (R81), CTR (R470) and key unwrap (RFC 3394, R326, R470), SHA-256 (R470), ECDSA P-256 (R472).
Keys, blocks and digests are numbers whose first byte is the most significant, as the standards write them. -/

namespace Sys2Proof.Machine

/-- One bit step of a reflected CRC with polynomial `poly`. -/
def crcBit (poly c : Nat) : Nat := if c % 2 == 1 then Nat.xor (c / 2) poly else c / 2

/-- One byte into a reflected CRC. -/
def crcByte (poly c : Nat) (b : Byte) : Nat :=
  let s := crcBit poly
  s (s (s (s (s (s (s (s (Nat.xor c b.toNat))))))))

/-- CRC-32 of R60: polynomial 0x04C1_1DB7 reflected, initial value and final XOR 0xFFFF_FFFF. -/
def crc32 (l : List Byte) : Nat := Nat.xor (l.foldl (crcByte 0xEDB88320) 0xFFFFFFFF) 0xFFFFFFFF

/-- One bit of CRC-16, polynomial 0x1021, not reflected. -/
def crc16Bit (c : Nat) : Nat := if 0x8000 ≤ c then Nat.xor (c * 2 % 0x10000) 0x1021 else c * 2

/-- CRC-16 of R318: initial value 0xFFFF, no final XOR. -/
def crc16 (l : List Byte) : Nat :=
  l.foldl (fun c b => crc16Bit (crc16Bit (crc16Bit (crc16Bit (crc16Bit (crc16Bit (crc16Bit (crc16Bit (Nat.xor c (b.toNat * 256)))))))))) 0xFFFF

/-- Multiplication by x in the AES field. -/
def xtime (a : Nat) : Nat := if a ≥ 128 then Nat.xor (a * 2 % 256) 0x1B else a * 2

/-- Product in the AES field, `n` bits of `b`. -/
def gmul : Nat → Nat → Nat → Nat
  | 0, _, _ => 0
  | n + 1, a, b => Nat.xor (if b % 2 == 1 then a else 0) (gmul n (xtime a) (b / 2))

/-- x^254 in the AES field: the inverse, 0 for 0. -/
def ginv (a : Nat) : Nat :=
  let sq := fun x => gmul 8 x x
  let a2 := sq a
  let a3 := gmul 8 a2 a
  let a6 := sq a3
  let a7 := gmul 8 a6 a
  let a14 := sq a7
  let a15 := gmul 8 a14 a
  let a30 := sq a15
  let a31 := gmul 8 a30 a
  let a62 := sq a31
  let a63 := gmul 8 a62 a
  let a126 := sq a63
  let a127 := gmul 8 a126 a
  sq a127

/-- The AES S-box. -/
def sbox (a : Nat) : Nat :=
  let i := ginv a
  let rot := fun k => (i * 2 ^ k) % 256 + i / 2 ^ (8 - k)
  Nat.xor (Nat.xor (Nat.xor (Nat.xor (Nat.xor i (rot 1)) (rot 2)) (rot 3)) (rot 4)) 0x63

/-- The inverse S-box. -/
def invSbox (a : Nat) : Nat :=
  let rot := fun k => (a * 2 ^ k) % 256 + a / 2 ^ (8 - k)
  ginv (Nat.xor (Nat.xor (Nat.xor (rot 1) (rot 3)) (rot 6)) 0x05)

/-- Byte `i` (0 first) of a 16-byte block. -/
def blkByte (x i : Nat) : Nat := x / 2 ^ (8 * (15 - i)) % 256

/-- A block from its bytes, first byte most significant. -/
def ofBytes (l : List Nat) : Nat := l.foldl (fun a b => a * 256 + b) 0

/-- Apply a byte function to the 16 bytes of a block. -/
def mapBlock (f : Nat → Nat) : Nat := ofBytes ((List.range 16).map f)

/-- Next AES-128 round key. -/
def nextKey (k rcon : Nat) : Nat :=
  let w3 := k % 2 ^ 32
  let t := ofBytes [sbox (w3 / 2 ^ 16 % 256), sbox (w3 / 2 ^ 8 % 256), sbox (w3 % 256), sbox (w3 / 2 ^ 24)]
  let w0 := Nat.xor (Nat.xor (k / 2 ^ 96) t) (rcon * 2 ^ 24)
  let w1 := Nat.xor (k / 2 ^ 64 % 2 ^ 32) w0
  let w2 := Nat.xor (k / 2 ^ 32 % 2 ^ 32) w1
  ((w0 * 2 ^ 32 + w1) * 2 ^ 32 + w2) * 2 ^ 32 + Nat.xor w3 w2

/-- The round keys after the first, for `n` rounds. -/
def keySched : Nat → Nat → Nat → List Nat
  | 0, _, _ => []
  | n + 1, k, rc => let k' := nextKey k rc; k' :: keySched n k' (xtime rc)

/-- SubBytes and ShiftRows. -/
def subShift (x : Nat) : Nat := mapBlock fun i => sbox (blkByte x ((i + 4 * (i % 4)) % 16))

/-- InvShiftRows and InvSubBytes. -/
def invSubShift (x : Nat) : Nat := mapBlock fun i => invSbox (blkByte x ((i + 12 * (i % 4)) % 16))

/-- A column mix with coefficients `c`. -/
def mixCols (c : List Nat) (x : Nat) : Nat := mapBlock fun i =>
  ((List.range 4).map fun j => gmul 8 (blkByte x (i / 4 * 4 + j)) (c.getD ((j + 4 - i % 4) % 4) 0)).foldl Nat.xor 0

/-- AES-128 encryption of one block. -/
def aesEnc (key blk : Nat) : Nat :=
  let ks := keySched 10 key 1
  let s := (ks.take 9).foldl (fun s k => Nat.xor (mixCols [2, 3, 1, 1] (subShift s)) k) (Nat.xor blk key)
  Nat.xor (subShift s) (ks.getD 9 0)

/-- AES-128 decryption of one block. -/
def aesDec (key blk : Nat) : Nat :=
  let ks := keySched 10 key 1
  let s := (ks.take 9).reverse.foldl (fun s k => mixCols [14, 11, 13, 9] (Nat.xor (invSubShift s) k)) (Nat.xor blk (ks.getD 9 0))
  Nat.xor (invSubShift s) key

/-- Doubling in the CMAC field. -/
def cmacDbl (x : Nat) : Nat := if x ≥ 2 ^ 127 then Nat.xor (x * 2 % 2 ^ 128) 0x87 else x * 2

/-- The blocks of a message of CMAC with its last block masked. -/
def cmacBlocks (k1 k2 : Nat) : Nat → List Byte → List Nat
  | 0, _ => []
  | n + 1, l =>
    if l.length > 16 then ofBe (l.take 16) :: cmacBlocks k1 k2 n (l.drop 16)
    else if l.length == 16 then [Nat.xor (ofBe l) k1]
    else [Nat.xor (ofBe (l ++ [0x80] ++ List.replicate (15 - l.length) 0)) k2]

/-- AES-128-CMAC. -/
def cmac (key : Nat) (msg : List Byte) : Nat :=
  let k1 := cmacDbl (aesEnc key 0)
  (cmacBlocks k1 (cmacDbl k1) (msg.length + 1) msg).foldl (fun c m => aesEnc key (Nat.xor c m)) 0

/-- AES-128-CTR of 16-byte blocks from block count `n`, nonce of 12 bytes (R470). -/
def aesCtr (key nonce : Nat) : Nat → Nat → List Byte → List Byte
  | 0, _, _ => []
  | fuel + 1, n, l =>
    if l.isEmpty then []
    else
      let k := beBytes 16 (aesEnc key (nonce * 2 ^ 32 + n % 2 ^ 32))
      (List.zipWith (fun a b => a ^^^ b) (l.take 16) k) ++ aesCtr key nonce fuel (n + 1) (l.drop 16)

/-- One step of RFC 3394 unwrapping: `t` the step count, `n` the number of 8-byte blocks. -/
def unwrapStep (key n : Nat) (st : Nat × List Nat) (t : Nat) : Nat × List Nat :=
  let i := (t - 1) % n
  let b := aesDec key (Nat.xor st.1 t * 2 ^ 64 + st.2.getD i 0)
  (b / 2 ^ 64, st.2.set i (b % 2 ^ 64))

/-- RFC 3394 key unwrap: the plain blocks when the integrity check holds. -/
def keyUnwrap (key : Nat) (a : Nat) (r : List Nat) : Option (List Nat) :=
  let n := r.length
  let st := ((List.range (6 * n)).reverse.map (· + 1)).foldl (unwrapStep key n) (a, r)
  if st.1 == 0xA6A6A6A6A6A6A6A6 then some st.2 else none

/-- Integer square root by bits, `n` bits of result. -/
def sqrtFrom : Nat → Nat → Nat → Nat
  | 0, r, _ => r
  | n + 1, r, x => let c := r + 2 ^ n; if c * c ≤ x then sqrtFrom n c x else sqrtFrom n r x

/-- Integer square root. -/
def isqrt (x : Nat) : Nat := sqrtFrom (Nat.log2 x / 2 + 1) 0 x

/-- Integer cube root by bits. -/
def cbrtFrom : Nat → Nat → Nat → Nat
  | 0, r, _ => r
  | n + 1, r, x => let c := r + 2 ^ n; if c * c * c ≤ x then cbrtFrom n c x else cbrtFrom n r x

/-- The first 64 primes. -/
def primes64 : List Nat :=
  [2, 3, 5, 7, 11, 13, 17, 19, 23, 29, 31, 37, 41, 43, 47, 53, 59, 61, 67, 71, 73, 79, 83, 89, 97, 101, 103, 107,
   109, 113, 127, 131] ++
  [137, 139, 149, 151, 157, 163, 167, 173, 179, 181, 191, 193, 197, 199, 211, 223, 227, 229, 233, 239, 241, 251,
   257, 263, 269, 271, 277, 281, 283, 293, 307, 311]

/-- Rotate right in 32 bits. -/
def rotr32 (x k : Nat) : Nat := x / 2 ^ k + x * 2 ^ (32 - k) % 2 ^ 32

/-- SHA-256 round constants: the first 32 fraction bits of the primes' cube roots. -/
def shaK : List Nat := primes64.map fun p => cbrtFrom 36 0 (p * 2 ^ 96) % 2 ^ 32

/-- SHA-256 initial state: the first 32 fraction bits of the first eight primes' square roots. -/
def shaInit : List Nat := (primes64.take 8).map fun p => isqrt (p * 2 ^ 64) % 2 ^ 32

/-- The message schedule: sixteen words extended to 64 (the list is kept newest first). -/
def shaSched : Nat → List Nat → List Nat
  | 0, w => w
  | n + 1, w =>
    let a := w.getD 14 0
    let b := w.getD 1 0
    let s0 := Nat.xor (Nat.xor (rotr32 a 7) (rotr32 a 18)) (a / 8)
    let s1 := Nat.xor (Nat.xor (rotr32 b 17) (rotr32 b 19)) (b / 1024)
    shaSched n ((w.getD 15 0 + s0 + w.getD 6 0 + s1) % 2 ^ 32 :: w)

/-- One SHA-256 round on (a..h). -/
def shaRound (st : List Nat) (kw : Nat) : List Nat :=
  match st with
  | [a, b, c, d, e, f, g, h] =>
    let s1 := Nat.xor (Nat.xor (rotr32 e 6) (rotr32 e 11)) (rotr32 e 25)
    let ch := Nat.xor (Nat.land e f) (Nat.land (2 ^ 32 - 1 - e) g)
    let t1 := h + s1 + ch + kw
    let s0 := Nat.xor (Nat.xor (rotr32 a 2) (rotr32 a 13)) (rotr32 a 22)
    let mj := Nat.xor (Nat.xor (Nat.land a b) (Nat.land a c)) (Nat.land b c)
    [(t1 + s0 + mj) % 2 ^ 32, a, b, c, (d + t1) % 2 ^ 32, e, f, g]
  | s => s

/-- One 64-byte block into the SHA-256 state. -/
def shaBlock (st : List Nat) (blk : List Byte) : List Nat :=
  let w := (shaSched 48 ((List.range 16).map fun i => ofBe ((blk.drop (4 * i)).take 4)).reverse).reverse
  let r := (List.zipWith (· + ·) shaK w).foldl shaRound st
  List.zipWith (fun a b => (a + b) % 2 ^ 32) st r

/-- The blocks of a padded message. -/
def shaBlocks : Nat → List Nat → List Byte → List Nat
  | 0, st, _ => st
  | n + 1, st, l => if l.isEmpty then st else shaBlocks n (shaBlock st (l.take 64)) (l.drop 64)

/-- SHA-256 of a message, as a 256-bit number, first byte most significant. -/
def sha256 (msg : List Byte) : Nat :=
  let pad := (119 - msg.length % 64) % 64
  let l := msg ++ [0x80] ++ List.replicate pad 0 ++ beBytes 8 (8 * msg.length)
  (shaBlocks (l.length / 64) shaInit l).foldl (fun a b => a * 2 ^ 32 + b) 0

/-- Modular power with `n` exponent bits. -/
def powMod (m : Nat) : Nat → Nat → Nat → Nat
  | 0, _, _ => 1 % m
  | n + 1, b, e => (if e % 2 == 1 then b else 1) * powMod m n (b * b % m) (e / 2) % m

/-- The field prime, group order, base point and b of P-256. -/
def p256 : Nat := 0xFFFFFFFF00000001000000000000000000000000FFFFFFFFFFFFFFFFFFFFFFFF
def n256 : Nat := 0xFFFFFFFF00000000FFFFFFFFFFFFFFFFBCE6FAADA7179E84F3B9CAC2FC632551
def gx256 : Nat := 0x6B17D1F2E12C4247F8BCE6E563A440F277037D812DEB33A0F4A13945D898C296
def gy256 : Nat := 0x4FE342E2FE1A7F9B8EE7EB4A7C0F9E162BCE33576B315ECECBB6406837BF51F5
def b256 : Nat := 0x5AC635D8AA3A93E7B3EBBD55769886BC651D06B0CC53B0F63BCE3C3E27D2604B

/-- Point addition on P-256, affine; none is the point at infinity. -/
def ecAdd (a b : Option (Nat × Nat)) : Option (Nat × Nat) :=
  match a, b with
  | none, q => q
  | p, none => p
  | some (x1, y1), some (x2, y2) =>
    if x1 == x2 && (y1 + y2) % p256 == 0 then none
    else
      let inv := fun d => powMod p256 256 d (p256 - 2)
      let l := if x1 == x2 then (3 * x1 * x1 + (p256 - 3)) * inv (2 * y1 % p256) % p256
               else (y2 + p256 - y1) * inv ((x2 + p256 - x1) % p256) % p256
      let x3 := (l * l + 2 * p256 - x1 - x2) % p256
      some (x3, (l * (x1 + p256 - x3) + (p256 - y1)) % p256)

/-- Scalar multiple with `n` bits. -/
def ecMul : Nat → Nat → Option (Nat × Nat) → Option (Nat × Nat)
  | 0, _, _ => none
  | n + 1, k, p => ecAdd (if k % 2 == 1 then p else none) (ecMul n (k / 2) (ecAdd p p))

/-- ECDSA P-256 verification of a 256-bit digest (R472, R473): key x and y, signature r and s. -/
def ecdsaOk (kx ky e r s : Nat) : Bool :=
  let onCurve := kx < p256 && ky < p256 && (ky * ky) % p256 == (kx * kx * kx + (p256 - 3) * kx + b256) % p256
  let w := powMod n256 256 s (n256 - 2)
  let pt := ecAdd (ecMul 256 (e * w % n256) (some (gx256, gy256))) (ecMul 256 (r * w % n256) (some (kx, ky)))
  onCurve && 0 < r && r < n256 && 0 < s && s < n256 && (match pt with | none => false | some (x, _) => x % n256 == r)

end Sys2Proof.Machine
end

