-- ==== Sys2Proof/Config.lean ====
section
/-! DEFINITION. What one device fixes and the model does not know (keys, delivered firmware), and the
free values: constants without a body, so that no proof can use what they are. -/

namespace Sys2Proof.Config

/-- The n-th free value of `w` bits: wherever the spec states no value and the machine goes on, the step
takes the next one (log entry 5, DESIGN CHOICE). -/
opaque freeValue (w n : Nat) : BitVec w

/-- The key file of the device: the 128-bit keys of key slots 0 to 4 at delivery (R80, R325). -/
opaque deliveryKey (slot : Nat) : BitVec 128

/-- Oniskent's P-256 public key in ROM (R472): x, then y. -/
opaque romKey : BitVec 512

/-- VERSION, IFACE, REQ_MIN list and rollback floor of part `p` installed at delivery (R474, R482). -/
opaque deliveryVersion (p : Nat) : BitVec 32
opaque deliveryIface (p : Nat) : BitVec 16
opaque deliveryReqMin (p q : Nat) : BitVec 16
opaque deliveryFloor (p : Nat) : BitVec 32

/-- HOST_MODE of the host table in MRAM at delivery: true selects self-hosted operation (R16). The spec
gives the host table's fields and not its layout, so the fields are taken as the table's content. -/
opaque selfHosted : Bool

/-- ARCHIVE and NURSERY of XSPI_MAP in the host table (R406, R468): xSPI address [31:16]; 0 in ARCHIVE is
no archive set (R466). -/
opaque archiveStart : BitVec 16
opaque nurseryStart : BitVec 16

/-- Vendor ID of the endpoint (R384). -/
opaque vendorId : BitVec 16

/-- A byte of MRAM whose place the spec does not give, as long as the device writes none of its own data there; `gen` is what
of the state such writes change (log entry 5, DESIGN CHOICE). -/
opaque mramByte (addr : Nat) (gen : List Nat) : BitVec 8

/-- DT ticks that a master's access waits at a port, and whether it meets a corrected ECC error, where no operand says so
(R489, log entry 5, DESIGN CHOICE). -/
opaque portWait (master addr dt : Nat) : BitVec 16
opaque portEcc (master addr dt : Nat) : Bool

end Sys2Proof.Config
end

