-- ==== Sys2Proof/Machine/Types/Device.lean ====
section
/-! DEFINITION. The plain data of the device-wide blocks: rings and descriptors (file 02), staging,
commit and sessions (03), host bridge and xSPI (16), fault collector (17), power and root island (18),
heartwood and update (19), performance counters (20). Reset values stand as field defaults: the value
the spec gives, or, where it gives none, the value of log entry 2, DESIGN CHOICE (zero, false, empty). -/

namespace Sys2Proof.Machine

/-- A descriptor as its origin presented it: 32 bytes (R37), the index it had in its ring (R23), and
for an engine SEND the mode and program of the sender (R361). -/
structure Desc where
  origin : Origin
  index : Nat := 0
  raw : BitVec 256
  task : Bool := false
  prog : Nat := 0
deriving DecidableEq, Repr

/-- A descriptor place between fetch and start (R42): the index, and the bytes once they have arrived. -/
structure Piped where
  index : Nat
  desc : Option Desc
  /-- Number of the fetch that took it, in service order (R42). -/
  seq : Nat := 0
deriving DecidableEq, Repr

/-- The outcome of a descriptor that has ended: status (R52) and RESULT. -/
structure Done where
  status : Nat
  result : Nat
deriving DecidableEq, Repr

/-- A descriptor that has started and whose completion is not yet written (R42, R43). `gated`: its
completion reports a change whose heartwood record is still waiting (R462). -/
structure Run where
  uid : Nat
  desc : Desc
  done : Option Done := none
  gated : Bool := false
deriving DecidableEq, Repr

/-- A completion or event record (R44), without PHASE, which depends on the slot (R45). -/
structure Record where
  opcode : Nat
  status : Nat := 0
  kind : Bool := false
  drop : Bool := false
  tsRt : Bool := false
  session : Nat := 0
  target : Nat
  ringFld : Nat
  tag : Nat
  time : Nat
  result : Nat
deriving DecidableEq, Repr

/-- One ring (R22 to R36, R46 to R50). -/
structure Ring where
  /-- RING_BASE, 64 bits, R29. -/
  base : Nat := 0
  /-- RING_SHADOW, 64 bits, R29. -/
  shadow : Nat := 0
  /-- RING_CFG fields, R30. -/
  compRing : Nat := 1
  prio : Bool := false
  role : Bool := false
  sizeLog2 : Nat := 4
  stallMs : Nat := 0
  /-- RING_IDX, R34. -/
  idx : Nat := 0
  /-- The last accepted doorbell value, R26. -/
  db : Nat := 0
  /-- RING_IRQ fields, R35. -/
  timerUs : Nat := 0
  irqEn : Bool := false
  count : Nat := 1
  /-- RING_STAT fields, R36. -/
  evtDrop : Nat := 0
  active : Bool := false
  cfgIgn : Bool := false
  dbBad : Bool := false
  fetchErr : Bool := false
  /-- A submission ring that is stopping, R33. -/
  stopping : Bool := false
  /-- Events dropped since the last drop record, R48. -/
  pendDrop : Nat := 0
  /-- Slots reserved for descriptors in flight toward the ring, R47. -/
  reserved : Nat := 0
  /-- Records since the last interrupt message, and the DT of the first of them, R46. -/
  unsignalled : Nat := 0
  irqStart : Option Nat := none
  /-- The DT from which the stall time runs, R49. -/
  stallStart : Option Nat := none
  /-- Index of the R49 drop record that stands in the kept-back slot. -/
  keptBack : Option Nat := none
  /-- The ring's waiting descriptors are to be dropped at the next released slot, R49. -/
  stalled : Bool := false
  /-- Descriptors fetched and not started, in index order, R42. -/
  pipe : List Piped := []
  /-- RPC_COUNT of the ring, and the DT ticks of RPC_WAIT, R490. -/
  rpcCount : Nat := 0
  rpcWait : Nat := 0
deriving DecidableEq, Repr

/-- What leaves the device toward the host, in the order in which it is issued (R401). -/
inductive LinkOut where
  /-- A record written to a completion/event ring at an index and address. -/
  | record (ring idx addr : Nat) (bytes : List Byte)
  /-- A shadow index written. -/
  | shadow (ring addr value : Nat)
  /-- An MSI-X message of a vector. -/
  | msix (vector : Nat)
  /-- Result data, a report, xSPI data or an engine store, written to host memory. -/
  | data (addr : Nat) (bytes : List Byte)
  /-- A read sent with a tag. -/
  | readReq (tag addr bytes : Nat)
  /-- The zero-length read that follows a confirmed store, R400. -/
  | confirmRead (tag addr : Nat)
  /-- The answer to a host read. -/
  | readReply (bytes : List Byte)
  /-- A host read answered with Completer Abort, R388. -/
  | completerAbort
  /-- An Unsupported Request reported by AER, R388. -/
  | unsupported
  /-- An Unexpected Completion reported by AER, R395. -/
  | unexpected
deriving DecidableEq, Repr

/-- The reader of an outbound read (codes of R409): a block's read by the block's number and offset, an engine's by the number
of its read. -/
inductive Reader where
  | fetch (ring : Nat) (first n : Nat)
  | block (origin : Origin) (id off : Nat)
  | load (engine id : Nat)
  | prefetch (engine id : Nat)
  | confirm (engine : Nat)
deriving DecidableEq, Repr

/-- One of the 128 tags (R393 to R395). -/
inductive TagSt where
  | free
  | out (reader : Reader) (addr bytes sentDt : Nat)
  | quarantined (untilDt : Nat)
deriving DecidableEq, Repr

/-- One host-window segment (R391, R392, R410). -/
structure Segment where
  base : Nat := 0
  confirm : Bool := false
  prefetch : Bool := false
  en : Bool := false
deriving DecidableEq, Repr

/-- One MSI-X table entry (R402): message address, data, vector control (masked at reset, log entry 4, PRESUMED). -/
structure MsixEntry where
  addrLo : Nat := 0
  addrHi : Nat := 0
  data : Nat := 0
  masked : Bool := true
deriving DecidableEq, Repr

/-- One prefetch line buffer (R398): line address, bytes, which bytes a load took, arrival DT. -/
structure Line where
  addr : Nat
  bytes : List Byte
  taken : List Nat
  arrived : Nat
deriving DecidableEq, Repr

/-- One xSPI device (R405, R406): its geometry once discovered, whether it has failed, its bytes. -/
structure XspiDev where
  geometry : Option XspiGeometry := none
  failed : Bool := false
  mem : Mem := []
deriving DecidableEq, Repr

/-- An xSPI operation in progress (R407). -/
structure XspiOp where
  uid : Nat
  kind : Nat
  addr : Nat
  len : Nat
  buf : Nat
  host : Bool
  src : List Byte
  /-- DT of its start. -/
  start : Nat := 0
deriving DecidableEq, Repr

/-- The reads of a parameter block or source buffer in host memory (R393): the origin whose head wants it, its own number,
host bus address, length, bytes asked for so far, what has come (offset, bytes, DT of arrival), and whether a read failed. -/
structure BlockRead where
  origin : Origin
  id : Nat
  addr : Nat
  len : Nat
  sent : Nat := 0
  parts : List (Nat × List Byte × Nat) := []
  failed : Bool := false
deriving DecidableEq, Repr

/-- A read that an engine's instruction has sent through the window (R391, R394): its number, host bus address, length,
whether it brings a line, and, once it has ended, its DT and the bytes, none where it failed. -/
structure WinRead where
  id : Nat
  addr : Nat
  len : Nat
  line : Bool := false
  got : Option (Nat × Option (List Byte)) := none
deriving DecidableEq, Repr

/-- A host read that waits for its answer (R389): device address, length, DT of arrival. -/
structure InRead where
  addr : Nat
  len : Nat
  dt : Nat
deriving DecidableEq, Repr

/-- The endpoint's configuration space beside its MSI-X fields (R384): Command, BAR0, BAR2 with BAR3, D3hot, the codes of
Max Payload Size and Max Read Request Size in Device Control, the uncorrectable-error status of AER (log entry 47,
PRESUMED: the reset values of PCI Express). -/
structure CfgSpace where
  command : Nat := 0
  bar0 : Nat := 0
  bar2 : Nat := 0
  d3hot : Bool := false
  maxPayload : Nat := 0
  maxRead : Nat := 2
  aer : Nat := 0
deriving DecidableEq, Repr

/-- Host bridge state (file 16). -/
structure HostSt where
  /-- HB_CFG, R410. -/
  evtRing : Nat := 0xFF
  tagToMs : Nat := 0x0A
  discard100us : Nat := 0x0A
  winEn : Bool := false
  /-- HB_STAT, R410. -/
  linkUp : Bool := false
  linkSpeed : Nat := 0
  linkWidth : Nat := 0
  cfgIgn : Bool := false
  badWrite : Bool := false
  /-- The link has reached L0 since the last start-up, R402. -/
  reachedL0 : Bool := false
  /-- A tag has timed out since start-up, a prefetched line has gone unused, L0 was not reached in 1 s. -/
  timedOut : Bool := false
  pfSeen : Bool := false
  l0Late : Bool := false
  /-- Self-hosted operation, fixed at start-up, R16. -/
  selfHosted : Bool := false
  tags : Vector TagSt 128 := Vector.replicate 128 .free
  /-- Counters of R396 to R404. -/
  tagIssued : Nat := 0
  tagDone : Nat := 0
  tagTo : Nat := 0
  pfUnused : Nat := 0
  pfBytes : Nat := 0
  lateCpl : Nat := 0
  drDiscard : Nat := 0
  lost : Nat := 0
  /-- Uncollected read data: DT of arrival, R397. -/
  delayed : List Nat := []
  /-- Blocks on their way from host memory (R393); each engine's reads through the window for its present instruction, in
  order (R394). -/
  blocks : List BlockRead := []
  asked : Vector (List WinRead) 16 := Vector.replicate 16 []
  /-- Confirming reads that wait for a tag, oldest first: engine and host bus address (R400, R403). -/
  confirmDue : List (Nat × Nat) := []
  /-- Open host reads, oldest first (R389). -/
  inReads : List InRead := []
  cfg : CfgSpace := {}
  segs : Vector Segment 16 := Vector.replicate 16 {}
  /-- MSI-X, R402. -/
  msix : Vector MsixEntry 80 := Vector.replicate 80 {}
  pba : Vector Bool 80 := Vector.replicate 80 false
  msixEn : Bool := false
  fnMask : Bool := false
  /-- Four prefetch lines per engine, most recently used first, R398. -/
  lines : Vector (List Line) 16 := Vector.replicate 16 []
  /-- First record lost in the present link loss: ring and index, R404. -/
  firstLost : Option (Nat × Nat) := none
  /-- XSPI_MAP, R410, and the two devices. -/
  archive : Nat := 0
  nursery : Nat := 0
  xspi : Vector XspiDev 2 := Vector.replicate 2 {}
  xspiOps : List XspiOp := []
deriving DecidableEq, Repr

/-- A staged table (R62): its bytes and the session that last wrote to it. -/
structure Staged where
  bytes : Mem
  writer : Option Nat := none
deriving DecidableEq, Repr

/-- A stored set: sixteen tables (index 0 is table 0x01), sequence number, CRC check (R63, R74). -/
structure StoredSet where
  tables : Vector Mem 16 := Vector.replicate 16 []
  seq : Nat := 0
  valid : Bool := true
deriving DecidableEq, Repr

/-- A check failure (R70). -/
structure CheckFail where
  check : Nat
  table : Nat
  entry : Nat
  detail : Nat := 0
deriving DecidableEq, Repr

/-- Who asked for a commit or check (R66, R67, R449). -/
inductive CommitWho where
  | desc (uid : Nat)
  | regs
  | auto
deriving DecidableEq, Repr

/-- Steps of R74 that a commit has reached. -/
inductive CommitPhase where
  | checking
  | writing
  | held
  | applied
  | marked
deriving DecidableEq, Repr

/-- A placed behaviour program (R363 to R365, R379): its number, engine (the main engine of a redundant
pair), package slot, handler entries (event code, source, entry offset, priority), targets, budget and
load, and the local-RAM layout that the placement gives it. -/
structure Prog where
  num : Nat
  engine : Nat
  split : Bool
  slot : Nat
  handlers : List (Nat × Nat × Nat × Nat) := []
  targets : List Nat := []
  codeAddr : Nat := 0
  codeSize : Nat := 0
  dataBase : Nat := 0
  stackTop : Nat := 0
  stackLim : Nat := 0
  memSize : Nat := 0
  maxCycles : Nat := 0
  load : Nat := 0
  redund : Nat := 0
  /-- PKG_CRC of its table entry. -/
  crc : Nat := 0
  stopped : Bool := false
  /-- Its data, which the hand-over of its pair will put in place (R367). -/
  image : Option Mem := none
deriving DecidableEq, Repr

/-- One identifier pair of a CAN controller (R244, R271): in use, queue, IDE, identifier, mask (1 =
compared), index of the first list entry held, false-acceptance rate in ppm. -/
structure Pair where
  queue : Nat
  ide : Bool
  ident : Nat
  mask : Nat
  first : Nat := 0
  ppm : Nat := 0
deriving DecidableEq, Repr

/-- What the placement service decides for a set (R18) beside the leaf rules, which are those of the class (R87): phases,
filter pairs per controller, programs. -/
structure Placement where
  phase : Vector Nat 64 := Vector.replicate 64 0
  placed : Vector Bool 64 := Vector.replicate 64 false
  pairs : Vector (List Pair) 8 := Vector.replicate 8 []
  progs : List Prog := []
deriving DecidableEq, Repr

/-- A commit or check in progress (R66, R74). -/
structure CommitRun where
  who : CommitWho
  session : Nat
  checkOnly : Bool
  phase : CommitPhase := .checking
  /-- DT of acceptance and of the last step. -/
  t0 : Nat
  stepAt : Nat
  /-- Requested tick (0: earliest) and the commit tick once fixed. -/
  reqTick : Nat
  tick : Nat := 0
  newSet : Vector Mem 16 := Vector.replicate 16 []
  place : Placement := {}
  tableMap : Nat := 0
  writers : Nat := 0
deriving DecidableEq, Repr

/-- Staging registers and sets (R60 to R77). -/
structure StageSt where
  staged : Vector (Option Staged) 16 := Vector.replicate 16 none
  copies : Vector StoredSet 2 := Vector.replicate 2 {}
  marked : Fin 2 := 0
  /-- The tables in force on the dies; before the first commit after a start they are the stored set's
  and only R516 uses them. -/
  tables : Vector Mem 16 := Vector.replicate 16 []
  /-- The stored set passed its CRC check at the last start-up, R63. -/
  storedOk : Bool := true
  /-- A commit has been applied since the last start-up, R16; the runtime has made its commit of R449. -/
  inForce : Bool := false
  /-- A brownout holds the digital die in reset, and the dies keep the entries in force (R450). -/
  kept : Bool := false
  autoTried : Bool := false
  place : Placement := {}
  run : Option CommitRun := none
  /-- STG_CTRL.SESSION, TABLE; STG_OFFSET; STG_STAT; STG_SEQ; STG_FAIL, R67. -/
  ctrlSession : Nat := 0
  ctrlTable : Nat := 0
  offset : Nat := 0
  statCheck : Nat := 0
  statTable : Nat := 0
  statStatus : Nat := 0
  noSes : Bool := false
  offsetBad : Bool := false
  lockIgn : Bool := false
  seq : Nat := 0
  failDetail : Nat := 0
  failEntry : Nat := 0
  /-- The placement report (R20, R57), none before the first commit after a start-up; its revision. -/
  report : Option (List Byte) := none
  revision : Nat := 0
deriving DecidableEq, Repr

/-- One session number (R79 to R83). `fails` and `lockEnd` stand in the root island (R82). -/
structure Ses where
  isOpen : Bool := false
  challenge : Option (Nat × Nat) := none
  lastNamed : Nat := 0
  fails : Nat := 0
  lockEnd : Option Nat := none
deriving DecidableEq, Repr

/-- An output, as a scope of R414 or a SAFE byte of R428 names it. -/
inductive OutId where
  | lch (n : Nat)
  | hb (n : Nat)
  | vlv (n : Nat)
  | vg (n : Nat)
  | boost
  | fio (n : Nat)
  | lf (n : Nat)
  | rel
  | seg (n : Nat)
  | pair (n : Nat)
deriving DecidableEq, Repr

/-- A C2 state (R413, R421): the source, the scope TARGET, the outputs still in it. -/
structure C2State where
  src : Nat
  target : Nat
  outs : List OutId
deriving DecidableEq, Repr

/-- A raise on its way to the collector (R411, R412): source, named TARGET (0xFFFF none), its time, RT while the
fast clocks are stopped (R14). -/
structure Raise where
  src : Nat
  target : Nat
  time : Nat
  tsRt : Bool := false
deriving DecidableEq, Repr

/-- FC_STAT.PHASE (R420). -/
inductive Phase where
  | normal
  | start
  | test
  | recovery
deriving DecidableEq, Repr

/-- One fault source in the collector (R411, R417). -/
structure Source where
  sticky : Bool := false
  esc : Bool := false
  eff : Nat := 0
  reraises : Nat := 0
deriving DecidableEq, Repr

/-- Fault collector (file 17). -/
structure FaultSt where
  srcs : Vector Source 256 := Vector.replicate 256 {}
  c2 : List C2State := []
  c3 : Bool := false
  c3Latch : Bool := false
  /-- The source that put the device safe state in force. -/
  c3Src : Nat := 0
  phase : Phase := .start
  /-- The phase a TEST interrupted, R420. -/
  interrupted : Phase := .start
  /-- The device reset that began this run left a C3 state, R420. -/
  leftC3 : Bool := false
  /-- C2 and C3 states that a device reset has ended, each with C3 or not, scope TARGET and source: reported at the start (R424). -/
  ended : List (Bool × Nat × Nat) := []
  recoveryStart : Nat := 0
  lastInjected : Bool := false
  lastEsc : Bool := false
  lastEff : Nat := 0
  lastOwn : Nat := 0
  lastSrc : Nat := 0
  raises : Nat := 0
  escalations : Nat := 0
  rstCause : Nat := 0
  /-- Raises not yet at the collector; raises held on a die whose link is down (R412); raises of the
  root island held while the digital die is off (R451). -/
  pending : List Raise := []
  held : List (Die × Raise) := []
  riHeld : List Raise := []
  /-- DT at which a device reset of FAULT_RESET or UPD_REJECT falls due (R429, R478). -/
  resetDue : Option (Nat × ResetSource) := none
  /-- Watch of R426: armed, RT tick ... DT of the last heartbeat, DT at which it applied the safe state. -/
  wdArmed : Bool := false
  lastBeat : Nat := 0
  wdFired : Option Nat := none
deriving DecidableEq, Repr

/-- The five power states of R432. -/
inductive PState where
  | run
  | idle
  | standby
  | park
  | deep
deriving DecidableEq, Repr

/-- The blocks of the entry handshake in SLICE order (R440). -/
inductive Answer where
  | asked
  | granted
  | delayed
  /-- NS withdraws its grant for a wake of this cause (R304). -/
  | withdrawn (cause : Nat)
deriving DecidableEq, Repr

/-- A POWER_SET that runs (R439 to R441). -/
structure PowerRun where
  uid : Nat
  target : PState
  t0 : Nat
  /-- Answers of LS_0..LS_3, VS, IS, FS, NS, AS, HS, engine group (SLICE 0..9 and 0xE at place 10). -/
  answers : Vector Answer 11 := Vector.replicate 11 .asked
  /-- DT of tc once it has passed; DT of step 4 of R441. -/
  tc : Option Nat := none
  step4 : Option Nat := none
deriving DecidableEq, Repr

/-- A voltage request to the regulator (R445). -/
structure VoutReq where
  mv : Nat
  rise : Bool
  tries : Nat
  sentDt : Nat
  /-- Descriptor of the POWER_SET, if a command asked for it. -/
  uid : Option Nat
  /-- State to take, and the state that the change leaves. -/
  target : PState
  old : PState
deriving DecidableEq, Repr

/-- Power controller and root island (file 18). -/
structure PowerSt where
  /-- The root island has its supply (R452). -/
  rootOn : Bool := false
  /-- The digital die runs (R448). -/
  dieOn : Bool := false
  state : PState := .run
  /-- PWR_CFG, R457. -/
  evtRing : Nat := 0xFF
  entryTo : Nat := 0x32
  pmbAddr : Nat := 0x40
  wakenEn : Bool := false
  hostWakeEn : Bool := false
  alarmEn : Bool := false
  autoCommit : Bool := false
  alarm : Nat := 0
  /-- PWR_STAT, R457. -/
  blocker : Nat := 0xF
  cfgIgn : Bool := false
  pfw : Bool := false
  crank : Bool := false
  xtal32 : Bool := false
  vbat : Nat := 0
  /-- PWR_WAKE, R457. -/
  wakeReplayed : Bool := false
  wakeSrc : Nat := 0
  wakes : Nat := 0
  /-- PWR_DT, PWR_RT: the pair of R437. -/
  pairDt : Nat := 0
  pairRt : Nat := 0
  /-- PWR_VCORE, R457. -/
  vReq : Nat := 0
  vMeas : Nat := 0
  /-- DT_C and RT_C of the sleep commit point, R441. -/
  dtC : Nat := 0
  rtC : Nat := 0
  run : Option PowerRun := none
  vout : Option VoutReq := none
  /-- Pins, R447, R450, file 21. -/
  regWake : Bool := false
  wakeN : Bool := false
  /-- A wake is latched and its start not yet made (R446): source, RT, replayed. -/
  latched : Option (Nat × Nat × Bool) := none
  /-- RT at which REG_WAKE last rose; RT at which it rises (R448, R450); RT by which the 32.768 kHz crystal must oscillate
  (R436). -/
  regWakeRt : Nat := 0
  regRise : Option Nat := none
  xtalEnd : Nat := 32768
  /-- The switch input or bus of the latched wake. -/
  wakeDetail : Nat := 0
  /-- Failed tries of R450 since the wake. -/
  tries : Nat := 0
  /-- The 40 MHz crystal has failed, R436, R450; DT or RT of the last retry. -/
  xtal40Bad : Bool := false
  xtal40RetryRt : Nat := 0
  /-- The engine PLL runs, R436. -/
  enginePll : Bool := false
  /-- The next start of the digital die follows DEEP PARK or a power-on, or a wake, or a reset. -/
  retention : Bool := false
  /-- Fault state saved at tc, R442. -/
  saved : Option FaultSt := none
  /-- The fast clocks run, so DT counts (R437): false in park and before the first start. -/
  clocks : Bool := false
  /-- The supply of the root island was lost since the last start (R438). -/
  dtLost : Bool := true
  /-- The retention RAM was lost before this start (R151). -/
  posLost : Bool := false
  /-- DT of the digital die's reset release, for R16's 1 s. -/
  releaseDt : Nat := 0
  /-- DT of step 7 of R448, while it lies ahead; it is over. -/
  startDue : Option Nat := none
  ready : Bool := false
  /-- A STANDBY exit trigger has come that is not yet acted on, R433. -/
  exitTrigger : Bool := false
deriving DecidableEq, Repr

/-- A report held with its heartwood record (R462). -/
inductive Report where
  /-- An event: ring, code, target, detail bytes 8-15, detail bytes 24-31, time, TS_RT. -/
  | event (ring code target d1 d2 time : Nat) (tsRt : Bool)
  | vector (v : Nat)
  | completion (uid : Nat)
deriving DecidableEq, Repr

/-- A heartwood record that waits to be written (R460, R462): everything but SEQ and CRC. -/
structure Waiting where
  type : Nat
  tsRt : Bool := false
  injected : Bool := false
  session : Option Nat := none
  time : Nat
  commitSeq : Nat
  payload : List Byte
  reports : List Report := []
deriving DecidableEq, Repr

/-- Heartwood writer (R459 to R466). -/
structure HeartSt where
  /-- Records that wait, 256 at most; records that the blocks hold that make them (R462). -/
  queue : List Waiting := []
  heldBack : List Waiting := []
  /-- Newest SEQ, oldest SEQ held in MRAM; whether any record is held. -/
  newest : Nat := 0
  oldest : Nat := 0
  any : Bool := false
  /-- Records written in the device's life, saturating at the section's 1,024; next circular slot. -/
  firstUsed : Nat := 0
  circNext : Nat := 0
  /-- The record to be written next skips one SEQ after an unclean stop, R464. -/
  skip : Bool := false
  /-- Clean-stop marker, R464. -/
  marker : Option Nat := none
  /-- HW_STAT counters, R482. -/
  wrDenied : Nat := 0
  archMiss : Nat := 0
  /-- Next archive block, R466. -/
  archNext : Nat := 0
  /-- Conditions of R506 that readings show left, and that are marked (R21). -/
  condOut : List Nat := []
deriving DecidableEq, Repr

/-- Update state of R482. -/
inductive UpdState where
  | idle
  | armed
  | grafting
  | trial
  | fellBack
deriving DecidableEq, Repr

/-- One part (R474): its two copies, the active one, the installed version and interface, the
rollback floor (R472). -/
structure Part where
  copies : Vector Mem 2 := Vector.replicate 2 []
  active : Fin 2 := 0
  version : Nat := 0
  iface : Nat := 0
  reqMin : List Nat := []
  floor : Nat := 0
  prevVersion : Nat := 0
  prevIface : Nat := 0
  prevReqMin : List Nat := []
deriving DecidableEq, Repr

/-- Nursery and grafting (R468 to R482). -/
structure UpdSt where
  evtRing : Nat := 0xFF
  state : UpdState := .idle
  armedSlot : Nat := 0
  part : Nat := 0
  blocks : Nat := 0
  setId : Nat := 0
  lastSetId : Nat := 0
  key : Option (List Byte) := none
  parts : Vector Part 5 := Vector.replicate 5 {}
  /-- Progress record, R476: SET_ID, part, blocks. -/
  progress : Option (Nat × Nat × Nat) := none
  /-- The boot code grafts in this start (R472, R476). -/
  graftOn : Bool := false
  /-- Parts whose selectors this graft has flipped, R477. -/
  flipped : List Nat := []
  nurseryFail : Bool := false
  /-- Slots marked spent, R478. -/
  spent : List Nat := []
  trialStart : Nat := 0
deriving DecidableEq, Repr

/-- One programmable engine counter (R485 to R488). -/
structure Pmc where
  count : Nat := 0
  event : Nat := 0
  priv : Nat := 0
  sample : Bool := false
  cls : Nat := 0
  prog : Nat := 0xFF
  addrLo : Nat := 0
  addrHi : Nat := 0
  startVal : Nat := 0
deriving DecidableEq, Repr

/-- The counters of one engine (R483 to R488). -/
structure EngPerf where
  cycles : Nat := 0
  ret : Nat := 0
  waste : Nat := 0
  front : Nat := 0
  back : Nat := 0
  quiet : Nat := 0
  latched : Vector Nat 6 := Vector.replicate 6 0
  pmc : Vector Pmc 4 := Vector.replicate 4 {}
  samples : Nat := 0
  ovf : Nat := 0
deriving DecidableEq, Repr

/-- One fabric counter (R489). -/
structure Fab where
  count : Nat := 0
  latchedHi : Nat := 0
  event : Nat := 0
  ports : Nat := 0
  master : Nat := 0
  lo : Nat := 0
  hi : Nat := 0
deriving DecidableEq, Repr

/-- A sample recorded and not yet written (R487, R488). -/
structure Sample where
  engine : Nat
  counter : Nat
  task : Bool
  skid : Bool
  prog : Nat
  la : Nat
  repa : Bool
  pc : Nat
  cycles : Nat
  /-- PC is yet to be filled by the engine's next instruction to retire. -/
  wait : Bool := false
deriving DecidableEq, Repr

/-- Performance counters (file 20). -/
structure PerfSt where
  samples : List Sample := []
  engines : Vector EngPerf 16 := Vector.replicate 16 {}
  fabs : Vector Fab 4 := Vector.replicate 4 {}
  sampleRing : Nat := 0xFF
deriving DecidableEq, Repr

end Sys2Proof.Machine
end

