-- ==== Sys2Proof/Machine/Delivery.lean ====
section
/-! DEFINITION. Oniskent's delivery set as the MRAM holds it (R63): every channel, segment, program, coil and token disabled;
the blocks hold the defaults of their chapters, the entries zeros but for the segments (log entry 26, DESIGN CHOICE). -/

namespace Sys2Proof.Machine

/-- The listed bytes of a run of bytes from address `a`: those that are not 0. -/
def cells : Nat → List Byte → Mem
  | _, [] => []
  | a, b :: bs => if b == 0 then cells (a + 1) bs else (a, b) :: cells (a + 1) bs

/-- A table of the delivery set: header (R60) with ID, length and CRC-32, then its content as runs of bytes. -/
def delivered (id len crc : Nat) (runs : List (Nat × List Byte)) : Mem :=
  cells 0 (leBytes 2 id ++ leBytes 2 1 ++ leBytes 4 len ++ leBytes 4 crc) ++ (runs.map fun r => cells r.1 r.2).flatten

/-- Segment entry `b`: WAKE_EN, T_QUIET_MS, MAX_AWAKE_S (R308). -/
def deliveredSeg (b : Nat) : Nat × List Byte := (32 + 64 * b, [1, 0] ++ leBytes 2 (if b < 8 then 1000 else 100) ++ leBytes 2 1800)

/-- Tables 0x01 to 0x10. -/
def deliveryTables : Vector Mem 16 := #v[
  delivered 1 32 0x511C5E46 [(16, [2, 0] ++ leBytes 2 300)],
  delivered 2 2064 0xF1E8BA9E [],
  delivered 3 16 0x00000000 [],
  delivered 4 2064 0xF1E8BA9E [],
  delivered 5 656 0x4B7716DA [],
  delivered 6 832 0x97EED479 [(16, leBytes 2 48000 ++ [47, 0] ++ leBytes 2 100 ++ [90, 0xFF])],
  delivered 7 1168 0xA15C5830 [],
  delivered 8 544 0xEF7D58E8 [(16, leBytes 2 100 ++ [0xFF])],
  delivered 9 288 0x7DAF93DF [(272, [0xFF])],
  delivered 10 48 0x190A55AD [],
  delivered 11 2592 0x80DA2B50 [],
  delivered 12 32 0x0BF0A677 [(16, List.replicate 8 8 ++ [0xFF])],
  delivered 13 1056 0x34775A9E ((16, leBytes 2 5000 ++ [0xFF, 0] ++ leBytes 2 150) :: (List.range 16).map deliveredSeg),
  delivered 14 320 0x3A3EBC70 [(16, [2, 0, 0xFF, 4, 0, 0, 0, 0, 15])],
  delivered 15 4128 0x9DCFECAB [(24, [4, 0xFF])],
  delivered 16 192 0x4857037E [(16, [0xFF]), (32, List.replicate 109 0x80), (144, List.replicate 36 0x80 ++ [0x82])]]

/-- The delivery set, with sequence number 0. -/
def deliverySet : StoredSet := { tables := deliveryTables }

end Sys2Proof.Machine
end

