-- ==== Sys2Proof/Machine/Types/Access.lean ====
section
/-! DEFINITION. The plain data of access and immobiliser (file 13). Reset values stand as field defaults. -/

namespace Sys2Proof.Machine

/-- Where a search or token command stands in the air protocol (R319 to R324): what it sends next, or what it waits
for. `slots`: the slot awaited and its start. -/
inductive AirPhase where
  | fieldDue
  | wupDue
  | slots (k start : Nat)
  | process
  | c1
  | authBDue
  | ack
  | cmdDue
  | data
deriving DecidableEq, Repr

/-- What asked for the field. -/
inductive AirKind where
  | search
  | release
  | read
  | write
deriving DecidableEq, Repr

/-- A search or token command in progress. -/
structure AirOp where
  kind : AirKind
  uid : Nat
  /-- Table 0x0E as it stood when the operation started (R75). -/
  cfg : Mem := []
  /-- Coils still to visit, the present one first. -/
  coils : List Nat
  coil : Nat := 0
  phase : AirPhase := .fieldDue
  /-- DT from which the next SOF may start (R318); nominal DT of the awaited answer's first edge, and its end. -/
  ready : Nat := 0
  nominal : Nat := 0
  ends : Nat := 0
  round : Nat := 0
  seed : Nat := 0
  garbled : Bool := false
  /-- Clean serials of the round not yet processed, each with whether it answered out of time (R322). -/
  heads : List (Nat × Bool) := []
  serial : Nat := 0
  /-- The head of `heads` is to be halted without an exchange. -/
  haltDue : Bool := false
  rndD : Nat := 0
  rndT : Nat := 0
  ks : Nat := 0
  n : Nat := 0
  block : Nat := 0
  value : Nat := 0
  clean : Nat := 0
  failed : Nat := 0
  worked : Bool := false
  lastSrc : Nat := 0
deriving DecidableEq, Repr

/-- A release that holds (R327, R328): its basis and the DT of its next frame. -/
structure Rel where
  basis : Nat
  next : Nat
deriving DecidableEq, Repr

/-- AS as a whole (R314 to R337). -/
structure AccSt where
  op : Option AirOp := none
  /-- The coil with the field, and the last downlink frame sent. -/
  field : Option Nat := none
  sent : List Byte := []
  lfDiag : Vector Nat 4 := Vector.replicate 4 0
  lfPeak : Vector Nat 4 := Vector.replicate 4 0
  rel : Option Rel := none
  /-- Blocked frames still to come after a release, with their grid and basis; RELEASE_END's descriptor. -/
  blocked : Nat := 0
  blockNext : Nat := 0
  blockBasis : Nat := 0
  endUid : Option Nat := none
  /-- N_R of the next frame; of the last frame; of the last released one; the value stored in MRAM (R329). -/
  nr : Nat := 0
  lastN : Nat := 0
  lastRel : Nat := 0
  stored : Nat := 0
  cntBad : Bool := false
  /-- A release frame stands unsent; MISSED; misses in a row. -/
  unsent : Bool := false
  missed : Nat := 0
  missRun : Nat := 0
  /-- Release session in retention RAM: RT of its opening and length in minutes (R330). -/
  session : Option (Nat × Nat) := none
  /-- A session that the loss of the root island supply has ended is still to be reported (R336). -/
  sesLost : Bool := false
deriving DecidableEq, Repr

end Sys2Proof.Machine
end

