-- ==== Sys2Proof/Machine/Types/Switch.lean ====
section
/-! DEFINITION. The plain data of the switch inputs (file 08). Reset values stand as field defaults. -/

namespace Sys2Proof.Machine

/-- A debounce or filter (R201, R222, R224): the sampled level (0 inactive, 1 active; of a ladder its band), the DT of the
first sample at it, none before a sample, and of the latest one; the changes that restarted the running time. -/
structure Deb where
  raw : Nat := 0
  since : Option Nat := none
  last : Nat := 0
  count : Nat := 0
deriving DecidableEq, Repr

/-- One switch input (R201 to R206, R215). -/
structure Swi where
  level : Bool := false
  band : Nat := 0xF
  valid : Bool := false
  deb : Deb := {}
  code : Nat := 0
  /-- DT of the last change, and of that to active; BOUNCES. -/
  lastDt : Nat := 0
  actDt : Nat := 0
  bounces : Nat := 0
  /-- STUCK; LADDER_INVALID has been raised for the present band 0xF. -/
  stuck : Bool := false
  badBand : Bool := false
  /-- DT of the sample since which the sampled band is 0xF (R204). -/
  badFrom : Option Nat := none
  /-- The next report carries INITIAL (R203, R211). -/
  initial : Bool := true
  /-- Level and band held at the entry to park (R206); RT of the first differing poll of the waking input (R208). -/
  parkLevel : Option (Bool × Nat) := none
  wakeRt : Option Nat := none
  /-- Cleaning pulse: its start and end, SWI_CLEAN's descriptor; a closing that waits for a pulse (R199). -/
  clean : Option (Nat × Nat) := none
  cleanUid : Option Nat := none
  cleanWait : Bool := false
deriving DecidableEq, Repr

/-- What a poll compares an input with (R200): POL, THR, HYST. -/
structure Cmp where
  pol : Bool
  thr : Nat
  hyst : Nat
deriving DecidableEq, Repr

/-- A poll group as the root island armed it (R207, R208): inputs, their comparators and reference levels, period, settle
time and confirmations, DEEP, the RT of arming and of the last poll since, and each input that differed in the last polls: how many in a row and the RT of the first. -/
structure Poll where
  mask : Nat
  cmp : Vector Cmp 48
  refs : Nat
  period : Nat
  settle : Nat
  confirm : Nat
  deep : Bool
  armRt : Nat
  lastRt : Option Nat := none
  seen : List (Nat × Nat × Nat) := []
deriving DecidableEq, Repr

/-- IS as a whole. -/
structure SwSt where
  inputs : Vector Swi 48 := Vector.replicate 48 {}
  frozen : Bool := false
  thermCap : Bool := false
  /-- Groups armed at the last entry, and POLL_STAT. -/
  polls : Vector (Option Poll) 8 := Vector.replicate 8 none
  armed : Nat := 0
  wakeIn : Nat := 0x3F
  wakeGrp : Nat := 0
deriving DecidableEq, Repr

end Sys2Proof.Machine
end

