-- ==== Sys2Proof/Machine/Types/Bridge.lean ====
section
/-! DEFINITION. The plain data of half-bridges and bridges (file 06). Reset values stand as field defaults. -/

namespace Sys2Proof.Machine

/-- A bridge entry of table 0x05 (R161), as an operation keeps it to its end (R75). -/
structure BrCfg where
  legA : Nat
  legB : Nat
  kind : Nat
  ripple : Bool
  pinch : Bool
  brakeHigh : Bool
  freq : Nat
  iStall : Nat
  tStall : Nat
  posMax : Nat
  pinchFrom : Nat
  pinchTo : Nat
  pinchDi : Nat
  reverseRip : Nat
  swiPark : Nat
  parkBrakeMs : Nat
  pulseMs : Nat
  safeDuty : Nat
  evtRing : Nat
deriving DecidableEq, Repr

/-- What follows a timed brake (R146, R152, R155 to R157): `park` and `interval` end a wipe. -/
inductive AfterBrake where
  | drive (dir : Nat)
  | reverse
  | coast
  | park
  | interval
deriving DecidableEq, Repr

/-- A WIPER_SET to mode 2 that waits for the next park (R156): INTERVAL_MS, DUTY, its descriptor. -/
structure WiperNext where
  interval : Nat
  duty : Nat
  uid : Nat
deriving DecidableEq, Repr

/-- A bridge operation (R163 to R165): OP of HB_STAT, its descriptor while one waits for its end, direction, duty,
NORM, OVERRIDE, the target of a move, the length of a pulse in ms, the end of a timeout or pulse, ripples left of a
reversal, the pinch position, how it will end, and a wiper's mode, the command that waits for the park, interval, wipes
and the DT of the last park. -/
structure BrOp where
  kind : Nat
  uid : Option Nat
  cfg : BrCfg
  dir : Nat := 0
  duty : Nat := 0
  norm : Bool := false
  override : Bool := false
  target : Nat := 0
  len : Nat := 0
  endDt : Option Nat := none
  revLeft : Nat := 0
  pinchPos : Nat := 0xFFFF
  status : Nat := 0
  reason : Nat := 0
  src : Nat := 0xFFFF
  wmode : Nat := 0
  wnext : Option WiperNext := none
  interval : Nat := 0
  wipes : Nat := 0
  parkDt : Nat := 0
deriving DecidableEq, Repr

/-- One half-bridge; the fields of operation, direction and position are those of the bridge whose LEG_A it is. -/
structure Hb where
  /-- A single half-bridge: requested mode and duty, those at the entry of a safe state, the mode applied. -/
  mode : Nat := 0
  duty : Nat := 0
  holdMode : Nat := 0
  holdDuty : Nat := 0
  run : Nat := 0
  base : Nat := 0
  safeAct : Bool := false
  /-- The bridge: its operation, state (0 coast, 1 forward, 2 reverse, 3 brake), timed brake. -/
  op : Option BrOp := none
  state : Nat := 0
  brake : Option (Nat × AfterBrake) := none
  /-- Direction last driven; DT at which the present drive, or single PWM, started; DT since which it coasts; DT at which
  the present brake started, and whether a brake of 20 ms has passed since the last drive (R146). -/
  lastDir : Nat := 0
  driveDt : Nat := 0
  coastDt : Option Nat := none
  brakeFrom : Option Nat := none
  braked : Bool := false
  /-- A bridge's duty now; DT of the period start at which the new duty applies, with a single half-bridge's HB_SET that
  completes there (R146); since when the duty is 0x400 or more (R152). -/
  duty1 : Nat := 0
  due : Option Nat := none
  setUid : Option Nat := none
  fullFrom : Option Nat := none
  /-- A wiper's filtered park input, and its filter of 2 ms; DT from which the 5 s to the next park count (R156). -/
  parkIn : Bool := false
  park : Deb := {}
  lookFrom : Option Nat := none
  /-- Position in ripples, validity, and the copy in retention RAM (R151). -/
  pos : Nat := 0
  posValid : Bool := false
  mirror : Nat × Bool := (0, false)
  /-- DT of the last ripple, its period in µs; DT from which counting after the drive runs (R150). -/
  ripDt : Nat := 0
  period : Nat := 0
  countFrom : Option Nat := none
  /-- Pinch detection (R153, R154): 150 ms have passed; ripples since then as current in mA and bank supply in mV, newest
  first; ripples above the threshold in a row; REF in 10 mA steps. -/
  pinchTime : Bool := false
  hist : List (Nat × Nat) := []
  beyond : Nat := 0
  ref : Nat := 0
  /-- Protection (R147 to R149): HELD with the partner leg, LAST, DT of the last short-circuit trip, peak timer in
  1/4 ms, the die sensor that holds it (R505), current limit reached. -/
  held : Option Nat := none
  last : Nat := 0
  lastSc : Option Nat := none
  peakT : Nat := 0
  dieHot : Option Nat := none
  scLim : Bool := false
  /-- HB_CUR in 10 mA steps, HB_TEMP. -/
  i : Int := 0
  peak : Nat := 0
  tSw : Int := 0
  tSwMax : Int := -32768
  /-- Since when the current exceeds I_STALL, and since when it lies below 100 mA. -/
  stallFrom : Option Nat := none
  olFrom : Option Nat := none
  /-- HB_DIAG. -/
  onRes : Nat := 0
  offRes : Nat := 0
  offDiagDt : Nat := 0
deriving DecidableEq, Repr

end Sys2Proof.Machine
end

