-- ==== Sys2Proof/Machine/Types/Engine.lean ====
section
/-! DEFINITION. The plain data of the sixteen engines, their pairs and the package store (files 14 and 15). Reset
values stand as field defaults. -/

namespace Sys2Proof.Machine

/-- A protection region (R344, R345); the low six bits of base read 0 and those of the last byte read 1. -/
structure Region where
  base : Word := 0
  lim : Word := 0x3F
  attr : Word := 0
deriving DecidableEq, Repr

/-- A loop level's body (R358): its first instruction and its END instruction. -/
structure LoopBody where
  start : Word := 0
  last : Word := 0
deriving DecidableEq, Repr

/-- A REP in progress (R360): the level it borrows, NI, and, until its first iteration has completed, the LC it found. -/
structure RepRun where
  level : Fin 3
  ni : Bool
  found : Option Word
deriving DecidableEq, Repr

/-- A record in an inbound queue (R362): the program it is for (none for the runtime), whether it took an event place,
the record. -/
structure InRec where
  prog : Option Nat
  event : Bool
  record : Record
deriving DecidableEq, Repr

/-- A handler that runs (R363): its program, the engine cycles it has taken, MAX_CYCLES. -/
structure Handler where
  prog : Nat
  cycles : Nat := 0
  max : Nat
deriving DecidableEq, Repr

/-- One engine (R338 to R363). -/
structure Eng where
  /-- Register codes 0x0 to 0xF (R342); 0x3 and 0xF are not held here. -/
  regs : Vector Word 16 := Vector.replicate 16 0
  /-- The two banks of SP: task and supervisor. The supervisor's begins at the top of the 16 KiB that the runtime keeps
  (R365, log entry 27, DESIGN CHOICE). -/
  tsp : Word := 0
  ssp : Word := 0x20004000
  pc : Word := 0
  sw : Word := 0
  loops : Vector LoopBody 3 := Vector.replicate 3 {}
  /-- Special registers (R344). -/
  stkT : Word := 0
  stkS : Word := 0
  tvec : Word := 0
  tcause : Word := 0
  taddr : Word := 0
  ivec : Word := 0
  dtHi : Word := 0
  evtDrop : Nat := 0
  mpu : Vector Region 8 := Vector.replicate 8 {}
  /-- Local data RAM, offsets from 0 (R338). -/
  ram : Mem := []
  /-- Inbound queue, oldest first; an event has been dropped since it was last empty (R362). -/
  inbox : List InRec := []
  dropSeen : Bool := false
  /-- Halted by R347, waiting by WAIT. -/
  halted : Bool := false
  waiting : Bool := false
  /-- An interrupt entry waits for its reads of the interrupt table through the window (R346, R391). -/
  entering : Bool := false
  rep : Option RepRun := none
  handler : Option Handler := none
  /-- Register that the load just before wrote (R341); class and address of that load (R485). -/
  loaded : Option (Fin 16) := none
  loadedAt : Nat × Nat := (0, 0)
  /-- Retired-instruction count (R369, R372). -/
  retired : Nat := 0
deriving DecidableEq, Repr

/-- A store in an engine's write buffer (R340): address, bytes, value, wait at the port. -/
structure BufStore where
  addr : Nat
  size : Nat
  value : Nat
  wait : Nat
deriving DecidableEq, Repr

/-- An occurrence an engine's counters may count (R485): event code, how often, task mode, the running program (0xFF
supervisor code), for an access its class bit and address, and what a sample of it would name (R488). -/
structure Occur where
  event : Nat
  n : Nat
  task : Bool
  prog : Nat
  cls : Nat := 0
  addr : Nat := 0
  pc : Nat
  la : Nat
  repa : Bool
  skid : Bool := false
  wait : Bool := false
deriving DecidableEq, Repr

/-- Cycle slots of R483. -/
inductive Slot where
  | retired
  | wasted
  | front
  | back
  | quiet
deriving DecidableEq, Repr

/-- Equal cycles of an engine (R483, R485): their slot, how many, the moment as the cycle events see it, and what else occurs
in each of them. -/
structure Cycles where
  slot : Slot
  n : Nat
  o : Occur
  evs : List Occur := []
deriving DecidableEq, Repr

/-- What the main engine of a coupled pair has executed and its shadow has not yet (R368 to R371): cycles, how the shadow's
counters see them, the items (lane, value) in order, how many of them the compare buffer holds, the sampled inputs, and the
engine that it leaves. -/
structure TrailEntry where
  cycles : Nat
  charge : List Cycles
  items : List (Nat × Nat) := []
  held : Nat := 0
  samples : List Nat := []
  after : Eng
deriving DecidableEq, Repr

/-- An item of the main engine that waits in the compare buffer (R371): a store with its wait at the port; a SEND. -/
inductive HeldItem where
  | store (addr size value wait : Nat)
  | send (d : Desc)
deriving DecidableEq, Repr

/-- A hand-over that runs (R375, R377): its descriptor (none: a commit's), its direction, the DT of acceptance and of
the last step. -/
structure HandOver where
  uid : Option Nat
  toSplit : Bool
  t0 : Nat
  stepDt : Nat
deriving DecidableEq, Repr

/-- Steps of a hand-over as HANDOVER of PAIR_STAT shows them (R383); `ending`: split or coupled again, not yet reported. -/
inductive HoPhase where
  | none
  | holding
  | checkpoint
  | moving
  | copying
  | testing
  | ending
deriving DecidableEq, Repr

/-- One pair (R366 to R383). -/
structure PairSt where
  split : Bool := false
  phase : HoPhase := .none
  run : Option HandOver := none
  mergeBlk : Bool := false
  /-- The self-test of a function reset has failed (R422). -/
  testBad : Bool := false
  halted : Bool := false
  /-- PAIR_CKPT, PAIR_STALL, PAIR_MM_PC, PAIR_MM_INFO. -/
  ckpt : Nat := 0
  stall : Nat := 0
  mmPc : Nat := 0
  mmLane : Nat := 0
  mmBit : Nat := 0
  /-- Compare buffer, oldest first. -/
  held : List HeldItem := []
  /-- Delay coupling (R368): the lag in cycles, what the shadow has still to execute, oldest first, the cycles since the last
  of it; the items compared on each lane (R370). -/
  lag : Nat := 0
  trail : List TrailEntry := []
  past : Nat := 0
  compared : Vector Nat 4 := Vector.replicate 4 0
deriving DecidableEq, Repr

/-- A package slot (R380, R381): its bytes and how far it has been written. -/
structure Slot256 where
  bytes : Mem := []
  len : Nat := 0
deriving DecidableEq, Repr

end Sys2Proof.Machine
end

