-- ==== Sys2Proof/Machine/Types/Field.lean ====
section
/-! DEFINITION. The plain data of the field die (file 09). Reset values stand as field defaults. -/

namespace Sys2Proof.Machine

/-- One field channel (R222 to R230, R238). -/
structure Fio where
  /-- Input: debounced level, VALID, next report carries INITIAL, DT of the last change, BOUNCES, wire break. -/
  level : Bool := false
  valid : Bool := false
  initial : Bool := true
  lastDt : Nat := 0
  bounces : Nat := 0
  wire : Bool := false
  /-- Its debounce or filter (R222, R224). -/
  deb : Deb := {}
  /-- I and PEAK of FIO_CUR. -/
  i : Nat := 0
  peak : Nat := 0
  /-- Output: requested mode, state, DT of the last switching, readback. -/
  mode : Bool := false
  on : Bool := false
  swDt : Nat := 0
  readback : Bool := false
  /-- Protection (R227): DT of the trip while held, latch, restart count, DT of the last turn-off; diagnosis (R228). -/
  held : Option Nat := none
  latched : Bool := false
  count : Nat := 0
  lastProt : Nat := 0
  diag : Nat := 0
  /-- A safe state is applied; the state at its entry (R232); the collector's order has reached the field die; the safe
  state is that of R229. -/
  safeAct : Bool := false
  holdOn : Bool := false
  told : Bool := false
  silent : Bool := false
deriving DecidableEq, Repr

/-- A time-stamped change in the field die's queue (R225). -/
structure Edge where
  ch : Nat
  level : Bool
  initial : Bool
  stamp : Nat
  bounces : Nat
  i : Nat
deriving DecidableEq, Repr

/-- The field die. -/
structure FsSt where
  fio : Vector Fio 32 := Vector.replicate 32 {}
  /-- Its copy of table 0x08, from a commit tick on, and of its SAFE bytes (R229, R231). -/
  cfg : Mem := []
  safe : Option (List Nat) := none
  /-- In SAFE until the next commit tick (R16, R231); outputs off for park entry. -/
  fresh : Bool := true
  parked : Bool := false
  /-- Woken from park: outputs stay off until a commit (R231). -/
  stayOff : Bool := false
  /-- Its logic is powered, by the barrier or by the backup (R218). -/
  powered : Bool := false
  backup : Bool := false
  /-- Supply condition (R219): 0 normal, 1 low, 2 high; FL_PLUS in mV; V_MIN. -/
  supply : Nat := 0
  v : Nat := 0
  vMin : Nat := 0xFFFF
  /-- Edge queue, drops since the last FIO_EDGE_DROP, EDGE_DROP, DT of the last delivery. -/
  queue : List Edge := []
  drops : Nat := 0
  edgeDrop : Nat := 0
  lastDelivery : Option Nat := none
  /-- A drop has been raised since the queue was last empty (R225). -/
  overTold : Bool := false
  /-- A silence is not yet reported; longest frame gap since the last FS_QUERY, µs (R230, R236). -/
  unreported : Bool := false
  gapMax : Nat := 0
deriving DecidableEq, Repr

end Sys2Proof.Machine
end

