-- ==== Sys2Proof/Machine/Types/Load.lean ====
section
/-! DEFINITION. The plain data of the load slices: channels, banks, wire models, heat budget and heat persistence
(files 04 and 05). Reset values stand as field defaults. -/

namespace Sys2Proof.Machine

/-- The wire entry that a channel's model uses: the last one that passed check 5, or that of R117 for a channel that
never had one (R116, R117). -/
structure Wire where
  size : Nat := 7
  bf : Nat := 128
  ambSrc : Nat := 0
  ambMax : Int := 85
  ins : Nat := 0
  warnK : Nat := 10
  restartK : Nat := 20
  /-- An entry of the channel has passed check 5. -/
  known : Bool := false
deriving DecidableEq, Repr

/-- A state asked of a channel that is on, which waits for a period start (R97): its mode, its duty, the DT at which it
arrived, and the LCH_SET that completes when it takes effect. -/
structure NextReq where
  mode : Nat
  duty : Nat
  atDt : Nat
  uid : Option Nat
deriving DecidableEq, Repr

/-- An LCH_TIMED that runs (R111, R112): its descriptor, the DT of its end once its state has taken effect, its on time
in ms, its RESULT. -/
structure TimedRun where
  uid : Nat
  endDt : Option Nat
  onMs : Nat
  result : Nat
deriving DecidableEq, Repr

/-- A pre-heat ramp (R103) with what it keeps to its end (R75): DT of its start, length in ms, start duty, behaviour level. -/
structure Ramp where
  start : Nat
  len : Nat
  d0 : Nat
  lvl : Nat
deriving DecidableEq, Repr

/-- One load channel. -/
structure Lch where
  /-- LCH_REQ: requested mode and duty, LCH_TIMED (R111, R115). -/
  mode : Nat := 0
  duty : Nat := 0
  timed : Option TimedRun := none
  /-- Mode applied (0 OFF, 1 ON, 2 PWM) and the requested duty it works from (R95, R97). -/
  run : Nat := 0
  base : Nat := 0
  /-- States that wait for a period start, oldest first (R97). -/
  waits : List NextReq := []
  /-- Mode and duty at the entry of a safe state (R108); LCH_STAT.SAFE_ACT. -/
  holdMode : Nat := 0
  holdDuty : Nat := 0
  safeAct : Bool := false
  /-- DT of the last turn-on and turn-off (R98, R103, R136). -/
  onDt : Option Nat := none
  offDt : Option Nat := none
  /-- DT at which the present period started; LCH_EFF: duty in it; D_CP; the budget's cap (R97, R100, R106). -/
  pStart : Nat := 0
  dEff : Nat := 0
  dcp : Nat := 0
  cap : Nat := 0xFFF
  /-- V_S in use in mV; a level-1 LED channel leaves out this period's recomputation (R100). -/
  vs : Nat := 0
  skip : Bool := false
  /-- The pre-heat ramp that runs (R103). -/
  pre : Option Ramp := none
  /-- DT of the inrush time's end; the envelope in mA, 0 none (R129). -/
  inrush : Option Nat := none
  env : Nat := 0
  /-- LCH_STAT bits CP_SAT, LIMITED, SC_LIM. -/
  cpSat : Bool := false
  limited : Bool := false
  scLim : Bool := false
  /-- Leaf step, from 1 (R88); since when the current is below the step beneath. -/
  step : Nat := 1
  lowSince : Option Nat := none
  /-- LCH_CUR, 10 mA steps. -/
  i : Nat := 0
  peak : Nat := 0
  /-- On-state current last measured, in mA, by which R106 estimates a channel's loss. -/
  iOn : Nat := 0
  /-- It was measured on the present leaves since the turn-on (R88). -/
  iKnown : Bool := false
  /-- Gang imbalance since, and already raised (R94). -/
  imbSince : Option Nat := none
  imbRaised : Bool := false
  /-- LCH_POWER; loss gathered since the last allocation in nW times updates, and the updates (R106). -/
  grant : Nat := 0
  pSw : Nat := 0
  lossSum : Nat := 0
  lossN : Nat := 0
  /-- LCH_PROT: COUNT, HELD, LATCHED, LAST, WARN; PROT_CLEAR has cancelled the restart (R132 to R134). -/
  count : Nat := 0
  held : Bool := false
  latched : Bool := false
  cleared : Bool := false
  last : Nat := 0
  warn : Bool := false
  /-- DT of the last short-circuit trip and of the last protective turn-off (R133). -/
  lastSc : Option Nat := none
  lastProt : Nat := 0
  /-- Bank whose die sensor turned the channel off and has not yet read 140 °C or less (R505). -/
  dieHot : Option Nat := none
  /-- The wire model: rises in 2^-32 K, T_AMB and T_C in 2^-32 °C, mean square current in mA², highest power in
  1e-11 W/m since the last snapshot, the entry it uses (R119, R123). -/
  theta1 : Nat := 0
  theta2 : Nat := 0
  tAmb : Int := 0
  tC : Int := 0
  q : Nat := 0
  pMax : Nat := 0
  wire : Wire := {}
  /-- The rises are to be set from the ambient at the next update (last row of R125). -/
  hot : Bool := false
  /-- LCH_DIAG, and since when the current is below I_OL_ON, DT of the last off-state diagnosis (R135 to R137). -/
  rOff : Nat := 0
  onRes : Nat := 0
  offRes : Nat := 0
  olSince : Option Nat := none
  offDiagDt : Nat := 0
  /-- LCH_TEMP, signed 1/16 °C. -/
  tSw : Int := 0
  tSwMax : Int := -32768
deriving DecidableEq, Repr

/-- One bank: BANK_VSUP and BANK_STAT, the supply sense as last read, the freeze of R101 and R130, the die sensor. -/
structure Bank where
  v : Nat := 0
  vMin : Nat := 0xFFFF
  vNow : Nat := 0
  senseBad : Bool := false
  frozen : Bool := false
  /-- DT at which the last channel left limitation, and at which the freeze ended. -/
  freezeFrom : Nat := 0
  freezeEnd : Nat := 0
  dieT : Int := 0
deriving DecidableEq, Repr

/-- A host ambient group (R120): its value in 1/16 °C, when it was set, whether it is stale. -/
structure Amb where
  value : Option Int := none
  setDt : Nat := 0
  stale : Bool := false
deriving DecidableEq, Repr

/-- One channel's mirror in retention RAM (R123). -/
structure Mirror where
  theta1 : Nat
  theta2 : Nat
  rt : Nat
deriving DecidableEq, Repr

/-- A snapshot copy in MRAM (R123, R126). -/
structure Snap where
  seq : Nat
  exact : Bool
  dt : Nat
  rt : Nat
  rises : Vector (Nat × Nat) 64
deriving DecidableEq, Repr

/-- The load slices as a whole. -/
structure LoadSt where
  chs : Vector Lch 64 := Vector.replicate 64 {}
  banks : Vector Bank 8 := Vector.replicate 8 {}
  amb : Vector Amb 4 := Vector.replicate 4 {}
  mirror : Vector (Option Mirror) 64 := Vector.replicate 64 none
  snaps : Vector (Option Snap) 2 := Vector.replicate 2 none
  /-- DT of the last update, snapshot and allocation. -/
  updDt : Nat := 0
  snapDt : Nat := 0
  budDt : Nat := 0
  /-- HEAT_STAT and HEAT_PEAK, 10 mW steps. -/
  pNonman : Nat := 0
  pGrant : Nat := 0
  pPeak : Nat := 0
  /-- Commit tick of the PWM grid (R97). -/
  grid : Nat := 0
  /-- Dies whose outputs a row of R503 holds off, and load dies whose logic is reset. -/
  supplyOff : List Die := []
  logicReset : List Die := []
  /-- Row of R125 used at the last start. -/
  heatRow : Nat := 0
deriving DecidableEq, Repr

end Sys2Proof.Machine
end

