-- ==== Sys2Proof/Machine/Types/Net.lean ====
section
/-! DEFINITION. The plain data of CAN controllers, LIN commanders, the gateway and the segments (files 10 to 12). Reset
values stand as field defaults. -/

namespace Sys2Proof.Machine

/-- What a transmit buffer serves: a CAN_TX with its number and TAG, a gateway route, a segment's announcement (R301),
the answer to the tester (R84), the release frame (R328). -/
inductive TxSrc where
  | desc (uid tag : Nat)
  | route (r : Nat)
  | announce
  | diag
  | release
deriving DecidableEq, Repr

/-- A cancel or timeout registered on a transmit (R255 to R258): at or before the boundary of the running attempt. -/
structure TxStop where
  before : Bool
  timeout : Bool
deriving DecidableEq, Repr

/-- One transmit buffer (R252): `valid` and `maxAge` for a gateway frame (R280), `last` the outcome of R254. -/
structure TxBuf where
  src : TxSrc
  frame : CanFrame
  single : Bool := false
  deadline : Option Nat := none
  valid : Nat := 0
  maxAge : Nat := 0
  order : Nat
  attempts : Nat := 0
  last : Nat := 0
  stop : Option TxStop := none
  cancels : List Nat := []
deriving DecidableEq, Repr

/-- An attempt on the bus: its buffer's order number, the DT of its SOF and of its boundary (R255). -/
structure Attempt where
  order : Nat
  sof : Nat
  boundary : Nat
deriving DecidableEq, Repr

/-- A frame in the hold buffer (R249). -/
structure HeldFrame where
  queue : Nat
  ring : Nat
  frame : CanFrame
  sof : Nat
  pair : Nat
  own : Bool
deriving DecidableEq, Repr

/-- A slot of R263; `told`: CAN_SAME_ID has been written in the present run. -/
structure Sid where
  ident : Nat
  ide : Bool
  run : Nat
  total : Nat
  last : Nat
  told : Bool := false
deriving DecidableEq, Repr

/-- Counts of one queue (R250); `seen`: a frame has been accepted since the last drop (R249). -/
structure Queue where
  matched : Nat := 0
  accepted : Nat := 0
  dropped : Nat := 0
  seen : Bool := false
deriving DecidableEq, Repr

/-- One CAN controller. -/
structure Can where
  tec : Nat := 0
  errs : Nat := 0
  st : Nat := 0
  recovering : Bool := false
  recovSeq : Nat := 0
  busoffDt : Nat := 0
  lec : Nat := 0
  /-- Waits for 11 recessive bits (R262, R264, R292); frames whose SOF lies before the DT it holds are still received: the
commit tick of R262, else 0 for none. -/
  integ : Option Nat := none
  tdcBad : Bool := false
  meas : Nat := 0x7F
  ssp : Nat := 0
  bufs : List TxBuf := []
  attempt : Option Attempt := none
  hold : List HeldFrame := []
  q : Vector Queue 2 := Vector.replicate 2 {}
  noMatch : Nat := 0
  sids : List Sid := []
deriving DecidableEq, Repr

/-- State of a segment (R290). -/
inductive SegSt where
  | awake
  | drain
  | quiet
  | asleep
  | waking
deriving DecidableEq, Repr

/-- Wake detection as the root island holds it from the sleep commit point on (R297, R304). -/
structure Arm where
  deep : Bool
  sw : Bool
  ide : Bool := false
  ident : Nat := 0
  mask : Nat := 0
  dlc : Nat := 0
  data : Nat := 0
deriving DecidableEq, Repr

/-- A wake latched in park (R305): RT, cause, replayed, WUF identifier word and data. -/
structure SegLatch where
  rt : Nat
  cause : Nat
  replayed : Bool
  word : Nat
  data : Nat
deriving DecidableEq, Repr

/-- One segment (files 12). -/
structure Seg where
  en : Bool := false
  st : SegSt := .asleep
  /-- Transceiver: 0 normal, 1 listen-only, 2 standby, 3 sleep. -/
  xcvr : Nat := 3
  released : Bool := false
  isoHost : Bool := false
  isoAuto : Bool := false
  changeDt : Nat := 0
  quietSince : Nat := 0
  awakeSince : Option Nat := none
  /-- Seconds at which the awake timer has stopped: the segment is ASLEEP by isolation and still released (R306). -/
  awakeKept : Nat := 0
  /-- Selective-wake decoder: it runs, its error count, DT and RT of the pattern that started it (R295). -/
  swk : Bool := false
  swkErr : Nat := 0
  swkDt : Nat := 0
  swkRt : Nat := 0
  /-- DT and RT of the last dominant bits that the decoder is known to have seen. -/
  actDt : Nat := 0
  actRt : Nat := 0
  wakes : Nat := 0
  /-- NET_KEEPER: identifier with IDE in bit 29. -/
  keeper : Option Nat := none
  /-- NET_SLEEP's descriptor and the DT of its acceptance; NET_WAKE's, each with the state before. -/
  sleep : Option (Nat × Nat) := none
  /-- T_QUIET_MS and T_AGREE_MS as the NET_SLEEP in progress took them, LIN_WAKE_MS as the wake in progress did (R75). -/
  tQuiet : Nat := 0
  tAgree : Nat := 0
  linWake : Option Nat := none
  wakeUids : List (Nat × Nat) := []
  /-- The announcement: DT from which it is ready; SOF once sent. -/
  annSince : Option Nat := none
  annSent : Option Nat := none
  /-- A dominant level of 100 ms was seen while not AWAKE (R296). -/
  domLate : Bool := false
  arm : Option Arm := none
  latch : Option SegLatch := none
  /-- NET_LATCH. -/
  latchBit : Bool := false
  replayBit : Bool := false
deriving DecidableEq, Repr

/-- A write into a publish buffer: DT of its arrival, offset, bytes, the route that makes it (R274); `old`: a later write of
the route has replaced it (R281). -/
structure PubWrite where
  dt : Nat
  off : Nat
  bytes : List Byte
  route : Option Nat := none
  old : Bool := false
deriving DecidableEq, Repr

/-- A publish buffer (R274): bytes, updated mark, the writes since the last latch, of which the next takes those that are 10 µs
old; the subscribed frame's run of errors 1 and 2 (R275). -/
structure Pub where
  bytes : List Byte := List.replicate 8 0xFF
  updated : Bool := false
  writes : List PubWrite := []
  run : Nat := 0
deriving DecidableEq, Repr

/-- The slot in progress: frame identifier, kind, whether a response is awaited, its length and checksum kind, DT of
the break, T_MAX in ticks; a header was sent and read back wrongly; rings and NR_RUN of the set under which it began
(R277); it is the go-to-sleep command (R299). -/
structure LinSlot where
  fid : Nat
  kind : Nat
  sub : Bool
  len : Nat
  enhanced : Bool
  brk : Nat
  tMax : Nat
  sent : Bool
  hdrBad : Bool := false
  /-- The response published with the header, checksum last. -/
  bytes : List Byte := []
  collSched : Nat := 0xFF
  rxRing : Nat := 0xFF
  evtRing : Nat := 0xFF
  nrRun : Nat := 3
  sleepCmd : Bool := false
deriving DecidableEq, Repr

/-- One LIN commander. -/
structure Lin where
  sched : Option Nat := none
  slot : Nat := 0
  /-- Index of the slot to start next, and the DT at which the slot in progress ends. -/
  next : Nat := 0
  slotEnd : Nat := 0
  cur : Option LinSlot := none
  /-- Collision resolution: the schedule and slot to resume at (R276); a collision that has not yet begun it. -/
  coll : Option (Nat × Nat) := none
  collPend : Option Nat := none
  busDom : Bool := false
  lastErr : Nat := 0
  noResp : Nat := 0
  other : Nat := 0
  errs : Nat := 0
  hdrRun : Nat := 0
  /-- LIN_SCHEDs that have not taken effect: descriptor, schedule (0xFF stop), AT_END. -/
  pend : List (Nat × Nat × Bool) := []
  /-- LIN_DIAG_REQ. -/
  diag : Option (Nat × List Byte) := none
  pubs : Vector Pub 64 := Vector.replicate 64 {}
deriving DecidableEq, Repr

/-- Counts of a route (R282) and its drop report (R280). -/
structure RouteCnt where
  matched : Nat := 0
  forwarded : Nat := 0
  dropped : Nat := 0
  superseded : Nat := 0
  since : Nat := 0
  reason : Nat := 0
  interval : Option Nat := none
deriving DecidableEq, Repr

/-- A frame the gateway holds (R280). -/
structure GwFrame where
  route : Nat
  can : Nat
  frame : CanFrame
  valid : Nat
  maxAge : Nat
deriving DecidableEq, Repr

/-- A set that a commit tick replaced (R246, R282): frames whose SOF lies before the tick, and not before an earlier one, use it,
on the controllers that took part in their bus at the tick. -/
structure PrevNet where
  tick : Nat
  t9 : Mem
  t12 : Mem
  pairs : Vector (List Pair) 8
  hears : Vector Bool 8
deriving DecidableEq, Repr

/-- NS as a whole. -/
structure NsSt where
  can : Vector Can 8 := Vector.replicate 8 {}
  seg : Vector Seg 16 := Vector.replicate 16 {}
  lin : Vector Lin 8 := Vector.replicate 8 {}
  holding : List GwFrame := []
  cnts : List (Nat × RouteCnt) := []
  /-- The sets replaced within the last second, the oldest first: no frame or slot lasts as long. -/
  prev : List PrevNet := []
  order : Nat := 0
deriving DecidableEq, Repr

end Sys2Proof.Machine
end

