-- ==== Sys2Proof/Machine/Types/Valve.lean ====
section
/-! DEFINITION. The plain data of the valve groups, the boost converter and the charge ledger (file 07). Reset values
stand as field defaults. -/

namespace Sys2Proof.Machine

/-- A valve entry of table 0x06 (R192), as a firing keeps it to its end (R75). -/
structure VlvCfg where
  useBoost : Bool
  offSlow : Bool
  diagOn : Bool
  iPeak : Nat
  iHold : Nat
  tBoostMin : Nat
  tBoostMax : Nat
  tPeak : Nat
  decMax : Nat
  tHoldMax : Nat
  /-- MAX_DEFER of the valve's group, in 0.1 ms steps. -/
  maxDefer : Nat
deriving DecidableEq, Repr

/-- A firing (R178): its valve, descriptor (none for a periodic firing or one of SAFE = ON), requested start, order of
arrival, hold time in ms, entry, whether it is periodic, whether it waited, and what its RESULT gives. -/
structure Fire where
  valve : Nat
  uid : Option Nat
  start : Nat
  order : Nat
  holdMs : Nat
  cfg : VlvCfg
  periodic : Bool := false
  waited : Bool := false
  deferral : Nat := 0
  boostUs : Nat := 0
  charge : Nat := 0
deriving DecidableEq, Repr

/-- One low-side and its coil (R171). -/
structure Vlv where
  /-- 0 OFF, 1 WAITING, 2 BOOST, 3 PEAK, 4 DECAY, 5 HOLD, 6 RELEASE. -/
  state : Nat := 0
  fire : Option Fire := none
  /-- DT at which the present state began; DT at which OFF was last reached. -/
  since : Nat := 0
  offDt : Option Nat := none
  /-- End of HOLD and its hold time in ms (R175). -/
  holdEnd : Option Nat := none
  holdMs : Nat := 0
  /-- Descriptors that complete when the valve reaches OFF; slow decay; DEC_MAX_US; R174 has raised. -/
  relUids : List Nat := []
  slow : Bool := false
  /-- OFF_SLOW of the firing that brought the present HOLD (R75). -/
  offSlow : Bool := false
  /-- A slow decay that began as a fast one (R184); DT at which the valve last ceased to need the common (R170). -/
  part : Bool := false
  comDt : Option Nat := none
  decMax : Nat := 0
  relLate : Bool := false
  /-- HELD since (R187); LAST_DEFER; SAFE applied. -/
  held : Option Nat := none
  lastDefer : Nat := 0
  safeAct : Bool := false
  /-- Periodic operation: DT of the next period (R181); the descriptor of a stop that waits. -/
  perNext : Option Nat := none
  stopUid : Option Nat := none
  /-- VLV_CUR in 10 mA steps; VLV_DIAG. -/
  i : Nat := 0
  peak : Nat := 0
  lastRet : Nat := 0
  onRes : Nat := 0
  offRes : Nat := 0
deriving DecidableEq, Repr

/-- One group: owner of the slot, since when it is free, the firings that wait (R177 to R179), currents. -/
structure Vg where
  owner : Option Nat := none
  freeDt : Option Nat := none
  /-- A HOLD freed it (R176). -/
  freeHold : Bool := false
  waiting : List Fire := []
  i : Nat := 0
  peak : Nat := 0
  diagDt : Nat := 0
  /-- DT at which the last off-state diagnosis began (R188). -/
  diagRun : Option Nat := none
deriving DecidableEq, Repr

/-- Boost converter states (R182, codes of BOOST_STAT). -/
inductive Boost where
  | off
  | precharge
  | measure
  | charging
  | ready
  | suspended
  | fault
deriving DecidableEq, Repr

/-- VS as a whole. -/
structure VsSt where
  vlv : Vector Vlv 24 := Vector.replicate 24 {}
  vg : Vector Vg 4 := Vector.replicate 4 {}
  /-- Firings whose start tick lies ahead, in order of arrival; the next order number. -/
  pend : List Fire := []
  order : Nat := 0
  boost : Boost := .off
  boostDt : Nat := 0
  /-- A commit has enabled the converter while a row of R503 holds it off. -/
  boostAsk : Bool := false
  cMeas : Nat := 0
  ovSlow : Bool := false
  vCap : Nat := 0
  vMin : Nat := 0xFFFF
  /-- The ledger: Q_IN, Q_DRAW, Q_RET, Q_LOSS in 0.1 µC, the latched _HI words (R185, R196). -/
  ledger : Vector Nat 4 := Vector.replicate 4 0
  latched : Vector Nat 4 := Vector.replicate 4 0
  /-- The present 1 s window: its start, what Q_DRAW and Q_RET were, V_CAP, whether it is not to be judged (R186). -/
  winDt : Nat := 0
  winDraw : Nat := 0
  winRet : Nat := 0
  winV : Nat := 0
  winOut : Bool := true
  resid : Int := 0
  failRun : Nat := 0
  tol : Nat := 0
deriving DecidableEq, Repr

end Sys2Proof.Machine
end

