-- ==== Sys2Proof/Machine/State.lean ====
section
/-! DEFINITION. The machine's state as plain data (every field's reset value is its default), the state
after reset, the fault and refusal names. -/

namespace Sys2Proof.Machine

/-- No command stops the machine: the spec gives every row of the table an effect or none, and raising a
fault source is an effect on the state. Nothing raises a `Fault`. -/
inductive Fault where
deriving DecidableEq, Repr

/-- The only refusal: a row that has no meaning yet. Raised by exec's arms alone; safe. -/
inductive Refusal where
  | notModelled (mnemonic : String)
deriving DecidableEq, Repr

/-- A record on its way to an engine's inbound queue (R362): the engine, the program it is for (none for the
runtime), whether it is an event, the record. -/
structure Inbound where
  engine : Nat
  prog : Option Nat
  event : Bool
  record : Record
deriving DecidableEq, Repr

/-- The state of the block. -/
structure State where
  /-- Commands waiting, first in, first out: the model's own queue. -/
  pending : List Instr := []
  /-- Device time, 64 bits (R8); root time, 48 bits (R8); phase of RT against DT in 1/16 DT ticks. -/
  dt : Nat := 0
  rt : Nat := 0
  rtPhase : Nat := 0
  /-- Number of free values taken: the model's own. -/
  free : Nat := 0
  /-- Shared SRAM, offsets from 0 (R390); MRAM, device addresses (R458). -/
  sram : Mem := []
  mram : Mem := []
  /-- Rings (R22); each class's next ring in the round-robin (R42). -/
  rings : Vector Ring 64 := Vector.replicate 64 {}
  nextHigh : Nat := 0
  nextNormal : Nat := 0
  /-- Descriptors started and not complete, in starting order (R42); the number of the next to start. -/
  started : List Run := []
  nextUid : Nat := 0
  /-- Descriptors that engines (R361) and the tester (R84) have sent and that have not started. -/
  engPipe : Vector (List Desc) 16 := Vector.replicate 16 []
  diagPipe : Option Desc := none
  /-- The CAN controller and tag of the tester's request in flight, and the answer to send (R84). -/
  diagBusy : Bool := false
  diagAnswer : Option (List Byte) := none
  /-- What has been sent toward the host, oldest first: the model's own record of the link. -/
  out : List LinkOut := []
  /-- Records on their way to engines (R362). -/
  transit : List Inbound := []
  /-- Dies whose link is down (R12), and dies that hold SAFE entries since the last start (R16). -/
  linkDown : List Die := []
  safeHere : List Die := []
  host : HostSt := {}
  stg : StageSt := {}
  ses : Vector Ses 4 := Vector.replicate 4 {}
  flt : FaultSt := {}
  pw : PowerSt := {}
  hw : HeartSt := {}
  upd : UpdSt := {}
  perf : PerfSt := {}
  /-- Pending engine interrupts 0 to 95, a bit each (R346). -/
  engInts : Vector Nat 16 := Vector.replicate 16 0
  /-- Key slots 0 to 6 of AS (R80, R325): 128-bit keys, none where empty. -/
  keys : Vector (Option Nat) 7 := Vector.replicate 7 none
  /-- Events a die holds while its link is down (R412). -/
  heldEvents : List (Die × Report) := []
  /-- Load slices, wire models, heat budget (files 04 and 05). -/
  ld : LoadSt := {}
  /-- Half-bridges (file 06). -/
  hbs : Vector Hb 16 := Vector.replicate 16 {}
  /-- Valve groups, boost converter, charge ledger (file 07). -/
  vs : VsSt := {}
  /-- Switch inputs (file 08). -/
  sw : SwSt := {}
  /-- Field die (file 09). -/
  fs : FsSt := {}
  /-- CAN controllers, LIN commanders, gateway, segments (files 10 to 12). -/
  ns : NsSt := {}
  /-- Access and immobiliser (file 13). -/
  acc : AccSt := {}
  /-- Engines and pairs (files 14 and 15). -/
  eng : Vector Eng 16 := Vector.replicate 16 {}
  pairs : Vector PairSt 8 := Vector.replicate 8 {}
  /-- Write buffers of the engines, oldest first (R340). -/
  wbufs : Vector (List BufStore) 16 := Vector.replicate 16 []
  /-- The package store (R380). -/
  pkgs : Vector Slot256 256 := Vector.replicate 256 {}
deriving DecidableEq, Repr

/-- The part after the root island's power-on reset, before the first start of its digital die: every
register at its reset value, nothing in memory, Oniskent's delivery in MRAM (R482, R516). -/
def State.reset : State :=
  { pw := { rootOn := true, regRise := some 14 }
    stg := { copies := #v[deliverySet, { valid := false }] }
    upd := { parts := Vector.ofFn fun p =>
              { version := (Config.deliveryVersion p).toNat, iface := (Config.deliveryIface p).toNat
                reqMin := (List.range 5).map fun q => (Config.deliveryReqMin p q).toNat
                floor := (Config.deliveryFloor p).toNat } }
    keys := Vector.ofFn fun i => if i.val < 5 then some (Config.deliveryKey i).toNat else none
  }

end Sys2Proof.Machine
end

