-- ==== Sys2Proof/Machine/Ops.lean ====
section
/-! DEFINITION. The operations every family shares: time, free values, committed tables, SAFE
predicates, raising a fault source, writes to the host, vectors, records, events, drop records, the
heartwood queue, and a descriptor's path from its origin to its completion.
Readings of the spec: log entries 11, DEDUCED, and 36, DESIGN CHOICE. -/

namespace Sys2Proof.Machine

/-- Outcome of every meaning. -/
abbrev Out := Host.Outcome State Fault Refusal

/-! ### Guards and free values -/

/-- The change, when its occasion is there; else nothing (log entry 6, DESIGN CHOICE). -/
def onlyIf (c : Bool) (f : State → State) (s : State) : State := if c then f s else s

/-- The change, while the fast clocks run: what the power dies do by their own logic, the digital die in reset or not (R119,
R450). -/
def whenClocked (f : State → State) (s : State) : State := onlyIf s.pw.clocks f s

/-- The change, while the digital die runs (R448). -/
def whenOn (f : State → State) (s : State) : State := onlyIf s.pw.dieOn f s

/-- The next free value of `w` bits (log entry 5, DESIGN CHOICE). -/
def takeFree (w : Nat) (s : State) : Nat × State := ((Config.freeValue w s.free).toNat, { s with free := s.free + 1 })

/-! ### One block changed -/

def modHost (f : HostSt → HostSt) (s : State) : State := { s with host := f s.host }
def modStg (f : StageSt → StageSt) (s : State) : State := { s with stg := f s.stg }
def modFlt (f : FaultSt → FaultSt) (s : State) : State := { s with flt := f s.flt }
def modPw (f : PowerSt → PowerSt) (s : State) : State := { s with pw := f s.pw }
/-- VBAT_B as measured, in mV (R455, R457). -/
def noteVbat (v : Nat) (s : State) : State := modPw (fun w => { w with vbat := sat 16 v }) s
/-- A supply as last read lies below 6.0 V, where a die's diagnoses are suspended and LIN transmitters stay recessive
(R503); 0: not read yet. -/
def crankRange (v : Nat) : Bool := 0 < v && v < 6000
def modHw (f : HeartSt → HeartSt) (s : State) : State := { s with hw := f s.hw }
def modUpd (f : UpdSt → UpdSt) (s : State) : State := { s with upd := f s.upd }

/-! ### Configuration in force -/

/-- `n` bytes at offset `off` of table `t` as committed; 0 before the first commit after a start (R516). -/
def tblU (s : State) (t off n : Nat) : Nat := if s.stg.inForce then (match at? s.stg.tables (t - 1) with | some m => memLe m off n | none => 0) else 0

/-- As `tblU` for the tables that act from the start-up on (R516): 0x01, 0x10 and the SAFE parameters. -/
def storedU (s : State) (t off n : Nat) : Nat := if s.stg.storedOk || s.stg.inForce then (match at? s.stg.tables (t - 1) with | some m => memLe m off n | none => 0) else 0

/-- DELAY of table 0x0F (R368, R380, R516), its default where no set is stored. -/
def pairDelay (s : State) : Nat := let d := storedU s 15 24 1; if d < 2 then 4 else d

/-- The behaviour level in force (R78, R516). -/
def level (s : State) : Nat := if s.stg.storedOk || s.stg.inForce then storedU s 1 16 1 else 2

/-- The session idle time in seconds (R61, R516). -/
def idleTime (s : State) : Nat := if s.stg.storedOk || s.stg.inForce then storedU s 1 18 2 else 300

/-- The EVT_RING of table 0x10 (R428, R516): none while no stored set is valid. -/
def faultRing (s : State) : Nat := if s.stg.storedOk || s.stg.inForce then storedU s 16 16 1 else 0xFF

/-- Committed entries act on the power dies: after the first commit, and through a brownout (R450, R516). -/
def entriesAct (s : State) : Bool := s.stg.inForce || s.stg.kept

/-- A register field that holds its reset value until the first commit (R115). -/
def fromCommit {α : Type} (s : State) (reset v : α) : α := if s.stg.inForce then v else reset

/-! ### Park -/

/-- An entry to park is past its sleep commit point: load, bridge and field outputs are off (R441). -/
def pastTc (s : State) : Bool := match s.pw.run with | some p => p.tc.isSome | none => false
/-- The device is past tc of an entry, or parked until its digital die starts (R446). -/
def parkWatch (s : State) : Bool := pastTc s || ((s.pw.state == .park || s.pw.state == .deep) && !s.pw.dieOn)

/-! ### Dies, scopes, SAFE -/

/-- The die an output stands on (R10). -/
def outDie : OutId → Die
  | .lch n => if n < 32 then .loadA else .loadB
  | .hb n => if n < 8 then .loadA else .loadB
  | .vlv _ => .base
  | .vg _ => .base
  | .boost => .base
  | .fio _ => .field
  | .lf _ => .base
  | .rel => .digital
  | .seg _ => .digital
  | .pair _ => .digital

/-- An output is in a C2 state (R415). -/
def inC2 (s : State) (o : OutId) : Bool := s.flt.c2.any fun c => c.outs.contains o

/-- The link to a die is down (R12). -/
def dieDown (s : State) (d : Die) : Bool := s.linkDown.contains d

/-- An output is held in SAFE: before the first commit (R16), device safe state (R416), a C2 state (R415),
its die beyond a failed link (R12; the field die by its own silence timeout, R231). -/
def safeHeld (s : State) (o : OutId) : Bool :=
  !s.stg.inForce || s.flt.c3 || inC2 s o || (dieDown s (outDie o) && outDie o != .field)

/-- Its SAFE entries have reached a die since the last start; until then the die holds its outputs off (R16). -/
def safeKnown (s : State) (d : Die) : Bool := s.stg.inForce || (s.safeHere.contains d && s.stg.storedOk)

/-- The SAFE byte's offset in table 0x10 (R428). -/
def safeOffset : OutId → Nat
  | .lch n => 32 + n
  | .hb n => 96 + n
  | .vlv n => 112 + n
  | .vg n => 136 + n
  | .boost => 140
  | .fio n => 144 + n
  | .lf n => 176 + n
  | .rel => 180
  | .seg _ => 191
  | .pair _ => 191

/-- SAFE of an output: 0 OFF, 1 ON, 2 HOLD, 3 FIXED-DUTY (R428). -/
def safeKind (s : State) (o : OutId) : Nat := storedU s 16 (safeOffset o) 1 % 4

/-! ### Raising a source -/

/-- The die a source is raised on (R425, R427). -/
def srcDie (n : Nat) : Die :=
  if 32 ≤ n && n < 96 then .loadA
  else if 96 ≤ n && n < 160 then .loadB
  else if (160 ≤ n && n < 200) || n == 205 || n == 213 || n == 216 || n == 217 || 248 ≤ n then .base
  else if 224 ≤ n && n < 240 then .field
  else .digital

/-- A raise with its stamp: DT, or RT while the fast clocks are stopped (R14). -/
def raiseNow (src target : Nat) (s : State) : Raise :=
  { src := src, target := target, time := if s.pw.clocks then s.dt else s.rt, tsRt := !s.pw.clocks }

/-- Raise a source that names `target` (0xFFFF: none): on its way to the collector (R411), held where the
die's link is down (R412), held in the root island while the digital die is off (R451). -/
def raise (src target : Nat) (s : State) : State :=
  let r := raiseNow src target s
  if dieDown s (srcDie src) then { s with flt := { s.flt with held := s.flt.held ++ [(srcDie src, r)] } }
  else if !s.pw.dieOn then { s with flt := { s.flt with riHeld := s.flt.riHeld ++ [r] } }
  else { s with flt := { s.flt with pending := s.flt.pending ++ [r] } }

/-! ### The host link -/

/-- One more item that HB_LOST counts (R391, R404). -/
def countLost (s : State) : State := { s with host := { s.host with lost := w32 (s.host.lost + 1) } }

/-- Something that leaves toward the host, in order (R401); while the link is down it is lost, and HB_LOST counts records,
shadow writes and interrupts (R404). -/
def toHost (o : LinkOut) (s : State) : State :=
  if s.host.linkUp then { s with out := s.out ++ [o] }
  else match o with
    | .record r i _ _ => countLost { s with host := { s.host with firstLost := s.host.firstLost <|> some (r, i) } }
    | .shadow .. => countLost s
    | .msix _ => countLost s
    | _ => s

/-- Bits of the uncorrectable-error status of AER (log entry 47, PRESUMED). -/
def aerAbort : Nat := 15
def aerUnexpected : Nat := 16
def aerUnsupported : Nat := 20
/-- An error that AER reports (R388, R395). -/
def aerReport (bit : Nat) (o : LinkOut) (s : State) : State :=
  toHost o { s with host := { s.host with cfg := { s.host.cfg with aer := Nat.lor s.host.cfg.aer (2 ^ bit) } } }

/-- Bytes of one outbound read at most (R384, R393). -/
def readMax (s : State) : Nat := min 512 (128 * 2 ^ s.host.cfg.maxRead)
/-- Bytes of one posted write at most: the Max Payload Size in force (R384, R400). -/
def writeMax (s : State) : Nat := min 256 (128 * 2 ^ s.host.cfg.maxPayload)

/-- Data written to host memory: posted writes of at most the Max Payload Size, split at 4 KiB boundaries (R400). The first
number bounds their count. -/
def dataOut : Nat → Nat → List Byte → State → State
  | 0, _, _, s => s
  | n + 1, a, bs, s =>
    let k := min (writeMax s) (4096 - a % 4096)
    if bs.length ≤ k then toHost (.data a bs) s
    else dataOut n (a + k) (bs.drop k) (toHost (.data a (bs.take k)) s)

/-- A vector is treated as masked (R402): its own mask, the function mask, MSI-X not enabled, address 0. -/
def vectorMasked (h : HostSt) (v : Nat) : Bool :=
  !h.msixEn || h.fnMask || (match at? h.msix v with | some e => e.masked || (e.addrLo == 0 && e.addrHi == 0) | none => true)

/-- Send interrupt vector `v` (never one of 72 to 79, for which R58 names no cause: log entry 11, DESIGN CHOICE): to PAIR_0 in self-hosted operation (R59); not at all before the link first
reached L0; counted as lost in a link loss; pending while masked; else a message (R402, R404). -/
def sendVector (v : Nat) (s : State) : State :=
  if s.host.selfHosted then { s with engInts := upd s.engInts 0 fun b => Nat.lor b (2 ^ v) }
  else if !s.host.reachedL0 then s
  else if !s.host.linkUp then toHost (.msix v) s
  else if vectorMasked s.host v then { s with host := { s.host with pba := updN s.host.pba v fun _ => true } }
  else toHost (.msix v) s

/-! ### Rings and records -/

/-- Entries of a ring (R22). -/
def ringSize (r : Ring) : Nat := 2 ^ r.sizeLog2

/-- Occupied entries (R23): producer minus consumer. -/
def occupied (r : Ring) : Nat := if r.role then sub32 r.idx r.db else sub32 r.db r.idx

/-- Credits of a completion/event ring (R47). -/
def credits (r : Ring) : Nat := ringSize r - 1 - occupied r - r.reserved

/-- Slots free for a drop record of R48: beyond the slot kept back, unless a drop record of R49 stands in that one (R48, R51). -/
def freeSlots (r : Ring) : Nat := ringSize r - occupied r - r.reserved - (if r.keptBack.isSome then 0 else 1)

/-- The byte address of entry `i` (R23). -/
def entryAddr (r : Ring) (i : Nat) : Nat := r.base + 32 * (i % ringSize r)

/-- PHASE of the record at index `i` (R45). -/
def phaseBit (r : Ring) (i : Nat) : Nat := 1 - i / 2 ^ r.sizeLog2 % 2

/-- The 32 bytes of a record with its PHASE (R44). -/
def recordBytes (ph : Nat) (r : Record) : List Byte :=
  let flags := ph + 2 * b2n r.kind + 4 * b2n r.drop + 8 * b2n r.tsRt + putF r.session 0 2 * 16
  leBytes 2 r.opcode ++ leBytes 1 r.status ++ leBytes 1 flags ++ leBytes 2 r.target ++ leBytes 2 r.ringFld ++
    leBytes 8 r.tag ++ leBytes 8 r.time ++ leBytes 8 r.result

/-- Change one ring. -/
def setRing (n : Fin 64) (f : Ring → Ring) (s : State) : State := { s with rings := upd s.rings n f }

/-- Ports of R489, their mask bits. -/
inductive Port where
  | sram
  | mram
  | regs
  | window
deriving DecidableEq, Repr

def portBit : Port → Nat
  | .sram => 0
  | .mram => 1
  | .regs => 2
  | .window => 3

/-- An access at a port is counted by every fabric counter whose filters it passes (R489). -/
def fabCount (p : Port) (master addr bytes waited : Nat) (ecc : Bool) (s : State) : State :=
  let one := fun f : Fab =>
    if bitN f.ports (portBit p) && (f.master == 0xFF || f.master == master) && f.lo ≤ addr && addr ≤ f.hi then
      let k := match f.event with | 0 => 1 | 1 => bytes | 2 => waited | _ => b2n ecc
      { f with count := (f.count + k) % 2 ^ 64 }
    else f
  { s with perf := { s.perf with fabs := s.perf.fabs.map one } }

/-- An access whose wait at the port, and whose corrected ECC error, no operand gives: both are free (R489). -/
def fabAccess (p : Port) (master addr bytes : Nat) (s : State) : State :=
  fabCount p master addr bytes (Config.portWait master addr s.dt).toNat ((p == .sram || p == .mram) && Config.portEcc master addr s.dt) s

/-- An inbound host access to the registers (R489): the register commands of the table stand for the host's; an engine's
loads and stores are counted where they run. -/
def hostAccess (addr n : Nat) (s : State) : State := if s.host.selfHosted then s else fabAccess .regs 0x20 addr n s

/-- Bytes written toward a ring's owner: host memory, or internal SRAM in self-hosted operation (R29). -/
def ringWrite (o : LinkOut) (addr : Nat) (bytes : List Byte) (s : State) : State :=
  if s.host.selfHosted then fabAccess .sram 0x22 addr bytes.length { s with sram := memWriteL s.sram addr bytes } else toHost o s

/-- The ring's interrupt message: every record so far is signalled, the timer stops (R46). -/
def signalRing (n : Fin 64) (s : State) : State :=
  sendVector n (setRing n (fun r => { r with unsignalled := 0, irqStart := none }) s)

/-- Write a record at the producer index: the record, then the shadow index, then the message when it is
due (R46). -/
def putRecord (n : Fin 64) (rec : Record) (irq : Bool) (s : State) : State :=
  let r := s.rings[n]
  let bytes := recordBytes (phaseBit r r.idx) rec
  let idx' := w32 (r.idx + 1)
  let s := ringWrite (.record n r.idx (entryAddr r r.idx) bytes) (entryAddr r r.idx) bytes s
  let s := setRing n (fun r => { r with idx := idx', rpcCount := w32 (r.rpcCount + 1), unsignalled := r.unsignalled + 1, irqStart := r.irqStart <|> some s.dt }) s
  let s := if r.shadow == 0 then s else ringWrite (.shadow n r.shadow idx') r.shadow (leBytes 4 idx') s
  if r.irqEn && (irq || max 1 r.count ≤ r.unsignalled + 1) then signalRing n s else s

/-- The drop record of R48, written while a slot is free and drops are pending on an active ring. That of frames too long
for the credits that are free waits for the next released slot (log entry 11, DESIGN CHOICE). -/
def flushDrops (n : Fin 64) (s : State) : State :=
  let r := s.rings[n]
  if r.active && r.role && 0 < r.pendDrop && 0 < freeSlots r then
    let rec' : Record := { opcode := 0, status := 0x14, kind := true, drop := true, target := 0x0F00, ringFld := 0x00FF,
                           tag := 0, time := s.dt, result := r.pendDrop % 2 ^ 32 }
    setRing n (fun r => { r with pendDrop := 0 }) (putRecord n rec' false s)
  else s

/-- Descriptors of a submission ring in flight: fetched or started, completion not yet written (R43). -/
def inFlight (s : State) (n : Fin 64) : Nat := s.rings[n].pipe.length + (s.started.filter fun r => r.desc.origin == .ring n).length

/-- Ring descriptors in flight across the device (R43). -/
def inFlightAll (s : State) : Nat :=
  ((idxs 64).map fun n => s.rings[n].pipe.length).foldl (· + ·) 0 +
    (s.started.filter fun r => match r.desc.origin with | .ring _ => true | _ => false).length

/-- The lowest free tag (log entry 7, DESIGN CHOICE). -/
def freeTag (s : State) : Option (Fin 128) := (idxs 128).find? fun t => s.host.tags[t] == .free

/-- No fetch from the acceptance of a POWER_SET to PARK or DEEP PARK until entry ends (R439). -/
def fetchHeld (s : State) : Bool := match s.pw.run with | some p => p.target == .park || p.target == .deep | none => false

/-- The device fetches at all: no entry to park runs; hosted, the link is up and a tag is free (R393, R439). -/
def fetchAllowed (s : State) : Bool := !fetchHeld s && (s.host.selfHosted || (s.host.linkUp && (freeTag s).isSome))

/-- Everything R42, R43, R49 and R439 ask of a fetch from ring `n` but a credit in COMP_RING. -/
def fetchableButCredit (s : State) (n : Fin 64) : Bool :=
  let r := s.rings[n]
  fetchAllowed s && r.active && !r.role && !r.stopping && !r.stalled && 0 < sub32 r.db r.idx &&
    inFlight s n < 32 && inFlightAll s < 512 &&
    (match at? s.rings r.compRing with | some c => c.active && c.role | none => false)

/-- A descriptor of ring `n` waits for want of a credit (R49). -/
def stallWaiting (s : State) (n : Fin 64) : Bool :=
  s.rings[n].stallMs != 0 && fetchableButCredit s n &&
    (match at? s.rings s.rings[n].compRing with | some c => credits c == 0 | none => false)

/-- The stall time of every submission ring runs while a descriptor of it waits, and stops when none does (R49). -/
def watchStalls (s : State) : State :=
  if s.rings.toList.any fun r => r.stallMs != 0 then
    { s with rings := mapFin s.rings fun n r =>
        if r.stallMs == 0 then r else { r with stallStart := if stallWaiting s n then r.stallStart <|> some s.dt else none } }
  else s

/-- Programs that subscribe to an event (R362): code and source, 0xFFFF any source. -/
def subscribers (s : State) (code target : Nat) : List Prog :=
  if s.stg.inForce then
    s.stg.place.progs.filter fun p => !p.stopped && p.handlers.any fun h => h.1 == code && (h.2.1 == 0xFFFF || h.2.1 == target)
  else []

/-- Hand an event to the subscribing programs' engines (R362). -/
def toPrograms (rec : Record) (s : State) : State :=
  { s with transit := s.transit ++ (subscribers s rec.opcode rec.target).map fun p =>
      { engine := p.engine, prog := some p.num, event := true, record := rec } }

/-- Write an event to a ring (R44, R48): with a credit it is written, else it is dropped and counted;
0xFF names no ring. Programs receive it by subscription whatever the ring (R362). -/
def emitAt (ring code target d1 d2 time : Nat) (tsRt : Bool) (s : State) : State :=
  let rec' : Record := { opcode := code, kind := true, tsRt := tsRt, target := target, ringFld := 0x00FF,
                         tag := d1 % 2 ^ 64, time := time, result := d2 % 2 ^ 64 }
  let s := match fin? 64 ring with
    | none => s
    | some n =>
      let r := s.rings[n]
      if r.active && r.role && 0 < credits r then watchStalls (putRecord n rec' false s)
      else setRing n (fun r => { r with evtDrop := sat 16 (r.evtDrop + 1), pendDrop := if r.active then r.pendDrop + 1 else r.pendDrop }) s
  toPrograms rec' s

/-- An event with the present DT (R14). -/
def emit (ring code target d1 d2 : Nat) (s : State) : State := emitAt ring code target d1 d2 s.dt false s

/-- An event that arises on a die, with its stamp: held there while its link is down (R412) or the digital die is in
reset. -/
def emitOnAt (die : Die) (ring code target d1 d2 time : Nat) (tsRt : Bool) (s : State) : State :=
  if dieDown s die || (!s.pw.dieOn && die != .digital) then { s with heldEvents := s.heldEvents ++ [(die, .event ring code target d1 d2 time tsRt)] }
  else emitAt ring code target d1 d2 time tsRt s

/-- As `emitOnAt`, with the present DT. -/
def emitOn (die : Die) (ring code target d1 d2 : Nat) (s : State) : State := emitOnAt die ring code target d1 d2 s.dt false s

/-! ### Heartwood queue -/

/-- Places of the heartwood's queue (R462). -/
def hwPlaces : Nat := 256

/-- A record joins the queue, or, while all its places are full, is held by the block that makes it (R462). -/
def hwQueue (w : Waiting) (h : HeartSt) : HeartSt :=
  if h.queue.length < hwPlaces then { h with queue := h.queue ++ [w] } else { h with heldBack := h.heldBack ++ [w] }

/-- Queue a heartwood record with the reports that wait for it (R462). Its time is that of its event, `stamp` (with
TS_RT) where this lies back; else the present one: DT, or, while the fast clocks are stopped, RT with TS_RT set (R14). -/
def hwPut (type : Nat) (payload : List Byte) (reports : List Report) (s : State) (session : Option Nat := none) (injected : Bool := false)
    (stamp : Option (Nat × Bool) := none) : State :=
  let at' := stamp.getD (if s.pw.clocks then s.dt else s.rt, !s.pw.clocks)
  let w : Waiting := { type := type, tsRt := at'.2, injected := injected, session := session,
                       time := at'.1, commitSeq := s.stg.seq, payload := payload, reports := reports }
  { s with hw := hwQueue w s.hw }

/-- A commit is in progress; a check alone is none. -/
def commitRuns (s : State) : Bool := match s.stg.run with | some c => !c.checkOnly | none => false

/-! ### Descriptors -/

/-- Field of a descriptor: `w` bits at byte `b` (R37). -/
def Desc.u (d : Desc) (b w : Nat) : Nat := fld d.raw.toNat (8 * b) w
def Desc.opcode (d : Desc) : Nat := d.u 0 16
def Desc.idem (d : Desc) : Bool := bitN d.raw.toNat 16
def Desc.fence (d : Desc) : Bool := bitN d.raw.toNat 17
def Desc.irq (d : Desc) : Bool := bitN d.raw.toNat 18
def Desc.session (d : Desc) : Nat := d.u 3 2
def Desc.target (d : Desc) : Nat := d.u 4 16
def Desc.slice (d : Desc) : Nat := fld d.raw.toNat 40 4
def Desc.ch (d : Desc) : Nat := d.u 4 8
def Desc.plen (d : Desc) : Nat := d.u 6 16
def Desc.tag (d : Desc) : Nat := d.u 8 64
/-- PARAM, bytes 16 to 31. -/
def Desc.param (d : Desc) : Nat := d.u 16 128

/-- The opcodes that R39 knows. -/
def knownOps : List Nat :=
  [0x0000, 0x0001, 0x0002, 0x0100, 0x0101, 0x0102, 0x0103, 0x0200, 0x0201, 0x0210, 0x0211, 0x0212,
   0x1000, 0x1001, 0x1002, 0x1003, 0x1004, 0x1020, 0x1021, 0x1022, 0x1023] ++
  [0x1100, 0x1101, 0x1102, 0x1103, 0x1104, 0x1105, 0x1106, 0x1107, 0x1200, 0x1201, 0x1202, 0x1203, 0x1204, 0x1205, 0x1206,
   0x1300, 0x1301, 0x1302, 0x1400, 0x1401, 0x1402, 0x1403, 0x1404] ++
  [0x1800, 0x1801, 0x1802, 0x1803, 0x1804, 0x1900, 0x1901, 0x1902, 0x1903, 0x1904, 0x1905,
   0x1A00, 0x1A01, 0x1A02, 0x1A03, 0x1C00, 0x1C01, 0x1C02, 0x1C03, 0x1C04, 0x1C05, 0x1C06] ++
  [0x2000, 0x2001, 0x2002, 0x2003, 0x2004, 0x2005, 0x2800, 0x2801, 0x2802, 0x2803, 0x2804,
   0x3000, 0x3001, 0x3002, 0x3003, 0x3100, 0x3101, 0x3102] ++
  [0x3800, 0x3801, 0x3810, 0x3811, 0x3812, 0x3813, 0x3814, 0x3815, 0x3816, 0x3C00, 0x3C01, 0x3C02, 0x3C03]

/-- Check 1 of R40. -/
def opKnown (op : Nat) : Bool := knownOps.contains op

/-- Whether a TARGET names a slice and channel of R10; CH 255 is left to FAULT_RESET. -/
def targetListed (t : Nat) : Bool :=
  let sl := fld t 8 4
  let ch := fld t 0 8
  if sl ≤ 3 then ch < 20 || ch == 32 || ch == 33
  else match sl with
    | 4 => ch < 24 || (32 ≤ ch && ch ≤ 35) || ch == 40
    | 5 => ch < 48
    | 6 => ch ≤ 32
    | 7 => ch ≤ 16
    | 8 => ch < 4 || ch == 8
    | 9 => ch ≤ 67
    | 0xE => ch < 24
    | 0xF => ch == 0
    | _ => false

/-- What an operation asks of its descriptor beside the checks common to all (R40, R519). -/
structure OpForm where
  /-- IDEM permitted (R54). -/
  idem : Bool := false
  /-- Bits of PARAM that the operation names and does not reserve. -/
  used : Nat := 0
  /-- PLEN the operation permits. -/
  plenOk : Nat → Bool := fun p => p == 0
  /-- Alignment and multiples (check 2). -/
  form : Bool := true
  /-- Check 3 applies. -/
  session : Bool := true
  /-- A tester's request for session 1 itself, which needs no SESSION 1 (R84). -/
  diagFree : Bool := false
  /-- TARGET and parameters in range (check 4). -/
  range : Bool := true
  /-- Allowed in the present state (check 5). -/
  state : Bool := true
  /-- Resource available (check 6). -/
  res : Bool := true

/-- A mask of PARAM bits: `n` bits from byte `b` (16 to 31). -/
def pm (b n : Nat) : Nat := (2 ^ n - 1) * 2 ^ (8 * (b - 16))

/-- Check 2 of R40 with R519: reserved bits, PLEN, IDEM, the operation's own form. -/
def checkForm (d : Desc) (f : OpForm) : Bool :=
  fld d.raw.toNat 19 5 == 0 && fld d.raw.toNat 26 6 == 0 && fld d.raw.toNat 44 4 == 0 &&
  d.plen ≤ 4096 && f.plenOk d.plen && (!d.idem || f.idem) && Nat.land d.param f.used == d.param && f.form

/-- A session number is open (R79). -/
def sessionOpen (s : State) (n : Nat) : Bool := match at? s.ses n with | some x => x.isOpen | none => false

/-- Check 3 of R40: not for a SEND in task mode (R361); a tester's request must carry session 1 (R84). -/
def checkSession (s : State) (d : Desc) (f : OpForm) : Bool :=
  (d.origin != .diag || d.session == 1 || f.diagFree) && (!f.session || d.task || sessionOpen s d.session)

/-- Families and targets a SEND in task mode may name (R361, check 4). -/
def checkTask (s : State) (d : Desc) : Bool :=
  !d.task || ((0x10 ≤ d.opcode / 256 && d.opcode / 256 ≤ 0x1C || d.opcode / 256 == 0x3C) &&
    s.stg.place.progs.any fun p => p.num == d.prog && p.targets.contains d.target)

/-- The refusals of R416 in the device safe state, and of R17: the host bridge in self-hosted operation (check 5). -/
def checkSafe (s : State) (d : Desc) : Bool :=
  !(s.host.selfHosted && d.target == 0x0943) && (!s.flt.c3 || [0x00, 0x30, 0x31, 0x38].contains (d.opcode / 256) || (d.opcode / 16 == 0x021))

/-- The first check of R40 that fails, as a status; checks 2 to 6 (check 1 is `opKnown`). -/
def judge (s : State) (d : Desc) (f : OpForm) : Option Nat :=
  if !checkForm d f then some 0x08
  else if !checkSession s d f then some 0x0F
  else if !(f.range && checkTask s d) then some 0x0A
  else if !(checkSafe s d && f.state) then some 0x0C
  else if !f.res then some 0x0B
  else none

/-- The origin field of a record (R44). -/
def originFld : Origin → Nat
  | .ring n => n
  | .engine e => e + 64
  | .diag => 128

/-- The completion record of a run (R44). -/
def completionOf (d : Desc) (x : Done) (now : Nat) : Record :=
  { opcode := d.opcode, status := x.status, kind := false, session := d.session, target := d.target,
    ringFld := originFld d.origin, tag := d.tag, time := now, result := x.result % 2 ^ 64 }

/-- Write a completion where its origin takes it (PHASE 0 in a tester's answer: log entry 11, DESIGN CHOICE): the reserved slot of COMP_RING (R47), the inbound queue of the engine or,
for a behaviour program, of the engine on which that program runs now (R361, R375), the tester's answer (R84). One for a
halted pair is discarded (R373). -/
def writeCompletion (d : Desc) (x : Done) (s : State) : State :=
  let rec' := completionOf d x s.dt
  match d.origin with
  | .ring n =>
    match fin? 64 s.rings[n].compRing with
    | none => s
    | some c => watchStalls (putRecord c rec' d.irq (setRing c (fun r => { r with reserved := r.reserved - 1 }) s))
  | .engine e =>
    let prog := if d.task then some d.prog else none
    let to' := match prog.bind fun n => s.stg.place.progs.find? fun p => p.num == n with | some p => p.engine | none => e.val
    if (at? s.pairs (to' / 2)).elim false (·.halted) then s
    else { s with transit := s.transit ++ [{ engine := to', prog := prog, event := false, record := rec' }] }
  | .diag => { s with diagAnswer := some (recordBytes 0 rec') }

/-- Split the started descriptors into those whose completion may be written now and the rest: a
completion waits for every earlier descriptor of its target (R42) and for its heartwood record (R462). -/
def readyRuns : List Run → List Nat → List (Desc × Done) × List Run
  | [], _ => ([], [])
  | r :: rs, blocked =>
    match r.done with
    | some x =>
      if r.gated || blocked.contains r.desc.target then
        let (a, b) := readyRuns rs (r.desc.target :: blocked)
        (a, r :: b)
      else
        let (a, b) := readyRuns rs blocked
        ((r.desc, x) :: a, b)
    | none =>
      let (a, b) := readyRuns rs (r.desc.target :: blocked)
      (a, r :: b)

/-- Write every completion that may be written, in starting order (R42). -/
def settle (s : State) : State :=
  let (now, rest) := readyRuns s.started []
  now.foldl (fun s x => writeCompletion x.1 x.2 s) { s with started := rest }

/-- A started descriptor ends with a status and RESULT. -/
def finish (uid status result : Nat) (s : State) : State :=
  settle { s with started := s.started.map fun r => if r.uid == uid then { r with done := r.done <|> some { status := status, result := result } } else r }

/-- As `finish`, its completion waiting for a heartwood record that names it in its reports (R462). -/
def finishGated (uid status result : Nat) (s : State) : State :=
  settle { s with started := s.started.map fun r => if r.uid == uid then { r with done := r.done <|> some { status := status, result := result }, gated := true } else r }

/-- A descriptor ends and its completion reports a recorded change: the record is queued and the completion
waits for it (R462). -/
def finishRecorded (type : Nat) (payload : List Byte) (session : Option Nat) (uid status result : Nat) (s : State) : State :=
  finishGated uid status result (hwPut type payload [.completion uid] s session)

/-- A descriptor ends with a status for which the spec states no RESULT: the RESULT is free (log entry 5, DESIGN CHOICE). -/
def finishFree (uid status : Nat) (s : State) : State := let (v, s) := takeFree 64 s; finish uid status v s

/-- The run with a number. -/
def runOf (s : State) (uid : Nat) : Option Run := s.started.find? fun r => r.uid == uid

/-- An origin has a started, incomplete descriptor: what FENCE waits for (R37). -/
def originBusy (s : State) (o : Origin) : Bool := s.started.any fun r => r.desc.origin == o

/-- The oldest unstarted descriptor of an origin (R42). -/
def headOf (s : State) (o : Origin) : Option Desc :=
  match o with
  | .ring n => match s.rings[n].pipe with | p :: _ => p.desc | [] => none
  | .engine e => s.engPipe[e].head?
  | .diag => s.diagPipe

/-- The oldest unstarted descriptor leaves its origin. -/
def popHead (o : Origin) (s : State) : State :=
  match o with
  | .ring n => setRing n (fun r => { r with pipe := r.pipe.tail }) s
  | .engine e => { s with engPipe := upd s.engPipe e List.tail }
  | .diag => { s with diagPipe := none }

/-- Start a descriptor: it joins the started ones under a number of its own. -/
def startRun (d : Desc) (s : State) : State :=
  { s with started := s.started ++ [{ uid := s.nextUid, desc := d }], nextUid := s.nextUid + 1 }

/-- FENCE holds a descriptor until every earlier one of its ring has completed (R37). -/
def fenceOk (s : State) (o : Origin) (d : Desc) : Bool := !d.fence || !originBusy s o

/-- Rings start in service order (R42): the head of a ring waits for the heads of earlier fetches from other rings that
have arrived and that no FENCE holds. -/
def inTurn (s : State) (o : Origin) : Bool :=
  match o with
  | .ring n =>
    (match s.rings[n].pipe with
    | p :: _ => (idxs 64).all fun m =>
      match s.rings[m].pipe with
      | q :: _ => (match q.desc with | some e => p.seq ≤ q.seq || !fenceOk s (.ring m) e | none => true)
      | [] => true
    | [] => true)
  | _ => true

/-- A descriptor may start (R37, R42). -/
def mayStart (s : State) (o : Origin) (d : Desc) : Bool := fenceOk s o d && inTurn s o

/-- A started descriptor names its session (R83): passing check 3 restarts the idle time. -/
def touchSession (n : Nat) (s : State) : State := { s with ses := updN s.ses n fun x => { x with lastNamed := s.dt } }

/-- Retire the unknown opcodes at the head of an origin, in their turn: check 1 of R40, status 0x09. `fuel` bounds the
places looked at. -/
def retireUnknown (o : Origin) : Nat → State → State
  | 0, s => s
  | n + 1, s =>
    match headOf s o with
    | none => s
    | some d =>
      if opKnown d.opcode || !mayStart s o d then s
      else retireUnknown o n (finishFree s.nextUid 0x09 (startRun d (popHead o s)))

/-- Places an origin can hold unstarted (R43, R361). -/
def pipeMax : Nat := 33

/-- Unknown opcodes at the heads of rings whose turn has come since are retired (R40, R42). -/
def retireTurns (s : State) : State :=
  (idxs 64).foldl (fun s (n : Fin 64) => if s.rings[n].pipe.isEmpty then s else retireUnknown (.ring n) pipeMax s) s

/-- Run the operation `op` for the oldest unstarted descriptor of an origin: it starts (R42), passes the
checks of R40 in order, and has its effect; with a failed check it has none (R40). The effect is given the
descriptor and the number it runs under. -/
def runOp (o : Origin) (op : Nat) (form : State → Desc → OpForm) (eff : Desc → Nat → State → State) (s : State) : State :=
  let s := retireUnknown o pipeMax s
  match headOf s o with
  | none => s
  | some d =>
    if d.opcode != op || !mayStart s o d then s
    else
      let uid := s.nextUid
      let f := form s d
      let s1 := startRun d (popHead o s)
      let s2 := match judge s d f with
        | some st =>
          let named := f.session && !d.task && st != 0x08 && st != 0x0F
          finishFree uid st (if named then touchSession d.session s1 else s1)
        | none => eff d uid (if f.session && !d.task then touchSession d.session s1 else s1)
      retireUnknown o pipeMax s2

/-- A descriptor operation as a meaning. -/
def runOut (o : Origin) (op : Nat) (form : State → Desc → OpForm) (eff : Desc → Nat → State → State) (s : State) : Out :=
  .next (whenOn (runOp o op form eff) s)

/-- TARGET is the device, SLICE 0xF, CH 0. -/
def Desc.device (d : Desc) : Bool := d.target == 0x0F00

/-- Whether a 64-bit range lies in shared SRAM (R390). -/
def inSram (a n : Nat) : Bool := a + n ≤ 0x00800000

/-- Result data into a buffer: shared SRAM, or host memory (R56, R407). -/
def toBuffer (host : Bool) (addr : Nat) (bytes : List Byte) (s : State) : State :=
  if host then dataOut (bytes.length + 1) addr bytes s else fabAccess .sram 0x22 addr bytes.length { s with sram := memWriteL s.sram addr bytes }

/-- Whether a descriptor's 64-bit addresses are host bus addresses: those of rings while the device is hosted. An engine
names device addresses (R37, R391); a tester's request does too (R37), since it comes over no host bus (log entry 11,
DESIGN CHOICE). -/
def hostAddressed (s : State) (d : Desc) : Bool := !s.host.selfHosted && (match d.origin with | .ring _ => true | _ => false)

end Sys2Proof.Machine
end

