-- ==== Sys2Proof/Machine/Switch.lean ====
section
/-! DEFINITION. Switch inputs: debounce, ladders, cleaning pulses, supply and temperature limits, the arming of poll
groups (file 08).
Readings of the spec: log entry 16, DEDUCED. -/

namespace Sys2Proof.Machine

def modSw (f : SwSt → SwSt) (s : State) : State := { s with sw := f s.sw }
def swi (s : State) (n : Nat) : Swi := (at? s.sw.inputs n).getD {}
def setSwi (n : Nat) (f : Swi → Swi) (s : State) : State := { s with sw := { s.sw with inputs := updN s.sw.inputs n f } }
/-- Fields of an input, a poll group and a band set of table 0x07 (R212). Before the first commit no entry acts. -/
def swiU (s : State) (n off w : Nat) : Nat := tblU s 7 (16 + 16 * n + off) w
def pollU (s : State) (g off w : Nat) : Nat := tblU s 7 (784 + 16 * g + off) w
def bandU (s : State) (b i off : Nat) : Nat := fld (tblU s 7 (912 + 32 * b + 4 * i + off) 2) 0 12
def swiEn (s : State) (n : Nat) : Bool := bitN (swiU s n 0 1) 0
def swiLadder (s : State) (n : Nat) : Bool := bitN (swiU s n 0 1) 2
def swiEdge (s : State) (n : Nat) : Nat := fld (swiU s n 0 1) 4 2
def swiTarget (n : Nat) : Nat := 0x0500 + n

/-- The band that contains a code (R204): 0xF when none does. -/
def bandOf (s : State) (n code : Nat) : Nat :=
  let b := swiU s n 7 1
  if 8 ≤ b then 0xF
  else ((List.range 8).find? fun i => bandU s b i 0 ≤ code && code ≤ bandU s b i 2).getD 0xF

/-! ### Cleaning pulses -/

/-- Pulses running (R199). -/
def cleaning (s : State) : Nat := (s.sw.inputs.toList.filter fun x => x.clean.isSome).length
/-- CLEAN (R199). -/
def swiCleans (s : State) (n : Nat) : Bool := swiEn s n && bitN (swiU s n 0 1) 3
/-- Pulse length of an input: CLEAN_MS, or 10 ms when CLEAN = 0 (R214). -/
def cleanLen (s : State) (n : Nat) : Nat := if bitN (swiU s n 0 1) 3 then swiU s n 5 1 else 10
/-- A SWI_CLEAN whose pulse ends completes with the length given (R214). -/
def cleanDone (n : Nat) (s : State) : State :=
  let x := swi s n
  match x.clean, x.cleanUid with
  | some (t0, _), some u => finish u 0 (sat 16 ((s.dt - t0) / 80000)) (setSwi n (fun x => { x with cleanUid := none }) s)
  | _, _ => s
/-- A pulse starts; one that runs on the input ends with it (log entry 16, DEDUCED). -/
def startClean (n : Nat) (uid : Option Nat) (s : State) : State :=
  let s := cleanDone n s
  setSwi n (fun x => { x with clean := some (s.dt, s.dt + ms (cleanLen s n)), cleanUid := uid, cleanWait := false }) s

/-- The lowest waiting closing that is still active receives the free pulse (R199). -/
def serveClean (s : State) : State :=
  if s.sw.thermCap || 8 ≤ cleaning s then s
  else match (List.range 48).find? fun n => (swi s n).cleanWait && (swi s n).level && swiCleans s n with
    | some n => startClean n none s
    | none => s

/-- A pulse ends; an SWI_CLEAN completes with the length given (R214). -/
def endClean (n : Nat) (s : State) : State :=
  if (swi s n).clean.isNone then s
  else serveClean (setSwi n (fun x => { x with clean := none, cleanUid := none }) (cleanDone n s))

/-- CLEANING_PULSE_END: R199, R214. -/
def execCleaningPulseEnd (n : Fin 48) (s : State) : Out :=
  .next (whenOn (fun s => match (swi s n).clean with | some (_, t) => if t ≤ s.dt then endClean n s else s | none => s) s)

/-! ### Samples and debounce -/

/-- The comparator of R200: the threshold is THR / 256 of VBAT_B, shifted by HYST / 256 of it once the input is active. -/
def comparator (c : Cmp) (was : Bool) (v vbat : Nat) : Bool :=
  if c.pol then ((c.thr : Int) - ((if was then c.hyst else 0 : Nat) : Int)) * (vbat : Int) < 256 * (v : Int) else 256 * v < (c.thr + (if was then c.hyst else 0)) * vbat
/-- POL, THR and HYST of an input. -/
def swiCmp (s : State) (n : Nat) : Cmp := { pol := bitN (swiU s n 0 1) 1, thr := swiU s n 2 1, hyst := swiU s n 3 1 }
/-- The ADC's code for a voltage in mV: 1.25 mV a code, 4,095 at most (R204). -/
def adcCode (v : Nat) : Nat := min 4095 (4 * v / 5)

/-- A sample is in order: after the one before it, and not ahead of time. -/
def debTakes (d : Deb) (t now : Nat) : Bool := (if d.since.isSome then d.last < t else d.last ≤ t) && t ≤ now
/-- A sample changes the level while the time `len` runs (R201). -/
def debBounces (len t r : Nat) (d : Deb) : Bool := match d.since with | some u => r != d.raw && t < u + len | none => false
/-- One sample at DT `t` reads `r` (R201): every change restarts the time. -/
def debStep (len t r : Nat) (d : Deb) : Deb :=
  if d.since.isSome && r == d.raw then { d with last := t }
  else { raw := r, since := some t, last := t, count := if debBounces len t r d then d.count + 1 else 0 }
/-- The level has held for `len`: since which DT. -/
def debHeld (len now : Nat) (d : Deb) : Option Nat := match d.since with | some u => if u + len ≤ now then some u else none | none => none
/-- The time starts again from the present sampled level (R202, R223), or from the next sample (R203). -/
def debAgain (now : Nat) (d : Deb) : Deb := { d with since := d.since.map fun _ => now, last := now, count := 0 }
def debFresh (now : Nat) : Deb := { last := now }

/-- DEB_MS of an input in ticks. -/
def swiDeb (s : State) (n : Nat) : Nat := ms (swiU s n 4 1)
/-- A sampled level is active. -/
def swiActs (ladder : Bool) (raw : Nat) : Bool := if ladder then raw != 0xF else raw == 1

/-- A report of a change since DT `t` (R203, R205, R206, R208); `parked`: it differs from the level held at park entry. -/
def swiReport (n t : Nat) (parked : Bool) (s : State) : State :=
  let v := swi s n
  let d1 := n + putF (b2n v.level) 8 1 + putF (b2n (parked || v.wakeRt.isSome)) 9 1 + putF (b2n v.initial) 10 1 + putF v.band 12 4 + putF (sat 8 v.deb.count) 16 8
  let (t, rt) := match v.wakeRt with | some r => (r, true) | none => (t, false)
  emitOnAt .base (swiU s n 6 1) 0x1380 (swiTarget n) d1 (if swiLadder s n then v.code else 0) t rt (setSwi n (fun v => { v with initial := false }) s)

/-- The debounced level follows a sampled level that has held for DEB_MS at DT `now`: R199, R201 to R206. -/
def swiSettle (n now : Nat) (s : State) : State :=
  let v := swi s n
  let ladder := swiLadder s n
  let band := if ladder then v.deb.raw else 0xF
  let level := swiActs ladder v.deb.raw
  match debHeld (swiDeb s n) now v.deb with
  | none => s
  | some t =>
    if !swiEn s n || s.sw.frozen || (v.valid && v.level == level && v.band == band) then s
    else
      let first := !v.valid
      let e := swiEdge s n
      let s := setSwi n (fun v => { v with level := level, band := band, valid := true, lastDt := t, actDt := if v.level && level then v.actDt else t
                                           stuck := v.stuck && level && v.level, initial := v.initial && !(first && e == 0) }) s
      let told := e != 0 && (first || ladder || e == 3 || (e == 1 && level) || (e == 2 && !level))
      let parked := first && (match v.parkLevel with | some (l, b) => l != level || b != band | none => false)
      let s := if told then swiReport n t parked s else s
      let s := setSwi n (fun v => { v with parkLevel := if first then none else v.parkLevel, wakeRt := if first || told then none else v.wakeRt }) s
      if level then
        if swiCleans s n && !v.level then
          (if (cleaning s < 8 || v.clean.isSome) && !s.sw.thermCap then startClean n none s else setSwi n (fun v => { v with cleanWait := true }) s)
        else s
      else endClean n (setSwi n (fun v => { v with cleanWait := false }) s)

/-- One sample of an input (R200, R201, R204); the level before it may have settled. -/
def readSwitch (n : Nat) (x : SwiReading) (s : State) : State :=
  if !swiEn s n || !debTakes (swi s n).deb x.dt s.dt then s
  else
    let s := swiSettle n x.dt s
    let ladder := swiLadder s n
    let len := swiDeb s n
    let r := if ladder then bandOf s n (adcCode x.v) else b2n (comparator (swiCmp s n) ((swi s n).deb.raw == 1) x.v x.vbat)
    setSwi n (fun v => { v with deb := debStep len x.dt r v.deb, bounces := sat 8 (v.bounces + b2n (debBounces len x.dt r v.deb))
                                code := if ladder then adcCode x.v else v.code, badBand := v.badBand && r == 0xF, badFrom := if ladder && r == 0xF then v.badFrom <|> some x.dt else none }) s

/-- SWI_STUCK: R205, once per activation. -/
def execSwiStuck (n : Fin 48) (s : State) : Out :=
  .next (whenOn (fun s =>
    let v := swi s n
    let t := swiU s n 8 2
    if swiEn s n && v.valid && v.level && !s.sw.frozen && !v.stuck && t != 0 && v.actDt + sec t ≤ s.dt then
      raise 192 (swiTarget n) (emitOn .base (swiU s n 6 1) 0x1381 (swiTarget n) n t (setSwi n (fun v => { v with stuck := true }) s))
    else s) s)

/-- A ladder whose sampled band has been 0xF for 100 ms raises LADDER_INVALID, once until a band is sampled (R204). -/
def ladderJudge (n : Nat) (s : State) : State :=
  let v := swi s n
  if swiEn s n && swiLadder s n && (match v.badFrom with | some t => t + ms 100 ≤ s.dt | none => false) && !v.badBand then
    raise 193 (swiTarget n) (setSwi n (fun v => { v with badBand := true }) s)
  else s

/-- IS_SUPPLY_LOW: R202; VBAT_B in mV. -/
def execIsSupplyLow (vbat : Nat) (s : State) : Out :=
  .next (whenOn (onlyIf (vbat < 6000 && !s.sw.frozen) fun s => raise 194 0xFFFF (modSw (fun x => { x with frozen := true }) (noteVbat vbat s))) s)

/-- IS_SUPPLY_RETURN: R202; VBAT_B has been there for 1 ms; every input restarts its debounce from its
present sampled level. -/
def execIsSupplyReturn (m : HeldV) (s : State) : Out :=
  .next (whenOn (onlyIf (6500 ≤ m.v && s.sw.frozen && m.since + ms 1 ≤ s.dt)
    fun s => modSw (fun x => { x with frozen := false, inputs := x.inputs.map fun v => { v with deb := debAgain s.dt v.deb } }) (noteVbat m.v s)) s)

/-- WET_THERMAL: R210; the sensor's reading in 1/16 °C. -/
def execWetThermal (t : Int) (s : State) : Out :=
  .next (whenOn (fun s =>
    if 2400 ≤ t && !s.sw.thermCap then
      raise 195 0xFFFF ((List.range 48).foldl (fun s n => endClean n s) (modSw (fun x => { x with thermCap := true }) s))
    else if t < 2160 && s.sw.thermCap then (List.range 8).foldl (fun s _ => serveClean s) (modSw (fun x => { x with thermCap := false }) s)
    else s) s)

/-! ### Descriptors -/

def swiRange (d : Desc) : Bool := d.slice == 5 && d.ch < 48

/-- RAW (R215): the last sampled level. -/
def swiRaw (s : State) (n : Nat) : Bool := (swi s n).deb.since.isSome && swiActs (swiLadder s n) (swi s n).deb.raw

/-- What SWI_QUERY asks of its descriptor. -/
def swiQueryForm (s : State) (d : Desc) : OpForm :=
  { idem := true, range := swiRange d, state := swiEn s d.ch }

/-- SWI_QUERY: R214. -/
def execSwiQuery (o : Origin) (s : State) : Out :=
  runOut o 0x1300 swiQueryForm
    (fun d uid s =>
      let v := swi s d.ch
      finish uid 0 (b2n v.level + 2 * b2n (swiRaw s d.ch) + 4 * b2n v.valid + putF v.band 4 4 + putF v.code 8 12 + putF v.lastDt 32 32) s) s

/-- Wetting current of an input in mA (R198, R199, R210). -/
def wetMa (s : State) (n : Nat) : Nat :=
  let w := if (swi s n).clean.isSome then 15 else [1, 2, 10, 15].getD (fld (swiU s n 1 1) 0 2) 0
  if s.sw.thermCap then min 2 w else w
/-- An input is active (R204): its level, for a ladder any band. -/
def swiActive (s : State) (n : Nat) : Bool := let x := swi s n; swiEn s n && x.valid && (if swiLadder s n then x.band != 0xF else x.level)
/-- The wetting currents of the active inputs, in mA (R215). -/
def wetNow (s : State) : Nat := ((List.range 48).map fun n => if swiActive s n then wetMa s n else 0).foldl (· + ·) 0
/-- The loss of the wetting sources as computed, in nW: each current times VBAT_B, in mV (R198). -/
def wetLoss (vbat : Nat) (s : State) : Nat := wetNow s * vbat * 1000

/-- Debounced levels, 0 where no level is known (R214, R215). -/
def swiLevels (s : State) : Nat := ((List.range 48).map fun n => if (swi s n).valid && (swi s n).level then 2 ^ n else 0).foldl (· + ·) 0

/-- What SWI_SNAPSHOT asks of its descriptor. -/
def swiSnapshotForm (_ : State) (d : Desc) : OpForm :=
  { idem := true, range := d.slice == 5 && d.ch == 0 }

/-- SWI_SNAPSHOT: R214. -/
def execSwiSnapshot (o : Origin) (s : State) : Out :=
  runOut o 0x1301 swiSnapshotForm (fun _ uid s => finish uid 0 (swiLevels s) s) s

/-- What SWI_CLEAN asks of its descriptor. -/
def swiCleanForm (s : State) (d : Desc) : OpForm :=
  { range := swiRange d, state := swiEn s d.ch && !swiLadder s d.ch && (swi s d.ch).level && !s.sw.thermCap, res := cleaning s < 8 }

/-- SWI_CLEAN: R214. -/
def execSwiClean (o : Origin) (s : State) : Out :=
  runOut o 0x1302
    swiCleanForm
    (fun d uid s => startClean d.ch (some uid) s) s

/-! ### Park, commit, link -/

/-- The root island arms the enabled poll groups at tc with the debounced levels as references (R207, R208, R441). -/
def armPolls (deep : Bool) (s : State) : State :=
  let lv := swiLevels s
  let mk := fun g : Fin 8 =>
    let f := pollU s g 10 1
    if bitN f 0 && (bitN f 1 || !deep) then
      some ({ mask := pollU s g 0 6, cmp := Vector.ofFn fun i : Fin 48 => swiCmp s i, refs := lv, period := pollU s g 6 2, settle := pollU s g 8 1, confirm := pollU s g 9 1,
              deep := bitN f 1, armRt := s.rt } : Poll)
    else none
  let ps : Vector (Option Poll) 8 := Vector.ofFn mk
  let arm := ((idxs 8).map fun g => if ps[g].isSome then 2 ^ g.val else 0).foldl (· + ·) 0
  modSw (fun x => { x with polls := ps, armed := arm
                           inputs := x.inputs.map fun v => { v with parkLevel := if v.valid then some (v.level, v.band) else none, wakeRt := none } }) s

/-- The root island polls in PARK and DEEP PARK, from tc on (R207, R441). -/
def rootPolls (s : State) : Bool := s.pw.rootOn && parkWatch s

/-- One poll of a group: each input whose comparator differs from its reference level, its differing polls in a row and the
RT of the first (R200, R207, R208). -/
def pollSeen (p : Poll) (vbat : Nat) (v : Vector Nat 48) (rt : Nat) : List (Nat × Nat × Nat) :=
  (idxs 48).filterMap fun (i : Fin 48) =>
    if bitN p.mask i && comparator p.cmp[i] (bitN p.refs i) v[i] vbat != bitN p.refs i then
      some (match p.seen.find? fun x => x.1 == i.val with | some x => (i.val, x.2.1 + 1, x.2.2) | none => (i.val, 1, rt))
    else none

/-- A poll group's period has passed since its last poll, or since arming its settle time (R207). -/
def pollDue (p : Poll) (rt : Nat) : Bool := match p.lastRt with | some r => r + p.period ≤ rt | none => p.armRt + p.settle ≤ rt

/-- POLL: R207, at the end of SETTLE; VBAT_B and the voltage of each input in mV, its source at 1 mA. -/
def execPoll (g : Fin 8) (m : PollReading) (s : State) : Out :=
  .next (match s.sw.polls[g] with
    | none => s
    | some p =>
      if rootPolls s && pollDue p s.rt then
        let p := { p with lastRt := some s.rt, seen := pollSeen p m.vbat m.v s.rt }
        modSw (fun x => { x with polls := x.polls.set g (some p) }) s
      else s)

/-- The confirmed difference at an input that a group's last poll has seen: the RT of its first (R208). -/
def pollWakes (s : State) (g : Fin 8) (i : Nat) : Option Nat :=
  match s.sw.polls[g] with
  | some p => (p.seen.find? fun x => x.1 == i && max 1 p.confirm ≤ x.2.1).map (·.2.2)
  | none => none

/-- A wake by polling is latched: POLL_STAT names it, and the input's report will carry the RT of the first differing poll
(R208, R215). -/
def pollLatch (g : Fin 8) (i : Nat) (s : State) : State :=
  match pollWakes s g i with
  | some t => setSwi i (fun v => { v with wakeRt := some t }) (modSw (fun y => { y with wakeIn := i, wakeGrp := g }) s)
  | none => s

/-- What of IS outlives the digital die's run: poll groups, POLL_STAT and, from a park entry, the levels held there (R206 to
R208, R215). -/
def swDieOff (park : Bool) (s : State) : State :=
  modSw (fun x => { polls := x.polls, armed := x.armed, wakeIn := x.wakeIn, wakeGrp := x.wakeGrp
                    inputs := x.inputs.map fun v => if park then { parkLevel := v.parkLevel, wakeRt := v.wakeRt } else {} }) s

/-- The link has failed: the first event that each input then has, delivered after the link's return, carries INITIAL
(R211). -/
def swLinkLost (s : State) : State := modSw (fun x => { x with inputs := x.inputs.map fun v => { v with initial := true } }) s

/-- The input registers that R203 makes a commit invalidate: EN, POL, LADDER; THR, HYST; BAND_SET. -/
def swiKey (m : Mem) (n : Nat) : Nat × Nat × Nat × Nat :=
  let a := 16 + 16 * n
  (Nat.land (memLe m a 1) 7, memLe m (a + 2) 1, memLe m (a + 3) 1, memLe m (a + 7) 1)

/-- A pulse whose input is not enabled any more ends; a SWI_CLEAN completes with 0x10 (R75). -/
def dropClean (n : Nat) (s : State) : State :=
  match (swi s n).cleanUid with
  | some u => finishFree u 0x10 (endClean n (setSwi n (fun x => { x with cleanUid := none }) s))
  | none => endClean n s

/-- The commit tick (R203): every input at the first commit after a start, later those newly enabled or changed. -/
def swCommit (first : Bool) (old new : Mem) (s : State) : State :=
  let f := fun (n : Fin 48) (v : Swi) => if first || swiKey old n != swiKey new n then { v with valid := false, level := false, band := 0xF, initial := true, stuck := false, badBand := false, badFrom := none, deb := debFresh s.dt } else v
  (List.range 48).foldl (fun s n => if swiEn s n then (if swiCleans s n then s else setSwi n (fun v => { v with cleanWait := false }) s) else dropClean n (setSwi n (fun v => { v with cleanWait := false }) s))
    (modSw (fun x => { x with inputs := mapFin x.inputs f }) s)

end Sys2Proof.Machine
end

