-- ==== Sys2Proof/Machine/Field.lean ====
section
/-! DEFINITION. The field die: inputs, wire break, time-stamped changes, outputs and their protection, logic silence
(file 09).
Readings of the spec: log entry 17, DEDUCED. -/

namespace Sys2Proof.Machine

def modFs (f : FsSt → FsSt) (s : State) : State := { s with fs := f s.fs }
def fio (s : State) (n : Nat) : Fio := (at? s.fs.fio n).getD {}
def setFio (n : Nat) (f : Fio → Fio) (s : State) : State := { s with fs := { s.fs with fio := updN s.fs.fio n f } }
/-- Fields of a channel's entry and of the block entry of table 0x08 (R234), in the field die's copy: 0 before the
first commit. -/
def fioU (s : State) (n off w : Nat) : Nat := memLe s.fs.cfg (32 + 16 * n + off) w
def fsU (s : State) (off w : Nat) : Nat := memLe s.fs.cfg (16 + off) w
def fioFlags (s : State) (n : Nat) : Nat := fioU s n 0 1
def fioEn (s : State) (n : Nat) : Bool := bitN (fioFlags s n) 0
def fioOut (s : State) (n : Nat) : Bool := bitN (fioFlags s n) 1
def fioFunc (s : State) (n : Nat) : Nat := fld (fioFlags s n) 2 2
def fioTarget (n : Nat) : Nat := 0x0600 + n
/-- TARGET of the field supply and the barrier (R216). -/
def fsTarget : Nat := 0x0620

/-! ### What the field die raises and reports goes on while no frames flow -/

/-- Frames flow between the digital die and the field die. -/
def fsFrames (s : State) : Bool := s.pw.dieOn && !dieDown s .field && s.fs.powered

/-- A raise of the field die: held on it while the digital die is off (R412). -/
def fsRaise (src target : Nat) (s : State) : State :=
  if s.pw.dieOn then raise src target s
  else modFlt (fun f => { f with held := f.held ++ [(.field, raiseNow src target s)] }) s
/-- An event of the field die (R237): held on it while the digital die is off or the link down. -/
def fsEventAt (ring code target d1 d2 time : Nat) (s : State) : State :=
  if s.pw.dieOn then emitOnAt .field ring code target d1 d2 time false s
  else { s with heldEvents := s.heldEvents ++ [(.field, .event ring code target d1 d2 time false)] }
/-- EVT_RING of a channel and of the block: none before the first commit (R516). -/
def fioRing (s : State) (n : Nat) : Nat := if s.fs.fresh then 0xFF else fioU s n 3 1
def fsRing (s : State) : Nat := if s.fs.fresh then 0xFF else fsU s 2 1
def fioEvent (n code d1 d2 : Nat) (s : State) : State := fsEventAt (fioRing s n) code (fioTarget n) d1 d2 s.dt s
def fsEvent (code d1 d2 : Nat) (s : State) : State := fsEventAt (fsRing s) code fsTarget d1 d2 s.dt s

/-! ### Outputs -/

/-- The collector has a field output in a safe state. -/
def fioOrdered (s : State) (n : Nat) : Bool := s.flt.c3 || inC2 s (.fio n)
/-- A safe state applies to a field output on the field die: by an order of the collector that has reached it, of R16, or of
R229. -/
def fioSafeNow (s : State) (n : Nat) : Bool := (fio s n).told || s.fs.fresh || (fio s n).silent

/-- The state an output would have now (R219, R227, R231, R232). -/
def fioWant (s : State) (n : Nat) : Bool :=
  let c := fio s n
  if !s.fs.powered || s.fs.parked || s.fs.stayOff || s.fs.supply != 0 || c.held.isSome || c.latched then false
  else if fioSafeNow s n then
    match s.fs.safe with
    | none => false
    | some l => match l.getD n 0 % 4 with | 1 => true | 2 => c.holdOn | _ => false
  else fioEn s n && fioOut s n && c.mode

/-- An output takes the state it would have now. -/
def applyFio (n : Nat) (s : State) : State :=
  let w := fioWant s n
  if (fio s n).on == w then s else setFio n (fun c => { c with on := w, swDt := s.dt }) s
def applyFios (s : State) : State := (List.range 32).foldl (fun s n => applyFio n s) s

/-- A field channel takes its SAFE state on the field die (R232). -/
def fioEnter (n : Nat) (s : State) : State :=
  applyFio n (setFio n (fun c => if c.safeAct then c else { c with safeAct := true, holdOn := c.on }) s)
/-- The collector orders a field channel into its safe state; without frames the order does not reach the field die, which
goes by its own silence (R12, R229). -/
def fioSafe (n : Nat) (s : State) : State := if fsFrames s then fioEnter n (setFio n (fun c => { c with told := true }) s) else s
/-- A field channel leaves a safe state, its requested mode OFF (R422). -/
def fioUnsafe (n : Nat) (s : State) : State :=
  let s := setFio n (fun c => { c with told := c.told && (fioOrdered s n || !fsFrames s), silent := c.silent && s.fs.unreported }) s
  if fioSafeNow s n then s else applyFio n (setFio n (fun c => { c with safeAct := false, mode := false }) s)

/-- FIO_STAT (R238). -/
def fioStat (s : State) (n : Nat) : Nat :=
  let c := fio s n
  putF c.bounces 24 8 + putF c.count 20 4 + putF (b2n c.latched) 15 1 + putF (b2n c.held.isSome) 14 1 + putF c.diag 11 3 + putF (b2n c.safeAct) 10 1 +
    putF (b2n c.wire) 9 1 + putF (b2n c.readback) 8 1 + putF (b2n c.on) 2 1 + putF (b2n c.valid) 1 1 + putF (b2n (c.level && !c.wire)) 0 1

/-- A current read at a channel (FIO_CUR). -/
def noteFioCur (n i : Nat) (s : State) : State := setFio n (fun c => { c with i := sat 16 i, peak := max c.peak (sat 16 i) }) s
def noteFl (v : Nat) (s : State) : State := modFs (fun x => { x with v := sat 16 v, vMin := min x.vMin (sat 16 v) }) s

/-! ### Descriptors -/

def fioRange (d : Desc) : Bool := d.slice == 6 && d.ch < 32

/-- What FIO_SET asks of its descriptor. -/
def fioSetForm (s : State) (d : Desc) : OpForm :=
  let c := fio s d.ch
  { idem := true, used := pm 24 8, range := fioRange d && d.u 24 8 ≤ 1
    state := fioEn s d.ch && fioOut s d.ch && c.held.isNone && !c.latched && !fioSafeNow s d.ch && !fioOrdered s d.ch && s.fs.supply == 0 && fsFrames s }

/-- FIO_SET: R236; `rb` the readback at completion. -/
def execFioSet (o : Origin) (rb : Bool) (s : State) : Out :=
  runOut o 0x1400
    fioSetForm
    (fun d uid s =>
      let s := applyFio d.ch (setFio d.ch (fun c => { c with mode := d.u 24 8 == 1, readback := rb }) s)
      finish uid 0 (b2n rb + putF (fio s d.ch).swDt 32 32) s) s

/-- What FIO_QUERY asks of its descriptor. -/
def fioQueryForm (s : State) (d : Desc) : OpForm :=
  { idem := true, range := fioRange d, state := fioEn s d.ch }

/-- FIO_QUERY: R236; `rb` the readback, `i` the current in the channel's step. -/
def execFioQuery (o : Origin) (rb : Bool) (i : Nat) (s : State) : Out :=
  runOut o 0x1401 fioQueryForm
    (fun d uid s =>
      let s := noteFioCur d.ch i (setFio d.ch (fun c => if fioOut s d.ch then { c with readback := rb } else c) s)
      let c := fio s d.ch
      let r := b2n (c.level && !c.wire) + 2 * b2n c.valid + 4 * b2n c.wire + 8 * b2n c.on + 16 * b2n c.readback + putF c.diag 5 3 + putF c.i 8 16
      finish uid 0 (r + putF (if fioOut s d.ch then c.swDt else c.lastDt) 32 32) s) s

/-- A bitmap over the field channels. -/
def fioBits (s : State) (f : Fio → Bool) : Nat := ((List.range 32).map fun n => if f (fio s n) then 2 ^ n else 0).foldl (· + ·) 0
/-- FS_LEVEL (R238). -/
def fsLevels (s : State) : Nat := fioBits s fun c => c.valid && c.level && !c.wire

/-- What FIO_SNAPSHOT asks of its descriptor. -/
def fioSnapshotForm (_ : State) (d : Desc) : OpForm :=
  { idem := true, range := d.slice == 6 && d.ch == 0 }

/-- FIO_SNAPSHOT: R236. -/
def execFioSnapshot (o : Origin) (s : State) : Out :=
  runOut o 0x1402 fioSnapshotForm
    (fun _ uid s => finish uid 0 (fsLevels s + 2 ^ 32 * fioBits s (·.wire)) s) s

/-- What FIO_CLEAR asks of its descriptor. -/
def fioClearForm (s : State) (d : Desc) : OpForm :=
  { idem := true, range := fioRange d, state := fioEn s d.ch && fioOut s d.ch }

/-- FIO_CLEAR: R227, R236. -/
def execFioClear (o : Origin) (s : State) : Out :=
  runOut o 0x1403 fioClearForm
    (fun d uid s =>
      let before := fld (fioStat s d.ch) 0 16
      finish uid 0 before (applyFio d.ch (setFio d.ch (fun c => { c with count := 0, latched := false, mode := false }) s))) s

/-- What FS_QUERY asks of its descriptor. -/
def fsQueryForm (_ : State) (d : Desc) : OpForm :=
  { idem := true, range := d.target == fsTarget }

/-- FS_QUERY: R236; FL_PLUS in mV, the longest frame gap read in µs. -/
def execFsQuery (o : Origin) (v gap : Nat) (s : State) : Out :=
  runOut o 0x1404 fsQueryForm
    (fun _ uid s =>
      let g := sat 16 (max gap s.fs.gapMax)
      let s := modFs (fun x => { x with gapMax := 0 }) (noteFl v s)
      finish uid 0 (s.fs.v + putF s.fs.edgeDrop 16 16 + putF g 32 16) s) s

/-! ### Supply and barrier -/

/-- The field die loses its power: outputs off, its logic starts anew at the next power-on (R218, R231). -/
def fsUnpowered (s : State) : State :=
  let s := applyFios (modFs (fun x => { x with powered := false }) s)
  { s with fs := { v := s.fs.v, vMin := s.fs.vMin, powered := false, stayOff := s.fs.stayOff }, safeHere := s.safeHere.filter (· != .field) }

/-- A supply condition of R219 begins. -/
def supplyCond (k v : Nat) (s : State) : State :=
  let s := applyFios (modFs (fun x => { x with supply := k }) (noteFl v s))
  fsRaise (223 + k) fsTarget (fsEvent 0x1483 k (sat 16 v) s)

/-- FS_SUPPLY_LOW: R219, held for 1 ms; a logic kept alive by the backup needs 12 V (R218). -/
def execFsSupplyLow (x : HeldV) (s : State) : Out :=
  .next (onlyIf (s.fs.powered && x.v < 16500) (fun s =>
    let s := if s.fs.supply == 1 || s.dt < x.since + ms 1 then noteFl x.v s else supplyCond 1 x.v s
    if s.fs.backup && x.v < 12000 then fsUnpowered s else s) s)

/-- FS_SUPPLY_HIGH: R219, held for 1 ms. -/
def execFsSupplyHigh (x : HeldV) (s : State) : Out :=
  .next (onlyIf (s.fs.powered && 33500 < x.v && s.fs.supply != 2 && x.since + ms 1 ≤ s.dt) (supplyCond 2 x.v) s)

/-- FS_SUPPLY_NORMAL: R219, held for 10 ms. -/
def execFsSupplyNormal (x : HeldV) (s : State) : Out :=
  .next (onlyIf (s.fs.powered && x.since + ms 10 ≤ s.dt && ((s.fs.supply == 1 && 17000 ≤ x.v) || (s.fs.supply == 2 && x.v ≤ 33000))) (fun s =>
    fsEvent 0x1483 0 (sat 16 x.v) (applyFios (modFs (fun f => { f with supply := 0 }) (noteFl x.v s)))) s)

/-- The power across the barrier fails, FL_PLUS at `v` mV: the backup keeps the logic alive from 12 V (R218). -/
def barrierLost (v : Nat) (s : State) : State :=
  if !s.fs.powered || s.fs.backup then s
  else if 12000 ≤ v then fsRaise 234 fsTarget (modFs (fun x => { x with backup := true }) (noteFl v s)) else fsUnpowered (noteFl v s)
/-- The power across the barrier is there (R218, R231). -/
def barrierBack (s : State) : State := modFs (fun x => if x.powered then { x with backup := false } else { v := x.v, vMin := x.vMin, powered := true, stayOff := x.parked || x.stayOff }) s

/-- Step 7 of a start at the field die: its power, and SAFE until the first commit (R16, R231). -/
def fsStart (s : State) : State :=
  applyFios (modFs (fun x => { x with fresh := true, fio := x.fio.map fun c => if c.safeAct then c else { c with safeAct := true, holdOn := c.on } }) (barrierBack s))

/-- BARRIER_POWER_FAIL: R218; FL_PLUS in mV. -/
def execBarrierPowerFail (v : Nat) (s : State) : Out := .next (barrierLost v s)

/-- BARRIER_POWER_RETURN: R218, R231. -/
def execBarrierPowerReturn (s : State) : Out := .next (whenClocked barrierBack s)

/-! ### Inputs -/

/-- FIO_CHANGE's details (R237). -/
def fioChange (n : Nat) (level initial stamped : Bool) (bounces i time : Nat) (s : State) : State :=
  fsEventAt (fioRing s n) 0x1480 (fioTarget n)
    (n + putF (b2n level) 8 1 + putF (b2n initial) 9 1 + putF (b2n stamped) 10 1 + putF (sat 8 bounces) 16 8) (sat 16 i) time s

/-- A field input reads its samples. -/
def fioReads (s : State) (n : Nat) : Bool := s.fs.powered && fioEn s n && !fioOut s n
/-- The time for which a sampled level must hold: DEB_MS, or FILT_US of a time-stamped input (R222, R224). -/
def fioLen (s : State) (n : Nat) : Nat := if fioFunc s n == 2 then us (fioU s n 4 2) else ms (fioU s n 2 1)

/-- A time-stamped change enters the field die's queue, or finds it full and is dropped (R225). -/
def edgeIn (e : Edge) (s : State) : State :=
  if s.fs.queue.length < 64 then modFs (fun f => { f with queue := f.queue ++ [e] }) s
  else
    let firstDrop := !s.fs.overTold
    let s := modFs (fun f => { f with overTold := true, drops := f.drops + 1, edgeDrop := sat 16 (f.edgeDrop + 1) }) s
    if firstDrop then fsRaise 232 fsTarget s else s

/-- A field input's level follows a sampled level that has held at DT `now` (R201, R203, R205, R222 to R225). -/
def fioSettle (n now : Nat) (s : State) : State :=
  let c := fio s n
  let level := c.deb.raw == 1
  match debHeld (fioLen s n) now c.deb with
  | none => s
  | some t =>
    if !fioReads s n || c.wire || (c.valid && c.level == level) then s
    else
      let first := !c.valid
      let e := fld (fioU s n 1 1) 0 2
      let stamped := fioFunc s n == 2
      let stamp := if stamped then t - t % 80 else t
      let s := setFio n (fun c => { c with level := level, valid := true, initial := false, lastDt := stamp }) s
      if stamped then edgeIn { ch := n, level := level, initial := first || c.initial, stamp := stamp, bounces := c.deb.count, i := c.i } s
      else if e != 0 && (first || e == 3 || (e == 1 && level) || (e == 2 && !level)) then fioChange n level first false c.deb.count c.i stamp s else s

/-- The comparator of a field input, `v` in mV: the typical thresholds of Type 1 or Type 3 (R220, log entry 17, DEDUCED). -/
def fioComparator (type3 was : Bool) (v : Int) : Bool :=
  if type3 then (if was then 7500 ≤ v else 9000 ≤ v) else (if was then 9500 ≤ v else 11500 ≤ v)

/-- One sample of a field input (R220); the level before it may have settled. -/
def readField (n : Nat) (x : FioReading) (s : State) : State :=
  if !fioReads s n || !debTakes (fio s n).deb x.dt s.dt then s
  else
    let s := fioSettle n x.dt s
    let len := fioLen s n
    let r := b2n (fioComparator (bitN (fioFlags s n) 4) ((fio s n).deb.raw == 1) x.v)
    noteFioCur n x.i (setFio n (fun c => { c with deb := debStep len x.dt r c.deb, bounces := sat 8 (c.bounces + b2n (debBounces len x.dt r c.deb)) }) s)

/-- The samples of a field input, then the time until now. -/
def fioTrace (n : Nat) (l : List FioReading) (s : State) : State := fioSettle n s.dt (l.foldl (fun s x => readField n x s) s)
/-- A field input's debounce is complete (R222). -/
def debounceField (n : Fin 32) (l : List FioReading) (s : State) : State := if 2 ≤ fioFunc s n then s else fioTrace n l s

/-- FIO_WIRE: R223; the current in 10 µA steps and the DT since which it has been below WB_LO, or not below. -/
def execFioWire (n : Fin 32) (i since : Nat) (s : State) : Out :=
  .next (onlyIf (s.fs.powered && fioEn s n && !fioOut s n && fioFunc s n == 1 && s.fs.supply != 1 && since + ms (fioU s n 8 2) ≤ s.dt) (fun s =>
    let c := fio s n
    let low := decide (i < fioU s n 6 2)
    let s := noteFioCur n i s
    if low && !c.wire then
      fsRaise 226 (fioTarget n) (fioEvent n 0x1481 (n + 256) (sat 16 i) (setFio n (fun c => { c with wire := true, level := false }) s))
    else if !low && c.wire then
      fioEvent n 0x1481 n (sat 16 i) (setFio n (fun c => { c with wire := false, valid := false, level := false, initial := true, deb := debAgain s.dt c.deb }) s)
    else s) s)

/-- FIO_CHANGE: R224, R225; the samples since the last one, then the time until now. -/
def execFioChange (n : Fin 32) (l : List FioReading) (s : State) : Out := .next (onlyIf (fioFunc s n == 2) (fioTrace n l) s)

/-- 20 µs have passed since the last change was delivered (R225). -/
def barrierFree (f : FsSt) (now : Nat) : Bool := match f.lastDelivery with | some t => t + us 20 ≤ now | none => true

/-- EDGE_QUEUE_DELIVERY: the oldest change passes the barrier, 20 µs at least after the one before (R225, R230). -/
def execEdgeQueueDelivery (s : State) : Out :=
  .next (onlyIf (fsFrames s && !s.fs.unreported && barrierFree s.fs s.dt) (fun s =>
    match s.fs.queue with
    | [] => s
    | e :: rest =>
      let s := modFs (fun f => { f with queue := rest, overTold := f.overTold && !rest.isEmpty, lastDelivery := some s.dt }) s
      let s := fioChange e.ch e.level e.initial true e.bounces e.i e.stamp s
      if rest.length < 32 && s.fs.drops != 0 then fsEvent 0x1485 (w32 s.fs.drops) 0 (modFs (fun f => { f with drops := 0 }) s) else s) s)

/-! ### Output protection and diagnosis -/

/-- FIO_PROT: R227; limitation since a DT, or the sensor at T_SD; the current in mA. -/
def execFioProt (n : Fin 32) (hot : Bool) (i since : Nat) (s : State) : Out :=
  .next (onlyIf ((fio s n).on && (hot || (700 ≤ i && since + ms 9 ≤ s.dt))) (fun s =>
    let c := fio s n
    let latch := c.count == fioU s n 14 1
    let cause := if hot then 2 else 1
    let s := setFio n (fun c => { c with held := if latch then none else some s.dt, latched := latch, mode := c.mode && !latch, lastProt := s.dt }) (noteFioCur n i s)
    let s := fioEvent n 0x1482 (n + putF cause 8 4 + putF c.count 12 4 + putF (b2n latch) 16 1) (sat 16 i) (applyFio n s)
    let s := fsRaise (226 + cause) (fioTarget n) s
    if latch then fsRaise 229 (fioTarget n) s else s) s)

/-- FIO_RESTART: R227; the sensor's reading in 1/16 °C. -/
def execFioRestart (n : Fin 32) (t : Int) (s : State) : Out :=
  .next (match (fio s n).held with
    | some h => onlyIf (h + ms 100 ≤ s.dt && t ≤ 2400) (fun s => applyFio n (setFio n (fun c => { c with held := none, count := sat 4 (c.count + 1) }) s)) s
    | none => s)

/-- FIO_COUNT_RESET: R227. -/
def execFioCountReset (n : Fin 32) (s : State) : Out :=
  .next (onlyIf ((fio s n).lastProt + sec 10 ≤ s.dt) (setFio n fun c => { c with count := 0 }) s)

/-- A finding's criterion has held long enough (R228): a short, or none, 5 ms, open load 50 ms, and 5 ms after a switching. -/
def fioFound (s : State) (n : Fin 32) (x : FioFinding) (i since : Nat) : Bool :=
  let c := fio s n
  let from' := max since (c.swDt + ms 5)
  match x with
  | .good => from' + ms 5 ≤ s.dt && (!c.on || !bitN (fioFlags s n) 6 || 10 * fioU s n 12 2 ≤ i)
  | .shortGround => c.on && from' + ms 5 ≤ s.dt
  | .shortBattery => !c.on && from' + ms 5 ≤ s.dt
  | .openLoad => c.on && bitN (fioFlags s n) 6 && i < 10 * fioU s n 12 2 && max since c.swDt + ms 50 ≤ s.dt
/-- The diagnosis result of a finding. -/
def fioResult : FioFinding → Nat
  | .good => 1
  | .openLoad => 2
  | .shortGround => 3
  | .shortBattery => 4
/-- The readback of an output with a finding. -/
def fioReadback (was on : Bool) : FioFinding → Bool
  | .good => on
  | .openLoad => was
  | .shortGround => false
  | .shortBattery => true

/-- FIO_DIAG: R228; the fault is raised each time, the event written when the result changed; `since` the DT from which the criterion has held, `i` the current in mA. -/
def execFioDiag (n : Fin 32) (x : FioFinding) (i since : Nat) (s : State) : Out :=
  .next (onlyIf (s.fs.powered && fioEn s n && fioOut s n && s.fs.supply == 0) (fun s =>
    let c := fio s n
    let r := fioResult x
    if !fioFound s n x i since then s
    else
      let s := noteFioCur n i (setFio n (fun c => { c with diag := r, readback := fioReadback c.readback c.on x }) s)
      let s := if c.diag == r then s else fioEvent n 0x1486 (n + putF r 8 3) (sat 16 i) s
      if r == 1 then s else fsRaise (if r == 2 then 231 else 230) (fioTarget n) s) s)

/-! ### Logic silence -/

/-- SILENCE_MS in force, rounded up to 4 ms at behaviour level 1 (R229); none before the field die has an entry. -/
def silenceMs (s : State) : Option Nat :=
  let t := fsU s 0 2
  if t == 0 then none else some (if level s == 1 then (t + 3) / 4 * 4 else t)

/-- SILENCE_TIMEOUT: R229; the time since the last valid frame, in µs. Every output takes SAFE by the die's own logic. -/
def execSilenceTimeout (gap : Nat) (s : State) : Out :=
  .next (match silenceMs s with
    | some t =>
      onlyIf (s.fs.powered && !s.fs.parked && !s.fs.unreported && 1000 * t ≤ gap) (fun s =>
        let s := modFs (fun x => { x with unreported := true, fio := x.fio.map fun c => { c with silent := true } }) s
        (List.range 32).foldl (fun s n => fioEnter n s) s) s
    | none => s)

/-- FS_SILENCE: frames have resumed; the silence in µs and the DT of the last valid frame before it (R230). -/
def execFsSilence (len last : Nat) (s : State) : Out :=
  .next (onlyIf (fsFrames s && s.fs.unreported) (fun s =>
    let s := modFs (fun x => { x with unreported := false, gapMax := max x.gapMax len }) s
    raise 233 fsTarget (fsEvent 0x1484 (sat 32 len) (w32 last) s)) s)

/-! ### Start, commit, park -/

/-- Frames reach the field die again: the collector's orders are delivered (R12, R412). -/
def fsLinkBack (s : State) : State := (List.range 32).foldl (fun s n => if fioOrdered s n then fioSafe n s else if (fio s n).told then fioUnsafe n s else s) s

/-- The SAFE entries of the stored set reach the field die: outputs in SAFE until the first commit (R16, R231). -/
def fsSafeEntries (s : State) : State :=
  let l := (List.range 32).map fun n => if Nat.land (storedU s 8 (32 + 16 * n) 1) 3 == 3 then storedU s 16 (144 + n) 1 else 0
  applyFios (modFs (fun x => { x with safe := some l, fresh := true, fio := x.fio.map fun c => if c.safeAct then c else { c with safeAct := true, holdOn := c.on } }) s)

/-- What of a channel's entry makes it start anew: EN, DIR and, of an input, FUNC and TYPE, EDGE excepted (R203, R222,
R235). -/
def fioKey (m : Mem) (n : Nat) : Nat := let f := memLe m (32 + 16 * n) 1; Nat.land f (if bitN f 1 then 0x03 else 0x1F)

/-- The commit tick at the field die (R75, R203, R222, R231). -/
def fsCommit (first : Bool) (old new : Mem) (safe : Mem) (s : State) : State :=
  let change := fun (n : Fin 32) (c : Fio) =>
    let c := { c with told := fioOrdered s n, safeAct := c.safeAct && (fioOrdered s n || c.silent) }
    let c := if first || fioKey old n != fioKey new n then { c with valid := false, level := false, initial := true, wire := false, deb := debFresh s.dt, mode := false } else c
    if fioKey old n != fioKey new n then { c with count := 0, latched := false, held := none, diag := 0 } else c
  let l := (List.range 32).map fun n => if Nat.land (memLe new (32 + 16 * n) 1) 3 == 3 then memLe safe (144 + n) 1 else 0
  applyFios (modFs (fun x => { x with cfg := new, safe := some l, fresh := false, parked := false, stayOff := false, fio := mapFin x.fio change }) s)

/-- An output with KEEP_AWAKE = 1 is on (R231). -/
def fsKeepsAwake (s : State) : Bool := (List.range 32).any fun n => (fio s n).on && bitN (fioFlags s n) 5

/-- Park entry: outputs off, the silence timer and the barrier's power stop (R231). -/
def fsPark (s : State) : State :=
  let s := applyFios (modFs (fun x => { x with parked := true }) s)
  modFs (fun x => { parked := true, v := x.v, vMin := x.vMin }) s

end Sys2Proof.Machine
end

