-- ==== Sys2Proof/Machine/Rings.lean ====
section
/-! DEFINITION. Rings, doorbells, descriptor fetch, interrupt coalescing, stall drops, and the operations of
family 0x00 (file 02).
Readings of the spec: log entry 11, DEDUCED. -/

namespace Sys2Proof.Machine

/-- The Z964's index of a submission ring is published in its shadow (R24). -/
def publishIdx (n : Fin 64) (s : State) : State :=
  let r := s.rings[n]
  if r.shadow == 0 then s else ringWrite (.shadow n r.shadow r.idx) r.shadow (leBytes 4 r.idx) s

/-- Whether a doorbell value passes both conditions of R26. -/
def doorbellFits (r : Ring) (v : Nat) : Bool :=
  sub32 v r.db ≤ ringSize r && (if r.role then sub32 r.idx v ≤ ringSize r else sub32 v r.idx ≤ ringSize r)

/-- Every descriptor between RING_IDX and the accepted producer index is consumed unexecuted under one drop
record, which takes the kept-back slot, or, while that one holds a drop record, a released slot (R49). -/
def stallDrop (n : Fin 64) (s : State) : State :=
  let r := s.rings[n]
  match fin? 64 r.compRing with
  | none => s
  | some c =>
    let rec' : Record := { opcode := 0, status := 0x14, kind := false, drop := true, target := 0x0F00, ringFld := n,
                           tag := 0, time := s.dt, result := r.idx + 2 ^ 32 * sub32 r.db r.idx }
    let at' := s.rings[c].idx
    let s := publishIdx n (setRing n (fun r => { r with idx := r.db, rpcCount := w32 (r.rpcCount + sub32 r.db r.idx), stalled := false, stallStart := none }) s)
    setRing c (fun r => { r with keptBack := r.keptBack <|> some at' }) (putRecord c rec' false s)

/-- Stall drop records that wait for a slot of ring `c` are written into the released slots, `k` at most, before
any other record (R49). -/
def stallDropsInto (c : Fin 64) : Nat → List (Fin 64) → State → State
  | 0, _, s => s
  | _, [], s => s
  | k + 1, n :: ns, s =>
    if s.rings[n].stalled && s.rings[n].compRing == c.val then stallDropsInto c k ns (stallDrop n s) else stallDropsInto c (k + 1) ns s

/-- Index `k` lies before the consumer index `db`: its slot has been released (R25). -/
def slotReleased (k db : Nat) : Bool := let d := sub32 db k; 0 < d && d < 2 ^ 31

/-- A write of DB_n (R26 to R28): accepted, refused with DB_BAD and source 2, or without effect when the value
is already held. Released slots first take waiting drop records (R48, R49). -/
def doorbellWrite (n : Fin 64) (v : Nat) (s : State) : State :=
  let r := s.rings[n]
  if !r.active || !doorbellFits r v then raise 2 (0x0900 + n) (setRing n (fun r => { r with dbBad := true }) s)
  else if v == r.db then s
  else
    let freed := sub32 v r.db
    let s := setRing n (fun r => { r with db := v, keptBack := r.keptBack.filter fun k => !slotReleased k v }) s
    let s := if r.role then flushDrops n (stallDropsInto n freed (idxs 64) s) else s
    watchStalls s

/-- The configuration check of START (R32). -/
def startCheck (s : State) (r : Ring) : Bool :=
  4 ≤ r.sizeLog2 && r.sizeLog2 ≤ 16 && r.base % 4096 == 0 && r.shadow % 4 == 0 &&
  (r.role || (match at? s.rings r.compRing with | some c => c.role | none => false)) &&
  (!s.host.selfHosted || (inSram r.base (32 * ringSize r) && (r.shadow == 0 || inSram r.shadow 4)))

/-- START on an inactive ring (R32, R48). It does not write the shadow index, and it forgets unsignalled records and a
running TIMER_US without a message (log entry 11, DESIGN CHOICE). -/
def startRing (n : Fin 64) (s : State) : State :=
  if startCheck s s.rings[n] then
    let fresh := fun r : Ring =>
      { r with idx := 0, db := 0, active := true, stopping := false, evtDrop := 0, pendDrop := 0, unsignalled := 0,
               irqStart := none, stallStart := none, keptBack := none, stalled := false }
    watchStalls (setRing n fresh s)
  else raise 3 (0x0900 + n) (setRing n (fun r => { r with cfgIgn := true }) s)

/-- Data that no requester wants is held until its discard time (R397). -/
def holdData (at' : List Nat) (s : State) : State := { s with host := { s.host with delayed := s.host.delayed ++ at' } }

/-- The block of an origin's head is wanted no more (R397). -/
def dropBlock (o : Origin) (s : State) : State :=
  let mine := s.host.blocks.filter fun b => b.origin == o
  holdData (mine.map fun b => b.parts.map (·.2.2)).flatten { s with host := { s.host with blocks := s.host.blocks.filter fun b => b.origin != o } }

/-- The fetched descriptors of a stopping ring that have arrived complete with status 0x10 (R33); places whose read is still
out stay until it returns. -/
def cancelPipe (n : Fin 64) : Nat → State → State
  | 0, s => s
  | k + 1, s =>
    match s.rings[n].pipe with
    | { desc := some d, .. } :: _ => cancelPipe n k (finishFree s.nextUid 0x10 (startRun d (popHead (.ring n) (dropBlock (.ring n) s))))
    | _ => s

/-- STOP on an active ring (R33). A drop record of R49 that still waits for a released slot is given up, and its
descriptors stay unconsumed (log entry 11, DESIGN CHOICE). -/
def stopRing (n : Fin 64) (s : State) : State :=
  let r := s.rings[n]
  if !r.active then s
  else if r.role then
    if (idxs 64).any fun m => s.rings[m].active && !s.rings[m].role && s.rings[m].compRing == n.val then
      setRing n (fun r => { r with cfgIgn := true }) s
    else setRing n (fun r => { r with active := false }) s
  else if r.stopping then s
  else cancelPipe n pipeMax (setRing n (fun r => { r with stopping := true, stalled := false, stallStart := none }) s)

/-- The RW fields of RING_CFG (R30). -/
def ringCfgFields (v : Nat) (r : Ring) : Ring :=
  { r with compRing := fld v 18 6, prio := bitN v 17, role := bitN v 16, sizeLog2 := fld v 8 5, stallMs := fld v 0 8 }

/-- A write of RING_CFG (R31 to R33). -/
def ringCfgWrite (n : Fin 64) (v : Nat) (s : State) : State :=
  let start := bitN v 31
  let stop := bitN v 30
  if start && stop then setRing n (fun r => { r with cfgIgn := true }) s
  else if s.rings[n].active then
    if stop then stopRing n s else setRing n (fun r => { r with cfgIgn := true }) s
  else
    let s := setRing n (ringCfgFields v) s
    if start then startRing n s else s

/-- A write of one half of a 64-bit register value. -/
def setLo (x v : Nat) : Nat := x / 2 ^ 32 * 2 ^ 32 + w32 v
def setHi (x v : Nat) : Nat := w32 v * 2 ^ 32 + w32 x

/-- A write of RING_BASE, RING_SHADOW or RING_IRQ: only while the ring is inactive (R31). -/
def ringSetup (n : Fin 64) (f : Ring → Ring) (s : State) : State :=
  if s.rings[n].active then setRing n (fun r => { r with cfgIgn := true }) s else setRing n f s

/-- A write of a set-up register of a ring (R29, R31, R35). -/
def ringSetupWrite (n : Fin 64) (g : RingReg) (v : Nat) (s : State) : State :=
  match g with
  | .baseLo => ringSetup n (fun r => { r with base := setLo r.base v }) s
  | .baseHi => ringSetup n (fun r => { r with base := setHi r.base v }) s
  | .shadowLo => ringSetup n (fun r => { r with shadow := setLo r.shadow v }) s
  | .shadowHi => ringSetup n (fun r => { r with shadow := setHi r.shadow v }) s
  | .irq => ringSetup n (fun r => { r with timerUs := fld v 16 16, irqEn := bitN v 15, count := fld v 0 8 }) s
  | .cfg => ringCfgWrite n v s

/-! ### Fetch -/

/-- How many descriptors one fetch from ring `n` covers (R42, R43, R47, R393): 0 where none may be fetched. -/
def fetchCount (s : State) (n : Fin 64) : Nat :=
  let r := s.rings[n]
  if !fetchableButCredit s n then 0
  else
    let cr := match at? s.rings r.compRing with | some c => credits c | none => 0
    min (readMax s / 32) (min (sub32 r.db r.idx) (min cr (min (32 - inFlight s n) (min (512 - inFlightAll s) (ringSize r - r.idx % ringSize r)))))

/-- The first ring of a class, from its turn on, that has something to fetch (R42). -/
def pickRing (s : State) (high : Bool) (turn : Nat) : Option (Fin 64) :=
  let order := (idxs 64).filter (fun n => turn ≤ n.val) ++ (idxs 64).filter (fun n => n.val < turn)
  order.find? fun n => s.rings[n].prio == high && 0 < fetchCount s n

/-- A read sent with a tag (R393, R396). -/
def sendRead (t : Fin 128) (rd : Reader) (addr bytes : Nat) (s : State) : State :=
  { s with out := s.out ++ [.readReq t addr bytes]
           host := { s.host with tags := s.host.tags.set t (.out rd addr bytes s.dt), tagIssued := w32 (s.host.tagIssued + 1) } }

/-- Descriptors that lie in memory bytes, 32 each, under the number of their fetch. -/
def descsOf (n : Fin 64) (seq first : Nat) : Nat → List Byte → List Piped
  | 0, _ => []
  | k + 1, bs =>
    { index := first, seq := seq, desc := some { origin := .ring n, index := first, raw := BitVec.ofNat 256 (ofLe (bs.take 32)) } } ::
      descsOf n seq (w32 (first + 1)) k (bs.drop 32)

/-- The fetch of `k` descriptors from ring `n` (R42): their places and credits are taken and the consumer
index passes them; hosted, one read is sent (R393); self-hosted, they are read from SRAM (R59). The index passes a
hosted descriptor as its read is sent, before its bytes have come (log entry 11, DESIGN CHOICE). -/
def fetchFrom (n : Fin 64) (k : Nat) (s : State) : State :=
  let r := s.rings[n]
  let first := r.idx
  let addr := entryAddr r first
  let seq := s.nextUid
  let s := { s with nextUid := s.nextUid + 1, rings := updN s.rings r.compRing fun c => { c with reserved := c.reserved + k } }
  let s := setRing n (fun r => { r with idx := w32 (r.idx + k), rpcCount := w32 (r.rpcCount + k), stallStart := none }) s
  let s := publishIdx n s
  let s :=
    if s.host.selfHosted then
      retireUnknown (.ring n) pipeMax <| fabAccess .sram 0x21 addr (32 * k)
        (setRing n (fun r => { r with pipe := r.pipe ++ descsOf n seq first k (memBytes s.sram addr (32 * k)) }) s)
    else
      match freeTag s with
      | none => s
      | some t =>
        sendRead t (.fetch n first k) addr (32 * k)
          (setRing n (fun r => { r with pipe := r.pipe ++ (List.range k).map fun i => { index := w32 (first + i), seq := seq, desc := none } }) s)
  watchStalls s

/-- One fetch from the next ring in service order (R42). -/
def fetchNext (s : State) : State :=
  if !fetchAllowed s then s
  else
    match pickRing s true s.nextHigh with
    | some n => fetchFrom n (fetchCount s n) { s with nextHigh := (n + 1) % 64 }
    | none =>
      match pickRing s false s.nextNormal with
      | some n => fetchFrom n (fetchCount s n) { s with nextNormal := (n + 1) % 64 }
      | none => s

/-- The bytes of a fetch arrive: each covered place holds its descriptor (R42). -/
def deliverFetch (n : Fin 64) (first k : Nat) (bytes : List Byte) (s : State) : State :=
  let got := descsOf n 0 first k bytes
  let fill := fun p : Piped => if p.desc.isNone then { p with desc := (got.find? fun g => g.index == p.index).bind (·.desc) } else p
  let s := setRing n (fun r => { r with pipe := r.pipe.map fill }) s
  if s.rings[n].stopping then cancelPipe n pipeMax s else retireUnknown (.ring n) pipeMax s

/-- A fetch has failed (R50): FETCH_ERR, and a drop record with STATUS 0x13 for the descriptors it covered, in one
of the slots reserved for them; the other slots are free again. -/
def failFetch (n : Fin 64) (first k : Nat) (s : State) : State :=
  let s := setRing n (fun r => { r with fetchErr := true, pipe := r.pipe.filter fun p => !(p.desc.isNone && sub32 p.index first < k) }) s
  match fin? 64 s.rings[n].compRing with
  | none => s
  | some c =>
    let rec' : Record := { opcode := 0, status := 0x13, kind := false, drop := true, target := 0x0F00, ringFld := n,
                           tag := 0, time := s.dt, result := first + 2 ^ 32 * k }
    let s := setRing c (fun r => { r with reserved := r.reserved - k }) s
    let s := watchStalls (flushDrops c (putRecord c rec' false s))
    if s.rings[n].stopping then cancelPipe n pipeMax s else retireUnknown (.ring n) pipeMax s

/-! ### Meanings -/

/-- Device address of a set-up register of a ring (R29). -/
def ringAddr (n : Fin 64) (r : RingReg) : Nat :=
  0x40091000 + 0x20 * n + match r with | .baseLo => 0 | .baseHi => 4 | .cfg => 8 | .shadowLo => 0xC | .shadowHi => 0x10 | .irq => 0x18

/-- DOORBELL_WRITE: R26 to R28. -/
def execDoorbellWrite (n : Fin 64) (v : Word) (s : State) : Out := .next (whenOn (fun s => doorbellWrite n v.toNat (hostAccess (0x40090000 + 4 * n) 4 s)) s)

/-- RING_START: R31, R32. -/
def execRingStart (n : Fin 64) (v : Word) (s : State) : Out := .next (whenOn (onlyIf (bitN v.toNat 31) fun s => ringCfgWrite n v.toNat (hostAccess (ringAddr n .cfg) 4 s)) s)

/-- RING_STOP: R31, R33. -/
def execRingStop (n : Fin 64) (v : Word) (s : State) : Out := .next (whenOn (onlyIf (bitN v.toNat 30) fun s => ringCfgWrite n v.toNat (hostAccess (ringAddr n .cfg) 4 s)) s)

/-- RING_STOPPED: the last completion of a stopping submission ring has been written (R33). -/
def execRingStopped (n : Fin 64) (s : State) : Out :=
  .next (onlyIf (s.rings[n].active && s.rings[n].stopping && s.rings[n].pipe.isEmpty && !originBusy s (.ring n))
    (setRing n fun r => { r with active := false, stopping := false }) s)

/-- RING_SETUP_WRITE: R29, R31, R35. -/
def execRingSetupWrite (n : Fin 64) (r : RingReg) (v : Word) (s : State) : Out := .next (whenOn (fun s => ringSetupWrite n r v.toNat (hostAccess (ringAddr n r) 4 s)) s)

/-- DESCRIPTOR_FETCH: R42, R43, R47. -/
def execDescriptorFetch (s : State) : Out := .next (whenOn fetchNext s)

/-- TIMER_US has run out since the first unsignalled record (R46). -/
def irqTimeUp (r : Ring) (now : Nat) : Bool :=
  r.role && r.irqEn && r.timerUs != 0 && (match r.irqStart with | some t => t + us r.timerUs ≤ now | none => false)

/-- IRQ_TIMER_EXPIRY: TIMER_US has run out since the first unsignalled record (R46). -/
def execIrqTimerExpiry (n : Fin 64) (s : State) : Out :=
  .next (onlyIf (irqTimeUp s.rings[n] s.dt) (signalRing n) s)

/-- The stall time of a submission ring has reached STALL_MS (R49). -/
def stallTimeUp (s : State) (n : Fin 64) : Bool :=
  stallWaiting s n && (match s.rings[n].stallStart with | some t => t + ms s.rings[n].stallMs ≤ s.dt | none => false)
/-- The completion ring of a submission ring holds no entry back for a drop record (R49). -/
def keptBackTaken (s : State) (n : Fin 64) : Bool :=
  match at? s.rings s.rings[n].compRing with | some c => c.keptBack.isSome | none => true

/-- STALL_TIMEOUT: the stall time has reached STALL_MS (R49). -/
def execStallTimeout (n : Fin 64) (s : State) : Out :=
  .next (onlyIf (stallTimeUp s n)
    (fun s => if keptBackTaken s n then setRing n (fun r => { r with stalled := true, stallStart := none }) s else stallDrop n s) s)

/-- What NOP asks of its descriptor. -/
def nopForm (_ : State) (d : Desc) : OpForm :=
  { idem := true, session := false, range := targetListed d.target }

/-- NOP: R55. -/
def execNop (o : Origin) (s : State) : Out :=
  runOut o 0x0000 nopForm (fun _ uid => finish uid 0 0) s

/-- What ECHO asks of its descriptor. -/
def echoForm (_ : State) (d : Desc) : OpForm :=
  { idem := true, session := false, used := pm 16 64, range := targetListed d.target }

/-- ECHO: R55. -/
def execEcho (o : Origin) (s : State) : Out :=
  runOut o 0x0001 echoForm
    (fun d uid => finish uid 0 (d.u 16 64)) s

/-- What PLACEMENT_QUERY asks of its descriptor. -/
def placementQueryForm (s : State) (d : Desc) : OpForm :=
  { idem := d.u 28 32 == 0, session := false, used := pm 16 128, form := d.u 24 32 % 8 == 0 && d.u 28 32 % 8 == 0,
    range := targetListed d.target && 32 ≤ d.u 24 32 && d.u 24 32 ≤ 65536 && (hostAddressed s d || inSram (d.u 16 64) (d.u 24 32)),
    state := s.stg.report.isSome }

/-- PLACEMENT_QUERY: R55, R56. -/
def execPlacementQuery (o : Origin) (s : State) : Out :=
  runOut o 0x0002
    placementQueryForm
    (fun d uid s =>
      let rep := (s.stg.report.getD []).drop (d.u 28 32)
      if rep.isEmpty then finishFree uid 0x0A s
      else
        let out := rep.take (d.u 24 32)
        finish uid (if rep.length ≤ d.u 24 32 then 0 else 2) (out.length + 2 ^ 32 * ofLe (((s.stg.report.getD []).drop 4).take 4))
          (toBuffer (hostAddressed s d) (d.u 16 64) out s)) s

end Sys2Proof.Machine
end

