-- ==== Sys2Proof/Machine/HostBridge.lean ====
section
/-! DEFINITION. Host bridge: tags, read completions, timeouts, delayed reads, link loss and return, MSI-X masks,
and the xSPI controller with family 0x28 (file 16).
Readings of the spec: log entry 32, DEDUCED. -/

namespace Sys2Proof.Machine

/-- Cause code of a failed read (R409). -/
def causeCode : ReadFail → Nat
  | .timeout => 1
  | .unsupported => 2
  | .aborted => 3
  | .poisoned => 4
  | .linkDown => 5

/-- Reader code and ring or engine (R409). -/
def readerCode : Reader → Nat × Nat
  | .fetch r _ _ => (0, r)
  | .block o _ _ => (1, match o with | .ring r => r.val | .engine e => e.val | .diag => 0)
  | .load e _ => (2, e)
  | .prefetch e _ => (3, e)
  | .confirm e => (4, e)

/-- HB_READ_FAIL and vector 68 for a failed read (R394, R409). -/
def reportReadFail (t : Nat) (rd : Reader) (addr bytes : Nat) (why : ReadFail) (s : State) : State :=
  let rc := readerCode rd
  let d1 := putF t 0 7 + putF (causeCode why) 8 3 + putF rc.1 12 3 + putF rc.2 16 6 + putF bytes 32 16
  sendVector 68 (emit s.host.evtRing 0x2880 0x0943 d1 addr s)

/-- A tag changes state. -/
def setTag (t : Fin 128) (x : TagSt) (s : State) : State := { s with host := { s.host with tags := s.host.tags.set t x } }

/-- Tags outstanding (HB_STAT.TAGS_OUT). -/
def tagsOut (s : State) : Nat := (s.host.tags.toList.filter fun t => match t with | .out .. => true | _ => false).length

/-- The first timeout since start-up raises source 12 (R408). -/
def firstTimeout (s : State) : State :=
  if s.host.timedOut then s else raise 12 0x0943 { s with host := { s.host with timedOut := true } }

/-! ### Blocks (R37, R393) -/

/-- The reads of the block that an origin's head wants. -/
def blockOf (s : State) (o : Origin) : Option BlockRead := s.host.blocks.find? fun b => b.origin == o

/-- The block with a number changes. -/
def modBlock (id : Nat) (f : BlockRead → BlockRead) (s : State) : State :=
  { s with host := { s.host with blocks := s.host.blocks.map fun b => if b.id == id then f b else b } }

/-- Parts of a block by rising offset. -/
def addPart (p : Nat × List Byte × Nat) : List (Nat × List Byte × Nat) → List (Nat × List Byte × Nat)
  | [] => [p]
  | q :: qs => if p.1 < q.1 then p :: q :: qs else q :: addPart p qs

/-- Bytes of a block arrive; those of one that is wanted no more are held (R397). -/
def deliverBlock (id off : Nat) (bs : List Byte) (s : State) : State :=
  if s.host.blocks.any fun b => b.id == id then modBlock id (fun b => { b with parts := addPart (off, bs, s.dt) b.parts }) s else holdData [s.dt] s

/-- All of a block has come, or a read of it has failed. -/
def blockDone (b : BlockRead) : Bool := b.failed || (b.sent == b.len && (b.parts.map fun p => p.2.1.length).foldl (· + ·) 0 == b.len)

/-- The bytes of a block, in SRAM or from host memory; none where a read has failed, or the link is down, and the descriptor is
to complete with status 0x13 (R394). -/
def blockBytes (o : Origin) (host : Bool) (addr len : Nat) (s : State) : Option (List Byte) × State :=
  if len == 0 then (some [], s)
  else if !host then (some (memBytes s.sram addr len), fabAccess .sram 0x21 addr len s)
  else match blockOf s o with
    | some b =>
      if b.failed || !blockDone b then (none, dropBlock o s)
      else (some (b.parts.map fun p => p.2.1).flatten, { s with host := { s.host with blocks := s.host.blocks.filter fun b => b.origin != o } })
    | none => (none, s)

/-! ### Reads and lines of engines (R391, R394, R398) -/

/-- The lines of an engine, most recently used first. -/
def linesOf (s : State) (e : Nat) : List Line := (at? s.host.lines e).getD []
def setLines (e : Nat) (l : List Line) (s : State) : State := { s with host := { s.host with lines := updN s.host.lines e fun _ => l } }

/-- A prefetched line ends: the bytes that no load took are counted (R399). -/
def countUnused (l : Line) (s : State) : State :=
  let unused := l.bytes.length - l.taken.length
  if unused == 0 then s
  else
    let s := if s.host.pfSeen then s else raise 14 0x0943 { s with host := { s.host with pfSeen := true } }
    { s with host := { s.host with pfUnused := w32 (s.host.pfUnused + 1), pfBytes := sat 32 (s.host.pfBytes + unused) } }

/-- A line arrives: it becomes the most recently used, and the least recently used of four goes (R398). -/
def addLine (e addr : Nat) (bs : List Byte) (s : State) : State :=
  let old := linesOf s e
  let s := if 4 ≤ old.length then (match old.getLast? with | some l => countUnused l s | none => s) else s
  setLines e ({ addr := addr, bytes := bs, taken := [], arrived := s.dt } :: old.take 3) s

/-- The reads that an engine's present instruction has sent. -/
def askedOf (s : State) (e : Nat) : List WinRead := (at? s.host.asked e).getD []
def setAsked (e : Nat) (l : List WinRead) (s : State) : State := { s with host := { s.host with asked := updN s.host.asked e fun _ => l } }

/-- An engine's instruction wants its reads from the `keep`-th on no more: data that have come are uncollected (R397). -/
def dropAsked (e keep : Nat) (s : State) : State :=
  let gone := (askedOf s e).drop keep
  holdData (gone.filterMap fun w => match w.got with | some (t, some _) => some t | _ => none) (setAsked e ((askedOf s e).take keep) s)

/-- The bytes of an engine's read arrive; those that no instruction waits for are held (R397), those of a line become a
line all the same. -/
def deliverLoad (e id addr : Nat) (line : Bool) (bs : List Byte) (s : State) : State :=
  if line then addLine e addr bs (setAsked e ((askedOf s e).filter fun w => w.id != id) s)
  else if (askedOf s e).any fun w => w.id == id then
    setAsked e ((askedOf s e).map fun w => if w.id == id then { w with got := some (s.dt, some bs) } else w) s
  else holdData [s.dt] s

/-! ### Confirmed stores (R400, R403) -/

/-- HB_WRITE_UNCONFIRMED and source 17 (R400). -/
def unconfirmed (e cause addr : Nat) (s : State) : State :=
  raise 17 0x0943 (emit s.host.evtRing 0x2881 0x0943 (putF e 0 4 + putF cause 8 3) addr s)

/-- A confirming read is sent with a tag. -/
def sendConfirm (t : Fin 128) (e addr : Nat) (s : State) : State :=
  { s with out := s.out ++ [.confirmRead t addr]
           host := { s.host with tags := s.host.tags.set t (.out (.confirm e) addr 0 s.dt), tagIssued := w32 (s.host.tagIssued + 1) } }

/-- Confirming reads that wait are sent as tags come free. -/
def sendConfirms : Nat → State → State
  | 0, s => s
  | n + 1, s =>
    match s.host.confirmDue, freeTag s with
    | (e, a) :: rest, some t => if s.host.linkUp then sendConfirms n (sendConfirm t e a { s with host := { s.host with confirmDue := rest } }) else s
    | _, _ => s

/-- The confirming reads that wait now are sent where tags are free. -/
def serveConfirms (s : State) : State := sendConfirms s.host.confirmDue.length s

/-- An engine has confirmed stores that have not completed. -/
def confirmsOut (s : State) (e : Nat) : Bool :=
  (s.host.confirmDue.any fun c => c.1 == e) || s.host.tags.toList.any fun t => match t with | .out (.confirm f) _ _ _ => f == e | _ => false

/-! ### How reads end -/

/-- What the requester of a failed read sees (R394, R400): a descriptor fetch takes the form of R50; a block's descriptor is to
complete with status 0x13; an engine's load receives all-ones; a confirmed store counts as completed. -/
def requesterFails (rd : Reader) (addr : Nat) (why : ReadFail) (s : State) : State :=
  match rd with
  | .fetch r first k => match fin? 64 r with | some n => failFetch n first k s | none => s
  | .block _ id _ => modBlock id (fun b => { b with failed := true }) s
  | .load e id => setAsked e ((askedOf s e).map fun w => if w.id == id then { w with got := some (s.dt, none) } else w) s
  | .prefetch e id => setAsked e ((askedOf s e).map fun w => if w.id == id then { w with got := some (s.dt, none) } else w) s
  | .confirm e => unconfirmed e (causeCode why) addr s

/-- A failed read: reported, then seen by its requester (R394). -/
def readFails (t : Nat) (rd : Reader) (addr bytes : Nat) (why : ReadFail) (s : State) : State :=
  requesterFails rd addr why (reportReadFail t rd addr bytes why s)

/-- The bytes of a read reach their requester (R394). -/
def deliver (rd : Reader) (addr : Nat) (bs : List Byte) (s : State) : State :=
  match rd with
  | .fetch r first k =>
    let s := match at? s.rings r with | some x => if x.stopping then holdData [s.dt] s else s | none => s
    (match fin? 64 r with | some n => deliverFetch n first k bs s | none => s)
  | .block _ id off => deliverBlock id off bs s
  | .load e id => deliverLoad e id addr false bs s
  | .prefetch e id => deliverLoad e id addr true bs s
  | .confirm _ => s

/-- A completion arrives for a tag (R394, R395); it brings the bytes asked for. -/
def readCompletion (t : Fin 128) (r : ReadResult) (s : State) : State :=
  match s.host.tags[t] with
  | .out rd addr bytes _ =>
    let back := fun s : State => setTag t .free { s with host := { s.host with tagDone := w32 (s.host.tagDone + 1) } }
    match r with
    | .data bs => if bs.length == bytes then serveConfirms (deliver rd addr bs (back s)) else s
    | .failed why =>
      if why == .timeout || why == .linkDown then s else serveConfirms (readFails t rd addr bytes why (back s))
  | _ => aerReport aerUnexpected .unexpected { s with host := { s.host with lateCpl := w32 (s.host.lateCpl + 1) } }

/-- The operation `op` runs on the descriptor at the head of its origin: what it needs besides is there, or nothing is
needed, its opcode being another or a check failing. -/
def readyFor (o : Origin) (op : Nat) (form : State → Desc → OpForm) (have' : State → Desc → Bool) (s : State) : Bool :=
  match headOf s o with
  | some d => d.opcode != op || (judge s d (form s d)).isSome || have' s d
  | none => false

/-- Where a descriptor's block lies: whether in host memory, its address and length. -/
abbrev BlockPlace := State → Desc → Bool × Nat × Nat

/-- The block of bytes 16-23 and PLEN (R37). -/
def paramBlock : BlockPlace := fun s d => (hostAddressed s d, d.u 16 64, d.plen)

/-- The next read of the block of an origin's head is sent (R393): the descriptor is the operation's, it may start and passes
its checks, the link is up and a tag is free (log entry 8, DEDUCED). -/
def blockSend (o : Origin) (op : Nat) (form : State → Desc → OpForm) (place : BlockPlace) (s : State) : State :=
  match headOf s o, freeTag s with
  | some d, some t =>
    let (host, a, len) := place s d
    let b := (blockOf s o).getD { origin := o, id := s.nextUid, addr := a, len := len }
    if d.opcode != op || !mayStart s o d || (judge s d (form s d)).isSome || !host || !s.host.linkUp || b.failed || len ≤ b.sent then s
    else
      let n := min (readMax s) (len - b.sent)
      let rest := s.host.blocks.filter fun x => x.origin != o
      sendRead t (.block o b.id b.sent) (a + b.sent) n
        { s with nextUid := s.nextUid + 1, host := { s.host with blocks := rest ++ [{ b with sent := b.sent + n }] } }
  | _, _ => s

/-- The block that the head of an origin needs is there, or cannot come: the link is down. -/
def blockThere (o : Origin) (place : BlockPlace) (s : State) (d : Desc) : Bool :=
  let (host, _, len) := place s d
  !host || len == 0 || !s.host.linkUp || (match blockOf s o with | some b => blockDone b | none => false)

/-- A block whose descriptor has started without it is wanted no more. -/
def clearBlock (o : Origin) (before s : State) : State := if headOf s o == headOf before o then s else dropBlock o s

/-- An operation with a block (R37, R393): its reads one by one, then its run on the bytes; a failed read completes it with
status 0x13. -/
def runBlockAt (o : Origin) (op : Nat) (b : BlockStep) (place : BlockPlace) (form : State → Desc → OpForm) (eff : Desc → Nat → List Byte → State → State)
    (s : State) : Out :=
  .next (whenOn (fun s =>
    let s := retireUnknown o pipeMax s
    match b with
    | .read => blockSend o op form place s
    | .run =>
      onlyIf (readyFor o op form (blockThere o place) s) (fun s => clearBlock o s (runOp o op form (fun d uid s =>
        let (host, a, len) := place s d
        match blockBytes o host a len s with
        | (some bs, s) => eff d uid bs s
        | (none, s) => finishFree uid 0x13 s) s)) s) s)

/-- An operation whose block address lies in bytes 16-23. -/
def runBlock (o : Origin) (op : Nat) (b : BlockStep) (form : State → Desc → OpForm) (eff : Desc → Nat → List Byte → State → State) (s : State) : Out :=
  runBlockAt o op b paramBlock form eff s

/-- Uncollected data whose discard time has passed is discarded (R397, R398). -/
def discardReads (s : State) : State :=
  let due := fun t : Nat => decide (t + us (100 * s.host.discard100us) ≤ s.dt)
  let gone := (s.host.lines.toList.map fun ls => ls.filter fun l => due l.arrived).flatten
  let n := (s.host.delayed.filter due).length
  let h := { s.host with delayed := s.host.delayed.filter fun t => !due t
                         drDiscard := w32 (s.host.drDiscard + n)
                         lines := s.host.lines.map fun ls => ls.filter fun l => !due l.arrived }
  gone.foldl (fun s l => countUnused l s) { s with host := h }

/-- Send what is pending and no longer masked, in vector order (R402). -/
def sendPending (s : State) : State :=
  (idxs 80).foldl (fun s (v : Fin 80) =>
    if s.host.pba[v] && !vectorMasked s.host v && s.host.linkUp then
      toHost (.msix v) { s with host := { s.host with pba := s.host.pba.set v false } }
    else s) s

/-- Stop every active ring at a link loss (R404): submission rings as by STOP, then the completion/event rings. -/
def stopHostRings (s : State) : State :=
  let s := (idxs 64).foldl (fun s (n : Fin 64) => if s.rings[n].active && !s.rings[n].role then stopRing n s else s) s
  { s with rings := s.rings.map fun r => if r.active && r.role then { r with active := false } else r }

/-- Every outstanding tag is returned as a failed read; confirming reads that wait for one fail with them (R394, R400, R404). -/
def returnTags (s : State) : State :=
  let s := (idxs 128).foldl (fun s (t : Fin 128) => match s.host.tags[t] with
    | .out rd addr bytes _ =>
      readFails t rd addr bytes .linkDown (setTag t .free { s with host := { s.host with tagTo := w32 (s.host.tagTo + 1) } })
    | _ => s) s
  s.host.confirmDue.foldl (fun s c => unconfirmed c.1 5 c.2 s) { s with host := { s.host with confirmDue := [] } }

/-- The endpoint's own reset (R385): link state, configuration space with MSI-X enable and table, as PCI Express gives them;
host reads that are open get no answer. -/
def endpointReset (h : HostSt) : HostSt :=
  { h with linkUp := false, linkSpeed := 0, linkWidth := 0, msixEn := false, fnMask := false,
           msix := Vector.replicate 80 {}, pba := Vector.replicate 80 false, cfg := {}, inReads := [] }

/-- The link is lost (R404); HB_LINK waits for the record (R462). -/
def linkLoss (s : State) : State :=
  let s := stopHostRings (returnTags { s with host := { endpointReset s.host with firstLost := none } })
  let fl := s.host.firstLost.getD (0, 0)
  let ev : Report := .event s.host.evtRing 0x2882 0x0943 0 s.host.lost s.dt false
  hwPut 0x0030 (leBytes 4 fl.1 ++ leBytes 4 fl.2 ++ leBytes 4 s.host.lost) [ev] (raise 11 0x0943 s)

/-! ### Meanings -/

/-- READ_COMPLETION: R394, R395. -/
def execReadCompletion (tag : Fin 128) (r : ReadResult) (s : State) : Out := .next (whenOn (readCompletion tag r) s)

/-- TAG_TIMEOUT: R394 to R396. -/
def execTagTimeout (tag : Fin 128) (s : State) : Out :=
  .next (whenOn (fun s => match s.host.tags[tag] with
    | .out rd addr bytes sent =>
      if sent + ms s.host.tagToMs ≤ s.dt then
        let s := setTag tag (.quarantined (s.dt + 2 * ms s.host.tagToMs)) { s with host := { s.host with tagTo := w32 (s.host.tagTo + 1) } }
        serveConfirms (firstTimeout (readFails tag rd addr bytes .timeout s))
      else s
    | _ => s) s)

/-- TAG_QUARANTINE_END: R395. -/
def execTagQuarantineEnd (tag : Fin 128) (s : State) : Out :=
  .next (whenOn (fun s => match s.host.tags[tag] with
    | .quarantined u => if u ≤ s.dt then serveConfirms (setTag tag .free s) else s
    | _ => s) s)

/-- DELAYED_READ_DISCARD: R397 to R399. -/
def execDelayedReadDiscard (s : State) : Out := .next (whenOn discardReads s)

/-- HOST_LINK_LOSS: R385, R404. -/
def execHostLinkLoss (s : State) : Out := .next (whenOn (onlyIf s.host.linkUp linkLoss) s)

/-- HOST_LINK_UP: the link reaches L0 (R404, R409, R410). -/
def execHostLinkUp (speed : Fin 3) (width : Fin 2) (s : State) : Out :=
  .next (whenOn (onlyIf (!s.host.linkUp && !s.host.selfHosted) fun s =>
    let h := { s.host with linkUp := true, reachedL0 := true, linkSpeed := speed + 1, linkWidth := width + 1, firstLost := none }
    emit h.evtRing 0x2882 0x0943 (1 + putF (speed + 1) 2 2 + putF (width + 1) 4 2) h.lost { s with host := h }) s)

/-- HOST_LINK_TIMEOUT: no L0 within 1 s of reset release; the outputs stay in SAFE (R16). -/
def execHostLinkTimeout (s : State) : Out :=
  .next (whenOn (onlyIf (!s.host.selfHosted && !s.host.reachedL0 && !s.host.l0Late && s.pw.releaseDt + sec 1 ≤ s.dt) fun s =>
    raise 11 0x0943 { s with host := { s.host with l0Late := true } }) s)

/-- MSIX_UNMASK: R402. -/
def execMsixUnmask (u : Unmask) (s : State) : Out :=
  .next (whenOn (fun s =>
    let h := match u with
      | .vector v => { s.host with msix := upd s.host.msix v fun e => { e with masked := false } }
      | .function => { s.host with fnMask := false }
      | .enable => { s.host with msixEn := true }
    sendPending { s with host := h }) s)

/-- What HB_QUERY asks of its descriptor. -/
def hbQueryForm (s : State) (d : Desc) : OpForm :=
  { idem := true, range := d.target == 0x0943, state := !s.host.selfHosted }

/-- HB_QUERY: R17, R407. -/
def execHbQuery (o : Origin) (s : State) : Out :=
  runOut o 0x2800 hbQueryForm
    (fun _ uid s => finish uid 0 (putF (tagsOut s) 0 8 + putF s.host.inReads.length 8 6 + putF s.host.linkSpeed 14 2 + putF s.host.linkWidth 16 2 + putF s.host.tagTo 32 32) s) s

/-! ### xSPI -/

/-- Chip select and offset of an xSPI address (R406). -/
def xspiCs (a : Nat) : Fin 2 := if bitN a 31 then 1 else 0
def xspiOff (a : Nat) : Nat := fld a 0 31

/-- Two ranges meet. -/
def meets (a n b m : Nat) : Bool := a < b + m && b < a + n

/-- A range touches the nursery (8 MiB) or the archive (24 MiB, when set) (R407, R466, R468). -/
def xspiReserved (s : State) (a n : Nat) : Bool :=
  meets a n (s.host.nursery * 65536) 0x800000 || (s.host.archive != 0 && meets a n (s.host.archive * 65536) 0x1800000)

/-- A range lies within its chip select's discovered memory. -/
def xspiWithin (s : State) (a n : Nat) : Bool :=
  match s.host.xspi[xspiCs a].geometry with | some g => xspiOff a + n ≤ g.mib * 2 ^ 20 | none => true

/-- A chip select answers (R406). -/
def xspiAnswers (s : State) (cs : Fin 2) : Bool := s.host.xspi[cs].geometry.isSome && !s.host.xspi[cs].failed

/-- A write or erase runs (R407). -/
def xspiWriting (s : State) : Bool := s.host.xspiOps.any fun o => o.kind != 1

/-- The form of an xSPI transfer: `kind` 1 read, 2 write, 3 erase (R407). -/
def xspiForm (kind : Nat) (s : State) (d : Desc) : OpForm :=
  let a := d.u 24 32
  let len := d.u 28 24
  let host := bitN d.raw.toNat 248
  let eraseLog2 := match s.host.xspi[xspiCs a].geometry with | some g => g.eraseLog2 | none => 0
  { idem := true
    used := pm 16 64 + pm 24 32 + pm 28 25
    form := if kind == 3 then len % 2 ^ eraseLog2 == 0 && a % 2 ^ eraseLog2 == 0 else len % 4 == 0 && (kind == 1 || a % 4 == 0)
    range := d.target == 0x0940 && len != 0 && (kind == 3 || host || inSram (d.u 16 64) len) && !(host && s.host.selfHosted) &&
      !(kind != 1 && xspiReserved s a len) && xspiWithin s a len
    state := xspiAnswers s (xspiCs a)
    res := kind == 1 || !xspiWriting s }

/-- An xSPI transfer starts; it ends with XSPI_OPERATION_END. -/
def xspiStart (kind : Nat) (src : List Byte) (d : Desc) (uid : Nat) (s : State) : State :=
  let op : XspiOp := { uid := uid, kind := kind, addr := d.u 24 32, len := d.u 28 24, buf := d.u 16 64, host := bitN d.raw.toNat 248, src := src, start := s.dt }
  { s with host := { s.host with xspiOps := s.host.xspiOps ++ [op] } }

/-- The bytes of a chip select's memory change. -/
def xspiMem (cs : Fin 2) (f : Mem → Mem) (s : State) : State :=
  { s with host := { s.host with xspi := upd s.host.xspi cs fun x => { x with mem := f x.mem } } }

/-- `n` free bytes (log entry 5, DESIGN CHOICE). -/
def freeBytes : Nat → State → List Byte × State
  | 0, s => ([], s)
  | n + 1, s =>
    let (v, s) := takeFree 8 s
    let (l, s) := freeBytes n s
    (BitVec.ofNat 8 v :: l, s)

/-- A failed page starts at a page's start or is the write's first page; only a write verifies (R407). -/
def xspiEndFits (op : XspiOp) (r : XspiResult) (s : State) : Bool :=
  match r with
  | .done => true
  | .verifyFailed good =>
    let page := match s.host.xspi[xspiCs op.addr].geometry with | some g => 2 ^ g.pageLog2 | none => 0
    op.kind == 2 && good < op.len && (good == 0 || (xspiOff op.addr + good) % page == 0)

/-- An xSPI operation has ended in the external memory (R401, R407). -/
def xspiEnd (op : XspiOp) (r : XspiResult) (s : State) : State :=
  let cs := xspiCs op.addr
  let off := xspiOff op.addr
  let s := { s with host := { s.host with xspiOps := s.host.xspiOps.filter fun x => x.uid != op.uid } }
  match op.kind, r with
  | 1, _ => finish op.uid 0 op.len (toBuffer op.host op.buf (memBytes s.host.xspi[cs].mem off op.len) s)
  | 2, .done => finish op.uid 0 op.len (xspiMem cs (fun m => memWriteL m off op.src) s)
  | 2, .verifyFailed good =>
    let page := match s.host.xspi[cs].geometry with | some g => 2 ^ g.pageLog2 | none => 0
    let (fb, s) := freeBytes (min (page - (off + good) % page) (op.len - good)) s
    raise 15 0x0940 (finish op.uid 2 good (xspiMem cs (fun m => memWriteL m off (op.src.take good ++ fb)) s))
  | _, _ => finish op.uid 0 op.len (xspiMem cs (fun m => memWriteL m off (List.replicate op.len 0xFF)) s)

/-- XSPI_READ: R407. -/
def execXspiRead (o : Origin) (s : State) : Out := runOut o 0x2801 (xspiForm 1) (xspiStart 1 []) s

/-- The source buffer of XSPI_WRITE (R407). -/
def xspiSource : BlockPlace := fun _ d => (bitN d.raw.toNat 248, d.u 16 64, d.u 28 24)

/-- XSPI_WRITE: R407; its source is read exactly (R393). -/
def execXspiWrite (o : Origin) (b : BlockStep) (s : State) : Out :=
  runBlockAt o 0x2802 b xspiSource (xspiForm 2) (fun d uid bs s => xspiStart 2 bs d uid s) s

/-- XSPI_ERASE: R407. -/
def execXspiErase (o : Origin) (s : State) : Out := runOut o 0x2803 (xspiForm 3) (xspiStart 3 []) s

/-- What XSPI_QUERY asks of its descriptor. -/
def xspiQueryForm (_ : State) (d : Desc) : OpForm :=
  { idem := true, range := d.target == 0x0940 }

/-- XSPI_QUERY: R407. -/
def execXspiQuery (o : Origin) (s : State) : Out :=
  runOut o 0x2804 xspiQueryForm
    (fun _ uid s =>
      let mib := fun cs : Fin 2 => match s.host.xspi[cs].geometry with | some g => g.mib | none => 0
      let g := s.host.xspi[(0 : Fin 2)].geometry <|> s.host.xspi[(1 : Fin 2)].geometry
      finish uid 0 (putF (mib 0) 0 16 + putF (mib 1) 16 16 + putF ((g.map (·.eraseLog2)).getD 0) 32 8 + putF ((g.map (·.pageLog2)).getD 0) 40 8) s) s

/-- XSPI_NO_ANSWER: an operation has gone unanswered for 10 ms (R406). -/
def execXspiNoAnswer (cs : Fin 2) (s : State) : Out :=
  .next (whenOn (onlyIf (xspiAnswers s cs && s.host.xspiOps.any fun o => xspiCs o.addr == cs && o.start + ms 10 ≤ s.dt) fun s =>
    let gone := s.host.xspiOps.filter fun o => xspiCs o.addr == cs
    let h := { s.host with xspi := upd s.host.xspi cs fun x => { x with failed := true }
                           xspiOps := s.host.xspiOps.filter fun o => xspiCs o.addr != cs }
    raise 16 0x0940 (gone.foldl (fun s o => finishFree o.uid 0x0C s) { s with host := h })) s)

/-- XSPI_OPERATION_END: the oldest operation of a chip select ends (R407). -/
def execXspiOperationEnd (cs : Fin 2) (r : XspiResult) (s : State) : Out :=
  .next (whenOn (fun s => match s.host.xspiOps.find? fun o => xspiCs o.addr == cs with
    | some op => if xspiEndFits op r s then xspiEnd op r s else s
    | none => s) s)

end Sys2Proof.Machine
end

