-- ==== Sys2Proof/Machine/NetOps.lean ====
section
/-! DEFINITION. What CAN, LIN, the gateway and the segments share: entries of tables 0x09 to 0x0D, segment states and
wakes (R290, R301), the error state (R259), ends of transmits (R254, R257), routes (R278 to R282).
Readings of the spec: log entries 18 to 20, DEDUCED. -/

namespace Sys2Proof.Machine

/-! ### Entries and blocks -/

/-- Table `t` as committed, empty before the first commit after a start (R516). -/
def tblM (s : State) (t : Nat) : Mem := if s.stg.inForce then (at? s.stg.tables (t - 1)).getD [] else []
def modNs (f : NsSt → NsSt) (s : State) : State := { s with ns := f s.ns }
def can (s : State) (n : Nat) : Can := (at? s.ns.can n).getD {}
def lin (s : State) (n : Nat) : Lin := (at? s.ns.lin n).getD {}
def seg (s : State) (b : Nat) : Seg := (at? s.ns.seg b).getD {}
def setCan (n : Nat) (f : Can → Can) (s : State) : State := { s with ns := { s.ns with can := updN s.ns.can n f } }
def setLin (n : Nat) (f : Lin → Lin) (s : State) : State := { s with ns := { s.ns with lin := updN s.ns.lin n f } }
def setSeg (b : Nat) (f : Seg → Seg) (s : State) : State := { s with ns := { s.ns with seg := updN s.ns.seg b f } }

/-- A field of a controller entry of table 0x09 (R267), of a commander entry of 0x0B (R284), of a segment entry and the
block of 0x0D (R308), of the block and a route of 0x0C (R286). -/
def canE (m : Mem) (n off w : Nat) : Nat := memLe m (16 + 32 * n + off) w
def canU (s : State) (n off w : Nat) : Nat := canE (tblM s 9) n off w
def canFlag (s : State) (n i : Nat) : Bool := bitN (canU s n 0 1) i
def canEn (s : State) (n : Nat) : Bool := canFlag s n 0
def linU (s : State) (n off w : Nat) : Nat := memLe (tblM s 11) (16 + 32 * n + off) w
def linEn (s : State) (n : Nat) : Bool := bitN (linU s n 0 1) 0
def segU (s : State) (b off w : Nat) : Nat := memLe (tblM s 13) (32 + 64 * b + off) w
def segFlag (s : State) (b i : Nat) : Bool := bitN (segU s b 0 1) i
def netU (s : State) (off w : Nat) : Nat := memLe (tblM s 13) (16 + off) w
def routeE (m : Mem) (r off w : Nat) : Nat := memLe m (32 + 32 * r + off) w
def gwTxBuf (s : State) (n : Nat) : Nat := memLe (tblM s 12) (16 + n) 1
def gwRing (s : State) : Nat := memLe (tblM s 12) 24 1
def routeCount (m : Mem) : Nat := min 2048 (memLe m 28 4)
def segEn (s : State) (b : Nat) : Bool := if b < 8 then canEn s b else linEn s (b - 8)

def netTarget (b : Nat) : Nat := 0x0700 + b
def gwTarget : Nat := 0x0710

/-- A segment's C2 state stops its transmission and isolates it (R414). -/
def segStopped (s : State) (b : Nat) : Bool := inC2 s (.seg b)
/-- Nothing is routed to or from the segment (R283, R414). -/
def segIsolated (s : State) (b : Nat) : Bool := (seg s b).isoHost || (seg s b).isoAuto || segStopped s b
/-- Own traffic may run on the segment (R291). -/
def segOpen (s : State) (b : Nat) : Bool := segEn s b && (seg s b).st == .awake && !(seg s b).released
/-- Wake detection stands with the root island: the sleep commit point of an entry has passed (R304). -/
def handedOver (s : State) : Bool := match s.pw.run with | some p => p.tc.isSome | none => false
/-- The segment's detection is to be armed (R297, R307). -/
def segArmable (s : State) (b : Nat) : Bool := segEn s b && (seg s b).st == .asleep && segFlag s b 0 && !(seg s b).isoHost && !(seg s b).isoAuto
/-- Wake detection is armed, with NS or with the root island. -/
def segArmed (s : State) (b : Nat) : Bool := if handedOver s then (seg s b).arm.isSome else segArmable s b
/-- NS itself detects wakes on the segment. -/
def nsDetects (s : State) (b : Nat) : Bool := segArmable s b && !handedOver s
/-- Ring of the block's EVT_RING; before the first commit, for the wakes of R305, that of the stored set (log entry 20). -/
def netRing (s : State) : Nat := if s.stg.storedOk || s.stg.inForce then storedU s 13 18 1 else 0xFF

/-! ### Error confinement -/

/-- The error state that the counts give (R259). -/
def errState (tec errs : Nat) : Nat := if 255 < tec then 2 else if 127 < tec || 127 < errs then 1 else 0

/-- The end of a CAN_TX (R254) and of the cancels on it (R257). -/
def txEnds (b : TxBuf) (status result cancelOut : Nat) (s : State) : State :=
  let s := match b.src with
    | .desc uid _ => finish uid status result s
    | .diag => { s with diagAnswer := none, diagBusy := false }
    | _ => s
  b.cancels.foldl (fun s u => finish u 0 cancelOut s) s

def modAcc (f : AccSt → AccSt) (s : State) : State := { s with acc := f s.acc }

/-- RELEASE_END completes once its last blocked frame has been sent or withdrawn (R335). -/
def releaseEndDone (s : State) : State :=
  match s.acc.endUid with
  | some u => if s.acc.blocked == 0 && !s.acc.unsent then finish u 0 (w32 s.acc.lastRel) (modAcc (fun a => { a with endUid := none }) s) else s
  | none => s

/-- A release frame is valid for the transmitter (R328). -/
def relSent (s : State) : State := releaseEndDone (modAcc (fun a => { a with unsent := false, missRun := 0 }) s)

/-- Take the buffer of an order number out of a controller. -/
def dropBuf (n order : Nat) (s : State) : State := setCan n (fun c => { c with bufs := c.bufs.filter fun b => b.order != order }) s

/-- RESULT of a transmit that did not succeed (R254). -/
def txFailRes (b : TxBuf) (outcome : Nat) : Nat := sat 8 b.attempts + putF outcome 8 8

/-- Every pending CAN_TX of a controller completes with status 0x12 and the source (R254, R260, R264). -/
def txAllFail (n src : Nat) (s : State) : State :=
  let ends := fun b : TxBuf => match b.src with | .desc _ _ => true | .diag => true | _ => false
  let mine := (can s n).bufs.filter ends
  let s := setCan n (fun c => { c with bufs := c.bufs.filter fun b => !ends b
                                       attempt := none }) s
  mine.foldl (fun s b => txEnds b 0x12 (src + putF (sat 8 b.attempts) 16 8) 1 s) s

/-- New error counts of a controller (R259): a change of state writes CAN_STATE and raises its source; bus-off ends
every pending transmit (R260). -/
def setCounts (n tec errs : Nat) (s : State) : State :=
  let c := can s n
  let new := errState tec errs
  let s := setCan n (fun c => { c with tec := tec, errs := errs, st := new }) s
  if new == c.st then s
  else
    let s := emit (canU s n 1 1) 0x1882 (netTarget n) (new + putF c.st 2 2 + putF (sat 8 tec) 8 8 + putF (sat 8 errs) 16 8) c.lec s
    if new == 1 then (if c.st == 0 then raise 200 (netTarget n) s else s)
    else if new == 2 then txAllFail n 201 (raise 201 (netTarget n) (setCan n (fun c => { c with busoffDt := s.dt, recovering := false, recovSeq := 0, attempt := none }) s))
    else s

/-! ### Gateway counts -/

def routeCnt (s : State) (r : Nat) : RouteCnt := match s.ns.cnts.find? fun x => x.1 == r with | some x => x.2 | none => {}
def setRoute (r : Nat) (f : RouteCnt → RouteCnt) (s : State) : State :=
  { s with ns := { s.ns with cnts := (s.ns.cnts.filter fun x => x.1 != r) ++ [(r, f (routeCnt s r))] } }
def routeForwarded (r : Nat) (s : State) : State := setRoute r (fun c => { c with forwarded := w32 (c.forwarded + 1) }) s
def routeSuperseded (r : Nat) (s : State) : State := setRoute r (fun c => { c with superseded := w32 (c.superseded + 1) }) s
/-- A match is dropped (R280): counted, its reason kept for GW_DROP, its source raised. -/
def routeDrop (r reason : Nat) (s : State) : State :=
  let s := setRoute r (fun c => { c with dropped := w32 (c.dropped + 1), since := sat 32 (c.since + 1), reason := reason, interval := c.interval <|> some s.dt }) s
  if reason == 1 then raise 210 gwTarget s else if reason == 0 || reason == 2 then raise 209 gwTarget s else s

/-- Frames that the gateway holds or has in buffers for a controller, but for a running attempt, are dropped where `bad` says
so (R283, R298). -/
def gwDropCan (n reason : Nat) (bad : CanFrame → Bool) (s : State) : State :=
  let running := (can s n).attempt.map (·.order)
  let isGw := fun b : TxBuf => (match b.src with | .route _ => true | _ => false) && running != some b.order && bad b.frame
  let bufs := (can s n).bufs.filter isGw
  let isHeld := fun h : GwFrame => h.can == n && bad h.frame
  let held := s.ns.holding.filter isHeld
  let s := setCan n (fun c => { c with bufs := c.bufs.filter fun b => !isGw b }) s
  let s := modNs (fun x => { x with holding := x.holding.filter fun h => !isHeld h }) s
  let rs := held.map (·.route) ++ bufs.filterMap fun b => match b.src with | .route r => some r | _ => none
  rs.foldl (fun s r => routeDrop r reason s) s

/-- Routes' writes that wait in a commander's publish buffers are withdrawn and dropped (R283); replaced ones are counted
already. -/
def gwDropLin (n reason : Nat) (s : State) : State :=
  let rs := ((lin s n).pubs.toList.map fun p => p.writes.filterMap fun w => if w.old then none else w.route).flatten
  let s := setLin n (fun l => { l with pubs := l.pubs.map fun p => { p with writes := p.writes.filter (·.route.isNone) } }) s
  rs.foldl (fun s r => routeDrop r reason s) s

/-- What the gateway has for a segment is dropped. -/
def gwDropFor (b reason : Nat) (s : State) : State := if b < 8 then gwDropCan b reason (fun _ => true) s else gwDropLin (b - 8) reason s

/-! ### Segment states -/

def segCode : SegSt → Nat
  | .awake => 0
  | .drain => 1
  | .quiet => 2
  | .asleep => 3
  | .waking => 4

/-- A segment changes state: NET_STATE (R311). -/
def segState (b : Nat) (new : SegSt) (cause : Nat) (s : State) : State :=
  let old := (seg s b).st
  let s := setSeg b (fun g => { g with st := new, changeDt := s.dt }) s
  emit (netRing s) 0x1A80 (netTarget b) (b + putF (segCode new) 4 3 + putF (segCode old) 8 3 + putF cause 12 4) (w32 s.dt) s

/-- A pending NET_SLEEP ends (R300, R301, R310). -/
def endSleep (b status result : Nat) (s : State) : State :=
  match (seg s b).sleep with
  | some (u, _) => finish u status result (setSeg b (fun g => { g with sleep := none }) s)
  | none => s

/-- A wake before the sleep commit point makes NS withdraw the grant it has given (R304). -/
def withdrawGrant (cause : Nat) (s : State) : State :=
  match s.pw.run with
  | some p =>
    if p.tc.isNone && p.answers[7] == .granted && p.target != .standby then
      { s with pw := { s.pw with run := some { p with answers := p.answers.set 7 (.withdrawn cause) } } }
    else s
  | none => s

/-- The segment enters WAKING with a cause of R310 (R301, R302). `ann`: it announces itself. -/
def segWake (b cause : Nat) (ann : Bool) (s : State) : State :=
  let s := withdrawGrant cause (endSleep b 0x10 (cause + putF s.dt 32 32) s)
  let g := seg s b
  let s := if g.st == .asleep && cause != 1 then setSeg b (fun g => { g with wakes := sat 16 (g.wakes + 1) }) s else s
  let s := setSeg b (fun g => { g with released := false, awakeSince := none, awakeKept := 0, swk := false, isoAuto := false
                                       linWake := if s.stg.inForce then some (netU s 4 2) else none
                                       annSince := if ann && b < 8 && segFlag s b 3 then some s.dt else g.annSince, annSent := none }) s
  segState b .waking cause s

/-- NET_WAKE_SRC (R311). -/
def netWakeSrc (b cause : Nat) (replayed : Bool) (word data time : Nat) (tsRt : Bool) (s : State) : State :=
  emitAt (netRing s) 0x1A81 (netTarget b) (word + putF b 32 4 + putF cause 36 4 + putF (b2n replayed) 40 1) data time tsRt s

/-- Identifier word of a frame: [28:0] identifier, [29] IDE. -/
def idWord (f : CanFrame) : Nat := fld f.ident 0 29 + putF (b2n f.ide) 29 1

/-- Data length of a frame (R247): by its DLC. -/
def dlcLen (fd : Bool) (dlc : Nat) : Nat :=
  if dlc ≤ 8 then dlc else if !fd then 8 else [12, 16, 20, 24, 32, 48, 64].getD (dlc - 9) 64

/-- Data bytes that a frame carries: a remote frame none (R248). -/
def dataLen (f : CanFrame) : Nat := if f.rtr then 0 else dlcLen f.fd f.dlc

/-- Bytes of a frame, `k` of them from `i`, 0 beyond its length. -/
def dataAt (f : CanFrame) (i k : Nat) : Nat := ofLe (((f.data.take (dataLen f)).drop i).take k)

/-- The WUF definition of R295. -/
def isWuf (a : Arm) (f : CanFrame) : Bool :=
  !f.fd && !f.rtr && f.ide == a.ide && Nat.land f.ident a.mask == Nat.land a.ident a.mask && f.dlc == a.dlc &&
    (a.data == 0 || Nat.land (dataAt f 0 8) a.data != 0)
/-- A segment's wake definition in table 0x0D (R308). -/
def armOf (s : State) (b : Nat) : Arm :=
  { deep := segFlag s b 2, sw := b < 8 && segFlag s b 1, ide := bitN (segU s b 8 4) 29, ident := fld (segU s b 8 4) 0 29,
    mask := fld (segU s b 12 4) 0 29, dlc := segU s b 16 1, data := segU s b 24 8 }

/-! ### Publish buffers and routes -/

/-- DIR, LEN and CKS of a frame definition of table 0x0B; 0x3C and 0x3D are fixed (R284). -/
def frameDef (m : Mem) (n fid : Nat) : Nat × Nat × Bool :=
  if fid == 0x3C then (1, 8, false) else if fid == 0x3D then (2, 8, false) else if 60 ≤ fid then (0, 0, false)
  else
    let a := 528 + 4 * (64 * n + fid)
    (memLe m a 1, memLe m (a + 1) 1, bitN (memLe m (a + 2) 1) 0)

def pub (s : State) (n fid : Nat) : Pub := (at? (lin s n).pubs fid).getD {}
def setPub (n fid : Nat) (f : Pub → Pub) (s : State) : State := setLin n (fun l => { l with pubs := updN l.pubs fid f }) s

/-- A write that a break at `brk` takes: it arrived 10 µs or more before (R274). -/
def pubDue (brk : Nat) (w : PubWrite) : Bool := decide (w.dt + us 10 ≤ brk)
/-- One write reaches the bytes of a publish buffer (R274): only those named. -/
def Pub.take (p : Pub) (w : PubWrite) : Pub :=
  { p with bytes := p.bytes.take w.off ++ w.bytes ++ p.bytes.drop (w.off + w.bytes.length), updated := true }

/-- Route writes that a later write of their route, due by a break now, has replaced for good are SUPERSEDED (R281, R282). -/
def pubSupersede (n fid : Nat) (s : State) : State :=
  let ws := (pub s n fid).writes.zipIdx
  let gone := fun x : PubWrite × Nat => x.1.route.isSome && !x.1.old && ws.any fun y => x.2 < y.2 && y.1.route == x.1.route && pubDue s.dt y.1
  let rs := (ws.filter gone).filterMap (·.1.route)
  let s := setPub n fid (fun p => { p with writes := ws.map fun x => if gone x then { x.1 with old := true } else x.1 }) s
  rs.foldl (fun s r => routeSuperseded r s) s

/-- A write into a publish buffer (R274). -/
def pubWrite (n fid off : Nat) (bytes : List Byte) (route : Option Nat) (s : State) : State :=
  let s := pubSupersede n fid s
  setPub n fid (fun p => { p with writes := p.writes ++ [{ dt := s.dt, off := off, bytes := bytes, route := route }] }) s

/-- The buffer is latched at a break: the due writes reach it in order of arrival, and of each route the last is FORWARDED
(R274, R282). -/
def pubLatch (n fid : Nat) (s : State) : State :=
  let s := pubSupersede n fid s
  let due := (pub s n fid).writes.filter (pubDue s.dt)
  let s := setPub n fid (fun p => due.foldl Pub.take { p with writes := p.writes.filter fun w => !pubDue s.dt w }) s
  (due.filterMap fun w => if w.old then none else w.route).foldl (fun s r => routeForwarded r s) s

/-- Smallest DLC that holds `len` bytes (R286). -/
def dlcFor (len : Nat) : Nat := if len ≤ 8 then len else 9 + ([12, 16, 20, 24, 32, 48].filter fun x => x < len).length

/-- One matched route acts (R279, R280): from the source's identifier and data to a CAN frame held or a LIN write. A controller
with FD = 0 cannot carry an FD frame (R239, DEDUCED in log entry 19). -/
def routeActs (m : Mem) (r ident : Nat) (data : List Byte) (s : State) : State :=
  let f := routeE m r 0 1
  let dst := routeE m r 2 1
  let toLin := bitN f 2
  let b := if toLin then 8 + dst else dst
  let s := setRoute r (fun c => { c with matched := w32 (c.matched + 1) }) s
  let off := routeE m r 16 1
  let len := routeE m r 17 1
  let doff := routeE m r 18 1
  let n := if len == 0 then data.length else len
  let fd := bitN f 5
  let room := if toLin then (frameDef (tblM s 11) dst (fld (routeE m r 12 4) 0 6)).2.1
    else let d := routeE m r 19 1; if d == 0xFF then (if fd then 64 else 8) else dlcLen fd d
  if segIsolated s b then routeDrop r 3 s
  else if !(segEn s b) || (seg s b).st != .awake || (seg s b).released then routeDrop r 4 s
  else if data.length < off + n || room < doff + n || (!toLin && fd && !canFlag s dst 1) then routeDrop r 2 s
  else
    let win := (data.drop off).take n
    if toLin then
      pubWrite dst (fld (routeE m r 12 4) 0 6) doff win (some r) s
    else if 64 ≤ s.ns.holding.length then routeDrop r 0 s
    else
      let fill := BitVec.ofNat 8 (routeE m r 22 1)
      let d := routeE m r 19 1
      let dlc := if d == 0xFF then dlcFor (doff + n) else d
      let w := routeE m r 12 4
      let mask := fld (routeE m r 8 4) 0 29
      let id := if bitN w 31 then Nat.lor (Nat.land (fld w 0 29) mask) (Nat.land ident (2 ^ 29 - 1 - mask)) else fld w 0 29
      let bytes := (List.replicate doff fill ++ win ++ List.replicate 64 fill).take (dlcLen fd dlc)
      let fr : CanFrame := { ide := bitN f 4, fd := fd, brs := bitN f 6, rtr := false, esi := false, ident := id, dlc := dlc, data := bytes }
      modNs (fun x => { x with holding := x.holding ++ [{ route := r, can := dst, frame := fr, valid := s.dt, maxAge := routeE m r 20 2 }] }) s

/-- Every enabled route that a valid frame of `bus` matches, in route order (R278); none from an isolated segment (R283). -/
def routeFrom (m : Mem) (fromLin : Bool) (bus ident : Nat) (ide : Bool) (data : List Byte) (s : State) : State :=
  if segIsolated s (if fromLin then 8 + bus else bus) then s
  else
    (List.range (routeCount m)).foldl (fun s r =>
      let f := routeE m r 0 1
      let id := fld (routeE m r 4 4) 0 29
      let mask := fld (routeE m r 8 4) 0 29
      let hit := if fromLin then fld id 0 6 == ident else bitN f 3 == ide && Nat.land id mask == Nat.land ident mask
      if bitN f 0 && bitN f 1 == fromLin && routeE m r 1 1 == bus && hit then routeActs m r ident data s else s) s

/-- The replaced set that was in force at `t`, none where it is the present one (R246). -/
def prevAt (s : State) (t : Nat) : Option PrevNet := s.ns.prev.find? fun p => t < p.tick

/-- Route table in force for a frame that began at `t` (R282). -/
def routesAt (s : State) (t : Nat) : Mem := match prevAt s t with | some p => p.t12 | none => tblM s 12

end Sys2Proof.Machine
end

