-- ==== Sys2Proof/Machine/Can.lean ====
section
/-! DEFINITION. CAN FD controllers: reception and filters, receive queues, transmission, cancellation, error confinement,
delay compensation, the tester's requests (files 10 and 03, R84).
Readings of the spec: log entries 18, DEDUCED, and 23, DESIGN CHOICE. -/

namespace Sys2Proof.Machine

/-! ### Reception -/

/-- The pairs and the table 0x09 that a frame with this SOF meets (R246). -/
def canSetAt (s : State) (n sof : Nat) : List Pair × Mem :=
  match prevAt s sof with
  | some p => ((at? p.pairs n).getD [], p.t9)
  | none => (if s.stg.inForce then (at? s.stg.place.pairs n).getD [] else [], tblM s 9)

/-- A field, and a flag, of a controller's entry in the set that a frame with this SOF meets (R246, R262). -/
def canUAt (s : State) (n sof off w : Nat) : Nat := canE (canSetAt s n sof).2 n off w
def canFlagAt (s : State) (n sof i : Nat) : Bool := bitN (canUAt s n sof 0 1) i

/-- The lowest-numbered matching pair (R243). -/
def matchPair (l : List Pair) (f : CanFrame) : Option (Nat × Pair) :=
  ((List.range l.length).zip l).find? fun x => x.2.ide == f.ide && Nat.land f.ident x.2.mask == Nat.land x.2.ident x.2.mask

def modQueue (n q : Nat) (f : Queue → Queue) (s : State) : State := setCan n (fun c => { c with q := updN c.q q f }) s

/-- A matched frame is dropped (R249): counted in its queue and, as one dropped event, in its ring (R48). -/
def dropFrame (n q ring : Nat) (s : State) : State :=
  let first := ((at? (can s n).q q).getD {}).seen
  let s := modQueue n q (fun x => { x with dropped := w32 (x.dropped + 1), seen := false }) s
  let s := match fin? 64 ring with
    | some r => setRing r (fun x => { x with evtDrop := sat 16 (x.evtDrop + 1), pendDrop := if x.active then x.pendDrop + 1 else x.pendDrop }) s
    | none => s
  if first then raise 202 (netTarget n) s else s

/-- A valid frame is compared with the pairs (R243, R249). -/
def filterFrame (n : Nat) (f : CanFrame) (sof : Nat) (own : Bool) (s : State) : State :=
  let (pairs, t9) := canSetAt s n sof
  match matchPair pairs f with
  | none => setCan n (fun c => { c with noMatch := w32 (c.noMatch + 1) }) s
  | some (i, p) =>
    let ring := canE t9 n (2 + p.queue) 1
    let s := modQueue n p.queue (fun q => { q with matched := w32 (q.matched + 1) }) s
    let active := match at? s.rings ring with | some r => r.active && r.role | none => false
    if !active || 32 ≤ (can s n).hold.length then dropFrame n p.queue ring s
    else setCan n (fun c => { c with hold := c.hold ++ [{ queue := p.queue, ring := ring, frame := f, sof := sof, pair := i, own := own }] }) s

/-- REC after a valid reception (R259): ISO 11898-1 gives a value from 119 to 127 where it was above 127. A controller whose
transceiver is not in the normal state holds its counts (R292). -/
def goodReceive (n : Nat) (s : State) : State :=
  let c := can s n
  if (seg s n).xcvr != 0 then s
  else if 127 < c.errs then let (v, s) := takeFree 32 s; setCounts n c.tec (119 + v % 9) s
  else if c.errs == 0 then s else setCounts n c.tec (c.errs - 1) s

/-- The controller takes part in a frame with SOF `t` on its bus: enabled, link up, transceiver receiving, integrated, not
bus-off; for a frame that began before the last commit tick all of this as it stood at the tick (R246, R262). -/
def canHears (s : State) (n t : Nat) : Bool :=
  let c := can s n
  !dieDown s .base && c.st != 2 && (match c.integ with | some d => t < d | none => true) && (!canEn s n || (seg s n).xcvr ≤ 1) &&
    (match prevAt s t with | some p => (at? p.hears n).getD false | none => canEn s n)

/-- Dominant bits on a QUIET segment restart its quiet time, whether or not its controller takes part (R300). -/
def busActive (n : Nat) (s : State) : State :=
  if (seg s n).st == .quiet then setSeg n (fun g => { g with quietSince := s.dt }) s else s

/-- A receive error counts (R259, R292). -/
def receiveError (n lec add : Nat) (s : State) : State :=
  let s := setCan n (fun c => { c with lec := lec }) s
  if (seg s n).xcvr == 0 then setCounts n (can s n).tec ((can s n).errs + add) s else s

/-- A valid frame of another node: its count, the filters, the routes, then what it means to the sleep agreement. -/
def takeFrame (n : Nat) (f : CanFrame) (sof : Nat) (s : State) : State :=
  let s := filterFrame n f sof false (goodReceive n s)
  let s := if f.rtr then s else routeFrom (routesAt s sof) false n f.ident f.ide (f.data.take (dlcLen f.fd f.dlc)) s
  match (seg s n).st with
  | .quiet =>
    let s := setSeg n (fun g => { g with keeper := some (idWord f) }) s
    if isWuf (armOf s n) f then segWake n 2 true s else s
  | .drain => if isWuf (armOf s n) f then segWake n 2 true s else s
  | _ => s

/-- FRAME_RECEIVED: R243, R249, R278, R300, R301; the SOF stamp of R251. An FD frame is a form error to a controller with
FD = 0 (R239). -/
def execFrameReceived (n : Fin 8) (f : CanFrame) (sof : Nat) (s : State) : Out :=
  .next (whenOn (onlyIf (!dieDown s .base && sof ≤ s.dt) fun s =>
    let s := busActive n s
    if !canHears s n sof then s else if f.fd && !canFlagAt s n sof 1 then receiveError n 2 1 s else takeFrame n f sof s) s)

/-- Entries of a frame record (R247). -/
def recordEntries (len : Nat) : Nat := if len ≤ 8 then 1 else 1 + (len - 8 + 15) / 16

/-- The first entry's bytes 8 to 15 (R248). -/
def rxWord (h : HeldFrame) : Nat :=
  let f := h.frame
  let len := dataLen f
  idWord f + putF (b2n f.fd) 30 1 + putF (b2n f.brs) 31 1 + putF (b2n f.esi) 32 1 + putF (b2n f.rtr) 33 1 + putF f.dlc 34 4 + putF len 38 7 +
    putF (recordEntries len) 45 3 + putF h.pair 48 6 + putF h.queue 54 1 + putF (b2n h.own) 55 1

/-- The entries of a frame's record (R248). -/
def rxRecords (n : Nat) (h : HeldFrame) : List Record :=
  let first : Record := { opcode := 0x1880, kind := true, target := netTarget n, ringFld := 0x00FF, tag := rxWord h, time := h.sof, result := dataAt h.frame 0 8 }
  let more := (List.range (recordEntries (dataLen h.frame) - 1)).map fun j =>
    { first with opcode := 0x1881, tag := dataAt h.frame (16 * j + 8) 8, result := dataAt h.frame (16 * j + 16) 8 }
  first :: more

/-- FRAME_RECORD_WRITE: the oldest held frame's record, all its entries or none (R249, R250). -/
def execFrameRecordWrite (n : Fin 8) (s : State) : Out :=
  .next (whenOn (fun s =>
    match (can s n).hold with
    | [] => s
    | h :: rest =>
      let s := setCan n (fun c => { c with hold := rest }) s
      let recs := rxRecords n h
      match fin? 64 h.ring with
      | none => dropFrame n h.queue h.ring s
      | some r =>
        let x := s.rings[r]
        if x.active && x.role && recs.length ≤ credits x then
          let s := recs.foldl (fun s e => toPrograms e (putRecord r e false s)) s
          watchStalls (modQueue n h.queue (fun q => { q with accepted := w32 (q.accepted + 1), seen := true }) s)
        else dropFrame n h.queue h.ring s) s)

/-! ### Transmission -/

/-- Ready buffers that count toward the 32 (R252), and those of the gateway (R280). -/
def txUsed (c : Can) : Nat := (c.bufs.filter fun b => match b.src with | .desc _ _ => true | .route _ => true | _ => false).length
def txGw (c : Can) : Nat := (c.bufs.filter fun b => match b.src with | .route _ => true | _ => false).length

/-- The next order number of filling. -/
def nextOrder (s : State) : Nat × State := (s.ns.order, modNs (fun x => { x with order := x.order + 1 }) s)
def addBuf (n : Nat) (f : Nat → TxBuf) (s : State) : State :=
  let (k, s) := nextOrder s
  setCan n (fun c => { c with bufs := c.bufs ++ [f k] }) s

/-- The frame that a CAN_TX asks for (R269). -/
def txFrame (d : Desc) (bytes : List Byte) : CanFrame :=
  let w := d.u 24 32
  let fd := bitN w 30
  { ide := bitN w 29, fd := fd, brs := bitN w 31, rtr := bitN (d.u 28 8) 4, esi := false, ident := fld w 0 29, dlc := d.u 28 4
    data := bytes.take (dlcLen fd (d.u 28 4)) }

/-- The forms of CAN_TX that complete with status 0x08 (R269). -/
def txFormOk (d : Desc) : Bool :=
  let w := d.u 24 32
  let fd := bitN w 30
  let len := dlcLen fd (d.u 28 4)
  (if len ≤ 8 then d.plen == 0 else d.plen == len) && !(bitN (d.u 28 8) 4 && fd) && !(bitN w 31 && !fd) && (bitN w 29 || fld w 11 18 == 0)

/-- R260, R261, R291, R414: a controller takes CAN_TX. -/
def txTakes (s : State) (n : Nat) (fd brs : Bool) : Bool :=
  segOpen s n && (seg s n).xcvr == 0 && (!fd || canFlag s n 1) && (!brs || canFlag s n 2) && (can s n).st != 2 && !segStopped s n && !dieDown s .base

def canRange (d : Desc) : Bool := d.slice == 7 && d.ch < 8

/-- What CAN_TX asks of its descriptor. -/
def canTxForm (s : State) (d : Desc) : OpForm :=
  let w := d.u 24 32
  { used := pm 16 96 + pm 28 6 + pm 30 16, plenOk := fun _ => true, form := txFormOk d
    range := canRange d && (d.plen == 0 || hostAddressed s d || inSram (d.u 16 64) d.plen)
    state := txTakes s d.ch (bitN w 30) (bitN w 31), res := txUsed (can s d.ch) - txGw (can s d.ch) < 32 - gwTxBuf s d.ch }

/-- The frame of CAN_TX takes a transmit buffer, with its timeout if it has one (R252, R258). -/
def canTxPlace (d : Desc) (uid : Nat) (data : List Byte) (s : State) : State :=
  let tmo := d.u 30 16
  addBuf d.ch (fun k => { src := .desc uid d.tag, frame := txFrame d data, single := bitN (d.u 28 8) 5, order := k
                          deadline := if tmo == 0 then none else some (s.dt + ms tmo) }) s

/-- CAN_TX: R252, R258, R269. -/
def execCanTx (o : Origin) (b : BlockStep) (s : State) : Out :=
  runBlock o 0x1800 b canTxForm (fun d uid bs s => canTxPlace d uid (if d.plen == 0 then leBytes 8 (d.u 16 64) else bs) s) s

/-- Arbitration field of a frame as a number: the lower wins (R252). -/
def arbKey (f : CanFrame) : Nat :=
  let r := b2n f.rtr
  if f.ide then putF (fld f.ident 18 11) 21 11 + 2 ^ 20 + 2 ^ 19 + putF f.ident 1 18 + r
  else putF f.ident 21 11 + putF r 20 1

/-- Bits of `x` from the most significant of `w`. -/
def bitsOf (w x : Nat) : List Bool := (List.range w).map fun i => bitN x (w - 1 - i)

/-- Stuff bits that fall before the end of a run of bits: after each five equal bits one of the other value, when another
bit follows. -/
def stuffs : List Bool → Nat → Bool → Nat
  | [], _, _ => 0
  | b :: bs, run, last =>
    if run == 5 then 1 + (if b == !last then (stuffs bs 2 b) else stuffs bs 1 b)
    else if b == last then stuffs bs (run + 1) b else stuffs bs 1 b

/-- The bits of a frame from SOF to the end of its arbitration field (R255). -/
def arbBits (f : CanFrame) : List Bool :=
  let r := [f.rtr && !f.fd]
  if f.ide then [false] ++ bitsOf 11 (fld f.ident 18 11) ++ [true, true] ++ bitsOf 18 (fld f.ident 0 18) ++ r
  else [false] ++ bitsOf 11 (fld f.ident 0 11) ++ r

/-- Bits up to the boundary bit, stuff bits counted. -/
def arbCount (f : CanFrame) : Nat := (arbBits f).length + stuffs (arbBits f) 0 true

/-- DT of the boundary's sample point (R240, R255). -/
def boundaryOf (s : State) (n sof : Nat) (f : CanFrame) : Nat :=
  let brp := canU s n 4 1
  sof + (arbCount f - 1) * (brp * (1 + canU s n 5 1 + canU s n 6 1)) + brp * (1 + canU s n 5 1)

/-- The new set lets the controller send a frame (R261, R262). -/
def canSend (s : State) (n : Nat) (f : CanFrame) : Bool := canEn s n && (!f.fd || canFlag s n 1) && (!f.brs || canFlag s n 2)

/-- The ready buffer that wins against every other; between equals the one filled first. -/
def bestBuf : List TxBuf → Option TxBuf
  | [] => none
  | b :: bs =>
    match bestBuf bs with
    | none => some b
    | some c => if arbKey c.frame < arbKey b.frame || (arbKey c.frame == arbKey b.frame && c.order < b.order) then some c else some b

/-- Buffers that take part in the choice (R252): the announcement only while its 100 ms last (R301), of each route the oldest
(R281). -/
def readyBufs (s : State) (n : Nat) : List TxBuf :=
  let c := can s n
  let ann := match (seg s n).annSince with | some t => s.dt < t + ms 100 && (seg s n).annSent.isNone | none => false
  c.bufs.filter fun b => match b.src with
    | .announce => ann
    | .route _ => !(c.bufs.any fun x => x.src == b.src && x.order < b.order)
    | _ => true

/-- The frame of a segment's announcement (R301, R308). -/
def annFrame (s : State) (b : Nat) : CanFrame :=
  { ide := bitN (segU s b 32 4) 29, fd := false, brs := false, rtr := false, esi := false, ident := fld (segU s b 32 4) 0 29
    dlc := segU s b 36 1, data := (leBytes 8 (segU s b 40 8)).take (segU s b 36 1) }

/-- Controller for the tester (R267): none for 0xFF. -/
def diagCan (s : State) : Nat := if s.stg.inForce then memLe (tblM s 9) 272 1 else 0xFF

/-- The tester's answer and the announcement stand in buffers of their own. -/
def ownBufs (n : Nat) (s : State) : State :=
  let has := fun src : TxSrc => (can s n).bufs.any fun b => b.src == src
  let s := match s.diagAnswer with
    | some bytes =>
      if diagCan s == n && !has .diag then
        let w := memLe (tblM s 9) 280 4
        addBuf n (fun k => { src := .diag, order := k, frame := { ide := bitN w 29, fd := true, brs := canFlag s n 2, rtr := false, esi := false, ident := fld w 0 29, dlc := 13, data := bytes } }) s
      else s
    | none => s
  if (seg s n).annSince.isSome && (seg s n).annSent.isNone && !has .announce then addBuf n (fun k => { src := .announce, order := k, frame := annFrame s n }) s else s

/-- ARBITRATION_START: R252. A frame in FD format carries ESI = 1 when the controller is error-passive (R239). -/
def execArbitrationStart (n : Fin 8) (s : State) : Out :=
  .next (whenOn (fun s =>
    let c := can s n
    if !segOpen s n || (seg s n).xcvr != 0 || segStopped s n || dieDown s .base || c.st == 2 || c.integ.isSome || c.attempt.isSome then s
    else
      let s := ownBufs n s
      match bestBuf (readyBufs s n) with
      | none => s
      | some b => setCan n (fun c => { c with attempt := some { order := b.order, sof := s.dt, boundary := boundaryOf s n s.dt b.frame }
                                              bufs := c.bufs.map fun x => if x.order == b.order then { x with attempts := x.attempts + 1, last := 0, frame := { x.frame with esi := x.frame.fd && c.st == 1 } } else x }) s) s)

/-- The buffer of the attempt that runs. -/
def running (s : State) (n : Nat) : Option (Attempt × TxBuf) :=
  match (can s n).attempt with
  | none => none
  | some a => match (can s n).bufs.find? fun b => b.order == a.order with | some b => some (a, b) | none => none

/-- A measurement of the loop delay in an attempt with BRS = 1 (R241): the first falling edge at or after TDCF, of those that
arrive, in clock cycles from the start of the res bit; valid up to cycle 126. -/
def measure (n sof : Nat) (f : CanFrame) (edges : List Nat) (s : State) : State :=
  if !canFlagAt s n sof 3 || !f.brs then s
  else match edges.filter fun e => canUAt s n sof 13 1 ≤ e && e ≤ 126 with
    | e :: es =>
      let delay := es.foldl min e
      setCan n (fun c => { c with meas := delay, tdcBad := false, ssp := min 255 (delay + canUAt s n sof 12 1) }) s
    | [] => raise 204 (netTarget n) (setCan n (fun c => { c with tdcBad := true }) s)

/-- The run of an identifier ends with a successful transmission (R263). -/
def sidGood (n : Nat) (f : CanFrame) (s : State) : State :=
  setCan n (fun c => { c with sids := c.sids.map fun x => if x.ident == f.ident && x.ide == f.ide then { x with run := 0, told := false } else x }) s

/-- A bit error in the data field of an own frame (R263). -/
def sidBad (n : Nat) (f : CanFrame) (s : State) : State :=
  let c := can s n
  let hit := fun x : Sid => x.ident == f.ident && x.ide == f.ide
  let l := if c.sids.any hit then c.sids
    else
      let fresh : Sid := { ident := f.ident, ide := f.ide, run := 0, total := 0, last := s.dt }
      if c.sids.length < 8 then c.sids ++ [fresh]
      else
        let oldest := c.sids.foldl (fun m x => min m x.last) ((c.sids.head?.map (·.last)).getD 0)
        match c.sids.findIdx? fun x => x.last == oldest with | some i => c.sids.set i fresh | none => c.sids
  let l := l.map fun x => if hit x then { x with run := sat 8 (x.run + 1), total := sat 16 (x.total + 1), last := s.dt } else x
  let s := setCan n (fun c => { c with sids := l }) s
  match l.find? hit with
  | some x =>
    if level s != 1 && canU s n 16 1 ≤ x.run && !x.told then
      let s := setCan n (fun c => { c with sids := c.sids.map fun y => if hit y then { y with told := true } else y }) s
      raise 203 (netTarget n) (emit (canU s n 1 1) 0x1883 (netTarget n) (idWord f + putF x.run 32 8) x.total s)
    else s
  | none => s

/-- An error flag stops the attempt: its cancel came before the boundary, and CANCEL_FLAG is set (R256). -/
def flagStops (s : State) (n : Nat) (a : Attempt) (b : TxBuf) : Bool := match b.stop with | some t => t.before && canFlagAt s n a.sof 7 | none => false

/-- New counts by transmission; a controller whose transceiver is not in the normal state holds them (R292). -/
def transmitCounts (n tec : Nat) (s : State) : State := if (seg s n).xcvr == 0 then setCounts n tec (can s n).errs s else s

/-- FRAME_TRANSMITTED: R254, R257, R258, R282; the falling edges of R241, in clock cycles from the start of the res bit. A
listen-only transceiver sends no frame to its end (R292). -/
def execFrameTransmitted (n : Fin 8) (edges : List Nat) (s : State) : Out :=
  .next (whenOn (fun s =>
    match running s n with
    | none => s
    | some (a, b) =>
      if s.dt < a.boundary || flagStops s n a b || (seg s n).xcvr == 1 then s
      else
        let s := setCan n (fun c => { c with attempt := none }) (dropBuf n b.order s)
        let s := sidGood n b.frame (measure n a.sof b.frame edges s)
        let s := transmitCounts n ((can s n).tec - 1) s
        let s := if canFlagAt s n a.sof 5 then filterFrame n b.frame a.sof true s else s
        match b.src with
        | .route r => routeForwarded r s
        | .announce => setSeg n (fun g => { g with annSent := some a.sof }) s
        | .release => relSent s
        | _ => txEnds b (match b.stop with | some t => if t.timeout then 0x00 else 0x11 | none => 0) a.sof 2 s) s)

/-- Reason for which a gateway frame is not tried again: its segment is isolated (R283), in DRAIN or disabled (R298), or the
new set makes its format impossible, DESIGN CHOICE of log entry 19. -/
def gwGone (s : State) (n : Nat) (f : CanFrame) : Option Nat :=
  if segIsolated s n then some 3 else if (seg s n).st == .drain || !canEn s n then some 4 else if !canSend s n f then some 2 else none

/-- An attempt has ended without success (R252, R254, R257, R258, R262, R283, R298): the frame is tried again, or its transmit
ends. -/
def attemptOver (n : Nat) (b : TxBuf) (outcome : Nat) (s : State) : State :=
  let s := setCan n (fun c => { c with attempt := none, bufs := c.bufs.map fun x => if x.order == b.order then { x with last := outcome } else x }) s
  match b.stop with
  | some t => txEnds b (if t.timeout then 0x13 else 0x10) (txFailRes b outcome) 1 (dropBuf n b.order s)
  | none =>
    match b.src with
    | .route r => (match gwGone s n b.frame with | some k => routeDrop r k (dropBuf n b.order s) | none => s)
    | _ =>
      if (seg s n).st == .drain || !canSend s n b.frame then txEnds b 0x10 (txFailRes b outcome) 1 (dropBuf n b.order s)
      else if b.single then txEnds b 0x13 (txFailRes b outcome) 1 (dropBuf n b.order s)
      else s

/-- A transmit error (R259): TEC rises by 8, unless the standard excepts it. -/
def txError (n : Nat) (exempt : Bool) (s : State) : State :=
  if exempt then s else transmitCounts n ((can s n).tec + 8) s

/-- TRANSMIT_ATTEMPT_FAILED: R252, R254, R257 to R259, R263; the edges of R241 where the attempt reached its res bit. -/
def execTransmitAttemptFailed (n : Fin 8) (why : AttemptFail) (edges : Option (List Nat)) (s : State) : Out :=
  .next (whenOn (fun s =>
    match running s n with
    | none => s
    | some (a, b) =>
      let s := match edges with | some l => measure n a.sof b.frame l s | none => s
      match why with
      | .arbitrationLost => attemptOver n b 1 s
      | .error lec exempt inData =>
        let s := setCan n (fun c => { c with lec := lec }) s
        let s := if inData && (lec.val == 4 || lec.val == 5) then sidBad n b.frame s else s
        txError n exempt (attemptOver n b 2 s)) s)

/-- CANCEL_ERROR_FLAG: R256; the bit after the boundary of a winning frame. A listen-only transceiver sends no error flag
(R292). -/
def execCancelErrorFlag (n : Fin 8) (s : State) : Out :=
  .next (whenOn (fun s =>
    match running s n with
    | none => s
    | some (a, b) =>
      match b.stop with
      | some t => if t.before && canFlagAt s n a.sof 7 && a.boundary < s.dt && (seg s n).xcvr != 1 then txError n false (attemptOver n b 3 s) else s
      | none => s) s)

/-- A cancel or a timeout is registered on a buffer (R256 to R258): freed at once unless its attempt runs. -/
def registerStop (n : Nat) (b : TxBuf) (timeout : Bool) (cancel : Option Nat) (s : State) : State :=
  match running s n with
  | some (a, r) =>
    if r.order == b.order then
      let stop := b.stop <|> some { before := s.dt ≤ a.boundary, timeout := timeout }
      setCan n (fun c => { c with bufs := c.bufs.map fun x => if x.order == b.order then { x with stop := stop, cancels := x.cancels ++ cancel.toList, deadline := none } else x }) s
    else txEnds { b with cancels := b.cancels ++ cancel.toList } (if timeout then 0x13 else 0x10) (txFailRes b 0) 0 (dropBuf n b.order s)
  | none => txEnds { b with cancels := b.cancels ++ cancel.toList } (if timeout then 0x13 else 0x10) (txFailRes b 0) 0 (dropBuf n b.order s)

/-- What CAN_TX_CANCEL asks of its descriptor. -/
def canTxCancelForm (_ : State) (d : Desc) : OpForm :=
  { idem := true, used := pm 16 64, range := canRange d }

/-- CAN_TX_CANCEL: R255 to R257. -/
def execCanTxCancel (o : Origin) (s : State) : Out :=
  runOut o 0x1801 canTxCancelForm
    (fun d uid s =>
      match (can s d.ch).bufs.find? fun b => match b.src with | .desc _ t => t == d.u 16 64 | _ => false with
      | none => finish uid 0 3 s
      | some b => registerStop d.ch b false (some uid) s) s

/-- TX_TIMEOUT: R258; the buffers whose timeout has expired. -/
def execTxTimeout (n : Fin 8) (s : State) : Out :=
  .next (whenOn (fun s =>
    let due := (can s n).bufs.filter fun b => match b.deadline with | some t => t ≤ s.dt | none => false
    due.foldl (fun s b => registerStop n b true none s) s) s)

/-! ### Errors, recovery, integration -/

/-- RECEIVE_ERROR: R259, R292; `eight`: the standard adds 8 rather than 1. A recessive res bit makes a controller with PEX = 1 integrate to the bus again, and is a form
error with PEX = 0 (R239). The dominant bits restart the quiet time (R300). A frame in progress at a commit tick is judged to its end by the old set
(R262). -/
def execReceiveError (n : Fin 8) (why : RxError) (eight : Bool) (s : State) : Out :=
  .next (whenOn (onlyIf (!dieDown s .base && why.sof ≤ s.dt) fun s =>
    let s := busActive n s
    if !canHears s n why.sof then s
    else match why.kind with
      | .error lec => receiveError n lec (if eight then 8 else 1) s
      | .resBit => if canFlagAt s n why.sof 6 then setCan n (fun c => { c with integ := some 0 }) s else receiveError n 2 1 s) s)

/-- BUSOFF_HOLD_EXPIRY: R260; a stopped controller starts no recovery (R264). -/
def execBusoffHoldExpiry (n : Fin 8) (s : State) : Out :=
  .next (whenOn (onlyIf ((can s n).st == 2 && !(can s n).recovering && canFlag s n 4 && !dieDown s .base && (can s n).busoffDt + ms (canU s n 14 2) ≤ s.dt)
    (setCan n fun c => { c with recovering := true, recovSeq := 0 })) s)

/-- BUSOFF_RECOVERY_COMPLETE: R260, R264, R271, R292; more sequences of 11 recessive bits have been counted, and the
128th completes the recovery. -/
def execBusoffRecoveryComplete (x : SeqCount) (s : State) : Out :=
  .next (whenOn (onlyIf ((can s x.n).st == 2 && (can s x.n).recovering && (seg s x.n).xcvr == 0 && !dieDown s .base) fun s =>
    let k := min 128 ((can s x.n).recovSeq + x.seqs)
    let s := setCan x.n (fun c => { c with recovSeq := k }) s
    if k < 128 then s else setCounts x.n 0 0 (setCan x.n (fun c => { c with recovering := false }) s)) s)

/-- What CAN_RECOVER asks of its descriptor. -/
def canRecoverForm (s : State) (d : Desc) : OpForm :=
  { idem := true, range := canRange d, state := canEn s d.ch && (can s d.ch).st == 2 && !(can s d.ch).recovering }

/-- CAN_RECOVER: R260. -/
def execCanRecover (o : Origin) (s : State) : Out :=
  runOut o 0x1803 canRecoverForm
    (fun d uid s => finish uid 0 0 (setCan d.ch (fun c => { c with recovering := true, recovSeq := 0 }) s)) s

/-- TXD_DOMINANT: R266; the transceiver releases the bus, and the attempt's error follows as any other. -/
def execTxdDominant (n : Fin 8) (s : State) : Out :=
  .next (whenOn (onlyIf (canEn s n && (seg s n).xcvr == 0 && !dieDown s .base) (raise 205 (netTarget n))) s)

/-- BUS_INTEGRATED: R262, R264, R292. -/
def execBusIntegrated (n : Fin 8) (s : State) : Out :=
  .next (whenOn (onlyIf (canEn s n && (seg s n).xcvr ≤ 1 && !dieDown s .base) (setCan n fun c => { c with integ := none })) s)

/-- What CAN_QUERY asks of its descriptor. -/
def canQueryForm (_ : State) (d : Desc) : OpForm :=
  { idem := true, range := canRange d }

/-- CAN_QUERY: R269. -/
def execCanQuery (o : Origin) (s : State) : Out :=
  runOut o 0x1802 canQueryForm
    (fun d uid s =>
      let c := can s d.ch
      finish uid 0 (sat 8 c.tec + putF (sat 8 c.errs) 8 8 + putF c.st 16 2 + putF (b2n c.recovering) 18 1 + putF c.lec 20 3 + putF (txUsed c) 24 6 +
        putF (seg s d.ch).xcvr 30 2 + putF c.meas 32 7) s) s

/-- What CAN_QUEUE_QUERY asks of its descriptor. -/
def canQueueQueryForm (_ : State) (d : Desc) : OpForm :=
  { idem := true, used := pm 24 8, range := canRange d && d.u 24 8 ≤ 1 }

/-- CAN_QUEUE_QUERY: R269. -/
def execCanQueueQuery (o : Origin) (s : State) : Out :=
  runOut o 0x1804 canQueueQueryForm
    (fun d uid s => let q := (at? (can s d.ch).q (d.u 24 8)).getD {}; finish uid 0 (q.matched + 2 ^ 32 * q.dropped) s) s

/-! ### The tester -/

/-- DIAGNOSTIC_REQUEST: R84; one at a time, from the controller and identifier of table 0x09. -/
def execDiagnosticRequest (n : Fin 8) (f : CanFrame) (s : State) : Out :=
  .next (whenOn (fun s =>
    let w := memLe (tblM s 9) 276 4
    if diagCan s != n || !canHears s n s.dt || s.diagBusy || !f.fd || dlcLen f.fd f.dlc != 32 || f.ide != bitN w 29 || f.ident != fld w 0 29 then s
    else { s with diagBusy := true, diagPipe := some { origin := .diag, raw := BitVec.ofNat 256 (ofLe (f.data.take 32)) } }) s)

end Sys2Proof.Machine
end

