-- ==== Sys2Proof/Machine/Lin.lean ====
section
/-! DEFINITION. LIN commanders: schedules, publish buffers, responses and errors; the gateway's holding and drops
(file 11).
Readings of the spec: log entry 19, DEDUCED. -/

namespace Sys2Proof.Machine

/-- FIRST and COUNT of a schedule; KIND, FID, SLOT_MS and ARG of a slot (R284). -/
def schedFirst (s : State) (n k : Nat) : Nat := memLe (tblM s 11) (272 + 4 * (8 * n + k)) 2
def schedCount (s : State) (n k : Nat) : Nat := memLe (tblM s 11) (274 + 4 * (8 * n + k)) 2
def linSlotU (s : State) (i off w : Nat) : Nat := memLe (tblM s 11) (2592 + 8 * i + off) w

/-- Ticks of `b` tenths of a bit time (R272, R275). -/
def bitTicks (s : State) (n b : Nat) : Nat := b * 80000000 / (10 * max 1 (linU s n 2 2))

/-- Protected identifier (R272): parity bits P0 and P1 over the identifier. -/
def pidOf (fid : Nat) : Nat :=
  let b := fun i => b2n (bitN fid i)
  let p0 := (b 0 + b 1 + b 2 + b 4) % 2
  let p1 := (1 + b 1 + b 3 + b 4 + b 5) % 2
  fld fid 0 6 + 64 * p0 + 128 * p1

/-- Checksum of a response: the inverted sum with carry, over the PID as well when enhanced. -/
def linCks (fid : Nat) (enhanced : Bool) (data : List Byte) : Nat :=
  let add := fun a b : Nat => let t := a + b; if 256 ≤ t then t - 255 else t
  255 - (data.foldl (fun a b => add a b.toNat) (if enhanced then pidOf fid else 0))

def linEvent (n code d1 d2 : Nat) (s : State) : State := emit (linU s n 4 1) code (netTarget (8 + n)) d1 d2 s

/-- A response may still arrive: as for sending, in the slot that DRAIN ends (R275, R299), and in the slot in progress when a C2
state stops the segment's transmission, since reception continues (R414). -/
def linHears (s : State) (n : Nat) : Bool :=
  linEn s n && (segOpen s (8 + n) || (seg s (8 + n)).st == .drain) && !dieDown s .base && !(lin s n).busDom

/-- The commander may send: enabled, its segment open, no C2 stop, the link up, the bus not dominant. -/
def linRuns (s : State) (n : Nat) : Bool := linEn s n && segOpen s (8 + n) && !segStopped s (8 + n) && !dieDown s .base && !(lin s n).busDom

/-! ### Schedules -/

/-- A schedule runs from its first slot; LIN_SCHED_EVT (R276, R288). -/
def switchSched (n : Nat) (new : Option Nat) (coll : Bool) (s : State) : State :=
  let old := (lin s n).sched
  let s := setLin n (fun l => { l with sched := new, next := 0, slot := 0 }) s
  linEvent n 0x1982 (new.getD 0xFF + putF (old.getD 0xFF) 8 8 + putF (b2n coll) 16 1) 0 s

/-- The LIN_SCHEDs that take effect at the end of a slot, in order (R276): one with AT_END only where the slot was the last of
the schedule that runs by then. -/
def takeScheds (n : Nat) : Bool → List (Nat × Nat × Bool) → State → State
  | _, [], s => s
  | atEnd, (uid, sch, e) :: rest, s =>
    if e && !atEnd then takeScheds n atEnd rest s
    else
      let s := setLin n (fun l => { l with pend := l.pend.filter (·.1 != uid), coll := none, collPend := none }) s
      let s := switchSched n (if sch == 0xFF then none else some sch) false s
      takeScheds n (sch == 0xFF) rest (finish uid 0 (putF s.dt 32 32) s)

/-- The commander goes back to the first slot of the schedule that it runs, for a collision resolution the interrupted one (R277). -/
def restartSched (n : Nat) (s : State) : State :=
  let s := setLin n (fun l => { l with next := 0, collPend := none, cur := l.cur.map fun c => { c with collSched := 0xFF } }) s
  match (lin s n).coll with
  | some (back, _) => switchSched n (some back) false (setLin n (fun l => { l with coll := none }) s)
  | none => s

/-- The slot in progress ends (R276): header errors counted, then LIN_SCHED, then collision resolution, then the next
slot of the schedule. -/
def endSlot (n : Nat) (s : State) : State :=
  let l := lin s n
  let good := match l.cur with | some c => c.sent && !c.hdrBad | none => false
  let s := setLin n (fun l => { l with cur := none, hdrRun := if good then 0 else l.hdrRun }) s
  let last := match l.sched with | some k => schedCount s n k ≤ l.next | none => true
  let s := if l.pend.isEmpty then s else takeScheds n (last && l.coll.isNone) l.pend s
  let l := lin s n
  match l.collPend with
  | some k =>
    (match l.sched with
    | some cur =>
      let s := setLin n (fun l => { l with coll := some (cur, l.next), collPend := none }) s
      switchSched n (some k) true s
    | none => setLin n (fun l => { l with collPend := none }) s)
  | none =>
    match l.sched with
    | none => s
    | some k =>
      if l.next < schedCount s n k then s
      else match l.coll with
        | some (back, at') =>
          let s := setLin n (fun l => { l with coll := none }) s
          setLin n (fun l => { l with next := if at' < schedCount s n back then at' else 0 }) (switchSched n (some back) false s)
        | none => setLin n (fun l => { l with next := 0 }) s

/-- The updated associated frame of highest priority of a sporadic slot (R273). -/
def sporadicPick (s : State) (n i : Nat) : Option Nat :=
  ((List.range 4).map fun j => linSlotU s i (4 + j) 1).find? fun f => f < 64 && ((pub s n f).updated || (pub s n f).writes.any (pubDue s.dt))

/-- A header goes out (R273, R277): the slot in progress, under the set in force. Below 6.0 V the transmitter stays
recessive (R503), so that no responder hears the header. -/
def linHeader (s : State) (n f kind len : Nat) (enh sub : Bool) : LinSlot :=
  { fid := f, kind := kind, sub := sub && !crankRange s.pw.vbat, len := len, enhanced := enh, brk := s.dt, sent := true
    tMax := bitTicks s n (14 * (linU s n 8 1 + 21 + 10 * (len + 1))), rxRing := linU s n 5 1, evtRing := linU s n 4 1, nrRun := linU s n 7 1 }

/-- A response published with its header: its bytes and their checksum; below 6.0 V nothing is driven (R503). -/
def linSends (n : Nat) (cur : LinSlot) (out : List Byte) (s : State) : State :=
  setLin n (fun l => { l with cur := some { cur with bytes := if crankRange s.pw.vbat then [] else out ++ [BitVec.ofNat 8 (linCks cur.fid cur.enhanced out)] } }) s

/-- The header and response of frame `f` in slot `i` of the table (R273, R274). -/
def linFrame (n i kind f : Nat) (s : State) : State :=
  let (dir, len, enh) := frameDef (tblM s 11) n f
  let sub := kind == 1 || dir == 2
  let cur := { linHeader s n f kind len enh sub with collSched := linSlotU s i 4 1 }
  if kind == 3 then
    match (lin s n).diag with
    | some (u, bytes) => finish u 0 (putF s.dt 32 32) (setLin n (fun l => { l with diag := none }) (linSends n cur bytes s))
    | none => s
  else if sub then setLin n (fun l => { l with cur := some cur }) s
  else
    let s := pubLatch n f s
    let s := linSends n cur ((pub s n f).bytes.take len) s
    if kind == 2 then setPub n f (fun p => { p with updated := false }) s else s

/-- The next slot of the running schedule starts (R273). A break within 5 µs of the slot's start keeps the grid. -/
def startSlot (n : Nat) (s : State) : State :=
  let start := if s.dt < (lin s n).slotEnd + us 5 then (lin s n).slotEnd else s.dt
  let s := endSlot n s
  match (lin s n).sched with
  | none => s
  | some k =>
    let pos := (lin s n).next
    let i := schedFirst s n k + pos
    let kind := linSlotU s i 1 1
    let fid := if kind == 2 then sporadicPick s n i else if kind == 3 then (if (lin s n).diag.isSome then some 0x3C else none)
      else if kind == 4 then some 0x3D else some (linSlotU s i 0 1)
    let s := setLin n (fun l => { l with slot := i, next := pos + 1, slotEnd := start + ms (linSlotU s i 2 2) }) s
    match fid with
    | none => s
    | some f => linFrame n i kind f s

/-- The slot in progress has ended in DRAIN: the schedule stops, what waits for it ends with 0x10, and the go-to-sleep command
goes out in a slot of its own (R299): break, delimiter, two bytes of header, one bit, nine bytes (R273). -/
def startSleepCmd (n : Nat) (s : State) : State :=
  let s := endSlot n s
  let rest := (lin s n).pend
  let s := setLin n (fun l => { l with sched := none, coll := none, collPend := none, pend := [], slotEnd := s.dt + bitTicks s n (10 * (linU s n 8 1 + 112)) }) s
  let s := linSends n { linHeader s n 0x3C 3 8 false false with sleepCmd := true } (0x00 :: List.replicate 7 0xFF) s
  rest.foldl (fun s x => finishFree x.1 0x10 s) s

/-- The go-to-sleep command is on the bus. -/
def sleepCmdOut (s : State) (n : Nat) : Bool := match (lin s n).cur with | some c => c.sleepCmd | none => false

/-- LIN_SLOT_START: R273, R274; in DRAIN, R299. -/
def execLinSlotStart (n : Fin 8) (s : State) : Out :=
  .next (whenOn (onlyIf ((lin s n).slotEnd ≤ s.dt) fun s =>
    if linRuns s n && ((lin s n).sched.isSome || !(lin s n).pend.isEmpty) then startSlot n s
    else if linHears s n && !segStopped s (8 + n) && (seg s (8 + n)).st == .drain && !sleepCmdOut s n then startSleepCmd n s
    else s) s)

/-! ### Responses and errors -/

/-- LIN_RX: R273, R275, R278; the response's bytes and its checksum. -/
def execLinRx (n : Fin 8) (data : List Byte) (cks : Byte) (s : State) : Out :=
  .next (whenOn (fun s =>
    match (lin s n).cur with
    | none => s
    | some c =>
      if !linHears s n || !c.sub || data.length != c.len || cks.toNat != linCks c.fid c.enhanced data || c.brk + c.tMax < s.dt then s
      else
        let assoc := if c.kind == 1 then fld ((data.head?.map (·.toNat)).getD 0) 0 6 else c.fid
        let s := setPub n c.fid (fun p => { p with run := 0 }) (setLin n (fun l => { l with cur := some { c with sub := false } }) s)
        let d1 := c.fid + putF (pidOf c.fid) 8 8 + putF c.len 16 4 + putF (b2n c.enhanced) 20 1 + putF (b2n (c.kind == 1)) 21 1
        let s := emitAt c.rxRing 0x1980 (netTarget (8 + n)) d1 (ofLe data) c.brk false s
        routeFrom (routesAt s c.brk) true n assoc false data s) s)

/-- Whether an error of a code can arise in the slot that runs (R275). -/
def linErrFits (c : LinSlot) (k now : Nat) : Bool :=
  let late := decide (c.brk + c.tMax ≤ now)
  match k with
  | 1 => c.sub && late && c.kind != 1
  | 2 => c.sub && late
  | 3 => c.sub && c.kind != 1
  | 4 => c.sub && c.kind != 1
  | 5 => c.sent
  | 6 => c.sub && c.kind == 1
  | _ => false

/-- LIN_ERR: R275; the code, the bytes received, whether a readback error lies in the header. -/
def execLinErr (n : Fin 8) (code : Fin 7) (got : Nat) (header : Bool) (s : State) : Out :=
  .next (whenOn (fun s =>
    match (lin s n).cur with
    | none => s
    | some c =>
      let k := code.val
      if !linErrFits c k s.dt || !linHears s n then s
      else
        let noRes := k == 1 || k == 2
        let run := if noRes then sat 8 ((pub s n c.fid).run + 1) else 0
        let was := (pub s n c.fid).run
        let s := setPub n c.fid (fun p => { p with run := run }) s
        let bad := k == 5 && header && !c.hdrBad
        let hdr := if bad then (lin s n).hdrRun + 1 else (lin s n).hdrRun
        let s := setLin n (fun l => { l with cur := some { c with sub := false, hdrBad := c.hdrBad || bad }, lastErr := k, errs := sat 32 (l.errs + 1), hdrRun := hdr
                                             noResp := if noRes then sat 16 (l.noResp + 1) else l.noResp
                                             other := if noRes then l.other else sat 16 (l.other + 1)
                                             collPend := if k == 6 && c.collSched != 0xFF && l.coll.isNone then some c.collSched else l.collPend }) s
        let s := emit c.evtRing 0x1981 (netTarget (8 + n)) (c.fid + putF k 8 3 + putF (sat 8 got) 16 8 + putF run 24 8) 0 s
        if noRes && run == c.nrRun && was < run then raise 206 (netTarget (8 + n)) s
        else if k == 3 then raise 207 (netTarget (8 + n)) s
        else if bad && hdr == 3 then raise 208 (netTarget (8 + n)) s
        else s) s)

/-- LIN_BUS_DOMINANT: R275. On an ASLEEP segment whose detection is armed, with NS or with the root island, it is kept for the
next AWAKE (R296); one that is not armed is not seen (R297). -/
def execLinBusDominant (n : Fin 8) (s : State) : Out :=
  .next (
    let b := 8 + n.val
    if (seg s b).arm.isSome then setSeg b (fun g => { g with domLate := true }) s
    else whenOn (onlyIf (linEn s n && !(lin s n).busDom) fun s =>
      if (seg s b).st == .asleep then (if nsDetects s b then setSeg b (fun g => { g with domLate := true }) s else s)
      else raise 208 (netTarget b) (setSeg b (fun g => { g with quietSince := s.dt }) (setLin n (fun l => { l with busDom := true, cur := none }) s))) s)

/-- LIN_BUS_RECESSIVE: R275; the schedule goes on with its next slot, and the quiet time starts anew (R300). -/
def execLinBusRecessive (n : Fin 8) (s : State) : Out :=
  .next (whenOn (onlyIf (lin s n).busDom fun s => busActive (8 + n) (setLin n (fun l => { l with busDom := false, slotEnd := s.dt }) s)) s)

/-! ### Descriptors -/

def linRange (d : Desc) : Bool := d.slice == 7 && 8 ≤ d.ch && d.ch < 16

/-- What LIN_WRITE asks of its descriptor. -/
def linWriteForm (s : State) (d : Desc) : OpForm :=
  let (dir, len, _) := frameDef (tblM s 11) (d.ch - 8) (d.u 24 8)
  { idem := true, used := pm 16 88, range := linRange d && 1 ≤ d.u 26 8 && d.u 26 8 ≤ 8 && dir == 1 && d.u 25 8 + d.u 26 8 ≤ len, state := linEn s (d.ch - 8) }

/-- LIN_WRITE: R274, R287. -/
def execLinWrite (o : Origin) (s : State) : Out :=
  runOut o 0x1900
    linWriteForm
    (fun d uid s =>
      finish uid 0 (putF s.dt 32 32) (pubWrite (d.ch - 8) (d.u 24 8) (d.u 25 8) (leBytes (d.u 26 8) (d.u 16 64)) none s)) s

/-- What LIN_SCHED asks of its descriptor. -/
def linSchedForm (s : State) (d : Desc) : OpForm :=
  let k := d.u 24 8
  { idem := true, used := pm 24 9, range := linRange d && (k < 8 || k == 0xFF)
    state := linEn s (d.ch - 8) && segOpen s d.ch && !segStopped s d.ch && (k == 0xFF || schedCount s (d.ch - 8) k != 0) }

/-- LIN_SCHED: R276, R287, R291. With no slot in progress it takes effect at once. -/
def execLinSched (o : Origin) (s : State) : Out :=
  runOut o 0x1901
    linSchedForm
    (fun d uid s =>
      let n := d.ch - 8
      let s := setLin n (fun l => { l with pend := l.pend ++ [(uid, d.u 24 8, bitN (d.u 25 8) 0)] }) s
      if (lin s n).sched.isNone && (lin s n).slotEnd ≤ s.dt then takeScheds n true (lin s n).pend s else s) s

/-- The running schedule has a commander-request slot (R287). -/
def hasRequestSlot (s : State) (n : Nat) : Bool :=
  match (lin s n).sched with
  | some k => (List.range (schedCount s n k)).any fun j => linSlotU s (schedFirst s n k + j) 1 1 == 3
  | none => false

/-- What LIN_DIAG_REQ asks of its descriptor. -/
def linDiagReqForm (s : State) (d : Desc) : OpForm :=
  { used := pm 16 64, range := linRange d, res := (lin s (d.ch - 8)).diag.isNone
    state := linEn s (d.ch - 8) && segOpen s d.ch && hasRequestSlot s (d.ch - 8) }

/-- LIN_DIAG_REQ: R273, R287, R291. -/
def execLinDiagReq (o : Origin) (s : State) : Out :=
  runOut o 0x1902
    linDiagReqForm
    (fun d uid s => setLin (d.ch - 8) (fun l => { l with diag := some (uid, leBytes 8 (d.u 16 64)) }) s) s

/-- What LIN_QUERY asks of its descriptor. -/
def linQueryForm (s : State) (d : Desc) : OpForm :=
  { idem := true, range := linRange d, state := linEn s (d.ch - 8) }

/-- LIN_QUERY: R287. -/
def execLinQuery (o : Origin) (s : State) : Out :=
  runOut o 0x1903 linQueryForm
    (fun d uid s =>
      let l := lin s (d.ch - 8)
      finish uid 0 (l.sched.getD 0xFF + putF l.slot 8 12 + putF (b2n l.coll.isSome) 20 1 + putF (seg s d.ch).xcvr 21 2 + putF l.errs 32 32) s) s

/-- Isolation bitmap (R283, R307). -/
def isoMap (s : State) : Nat := ((List.range 16).map fun b => if segIsolated s b then 2 ^ b else 0).foldl (· + ·) 0

/-- What GW_ISOLATE asks of its descriptor. -/
def gwIsolateForm (_ : State) (d : Desc) : OpForm :=
  { idem := true, used := pm 24 16, range := d.target == gwTarget && d.u 24 8 < 16 && d.u 25 8 ≤ 1 }

/-- GW_ISOLATE: R283, R307. -/
def execGwIsolate (o : Origin) (s : State) : Out :=
  runOut o 0x1904 gwIsolateForm
    (fun d uid s =>
      let b := d.u 24 8
      let on := d.u 25 8 == 1
      let s := setSeg b (fun g => { g with isoHost := on, swk := g.swk && !on, swkErr := if on then 0 else g.swkErr }) s
      let s := if on then gwDropFor b 3 s else s
      finish uid 0 (isoMap s) s) s

/-- What GW_ROUTE_QUERY asks of its descriptor. -/
def gwRouteQueryForm (s : State) (d : Desc) : OpForm :=
  { idem := true, used := pm 28 16, range := d.target == gwTarget && d.u 28 16 < routeCount (tblM s 12) }

/-- GW_ROUTE_QUERY: R287. -/
def execGwRouteQuery (o : Origin) (s : State) : Out :=
  runOut o 0x1905 gwRouteQueryForm
    (fun d uid s => let c := routeCnt s (d.u 28 16); finish uid 0 (c.matched + 2 ^ 32 * c.forwarded) s) s

/-! ### Gateway -/

/-- GATEWAY_BUFFER_ASSIGN: the oldest held frame for a controller takes a free gateway buffer (R280, R281). -/
def execGatewayBufferAssign (n : Fin 8) (s : State) : Out :=
  .next (whenOn (fun s =>
    match s.ns.holding.find? fun h => h.can == n.val with
    | none => s
    | some h =>
      if gwTxBuf s n ≤ txGw (can s n) || 32 ≤ txUsed (can s n) then s
      else
        let s := modNs (fun x => { x with holding := x.holding.erase h }) s
        addBuf n (fun k => { src := .route h.route, frame := h.frame, valid := h.valid, maxAge := h.maxAge, order := k }) s) s)

/-- GATEWAY_MAX_AGE: frames whose transmission has not started in time are withdrawn (R280). -/
def execGatewayMaxAge (s : State) : Out :=
  .next (whenOn (fun s =>
    let late := fun valid maxAge : Nat => decide (valid + ms maxAge ≤ s.dt)
    let held := s.ns.holding.filter fun h => late h.valid h.maxAge
    let isLate := fun b : TxBuf => match b.src with | .route _ => b.attempts == 0 && late b.valid b.maxAge | _ => false
    let bufs := ((List.range 8).map fun n => (can s n).bufs.filter isLate).flatten
    let s := modNs (fun x => { x with holding := x.holding.filter fun h => !late h.valid h.maxAge
                                      can := x.can.map fun c => { c with bufs := c.bufs.filter fun b => !isLate b } }) s
    let rs := held.map (·.route) ++ bufs.filterMap fun b => match b.src with | .route r => some r | _ => none
    rs.foldl (fun s r => routeDrop r 1 s) s) s)

/-- GW_DROP: a route's 100 ms interval ends (R280, R288). -/
def execGwDrop (r : Nat) (s : State) : Out :=
  .next (whenOn (fun s =>
    let c := routeCnt s r
    match c.interval with
    | some t =>
      if t + ms 100 ≤ s.dt then
        emit (gwRing s) 0x1983 gwTarget (fld r 0 11 + putF c.reason 11 3) c.since (setRoute r (fun c => { c with since := 0, interval := none }) s)
      else s
    | none => s) s)

end Sys2Proof.Machine
end

