-- ==== Sys2Proof/Machine/Sleep.lean ====
section
/-! DEFINITION. Segments: the sleep agreement, wake detection, announcements, maximum awake time, the device sleep commit
point and wakes latched in park; commits and links at NS (files 10 to 12).
Readings of the spec: log entry 20, DEDUCED. -/

namespace Sys2Proof.Machine

/-- A segment runs its own traffic again: a controller whose transceiver returns to normal integrates, a schedule starts (R292,
R301). -/
def segStarts (b : Nat) (low : Bool) (s : State) : State :=
  if b < 8 then (if low then setCan b (fun c => { c with integ := some 0 }) s else s)
  else
    let n := b - 8
    let k := linU s n 6 1
    let s := setLin n (fun l => { l with cur := none, coll := none, collPend := none, slotEnd := s.dt }) s
    if k < 8 && schedCount s n k != 0 then switchSched n (some k) false s else setLin n (fun l => { l with sched := none }) s

/-! ### Descriptors -/

def netRange (d : Desc) : Bool := d.slice == 7 && d.ch < 16

/-- What NET_SLEEP asks of its descriptor. -/
def netSleepForm (s : State) (d : Desc) : OpForm :=
  { idem := true, range := netRange d, state := segOpen s d.ch }

/-- NET_SLEEP: R291, R298, R299, R310. -/
def execNetSleep (o : Origin) (s : State) : Out :=
  runOut o 0x1A00 netSleepForm
    (fun d uid s =>
      let b := d.ch
      let s := if b < 8 && (seg s b).xcvr != 0 then setCan b (fun c => { c with integ := some 0 }) s else s
      let s := setSeg b (fun g => { g with released := true, sleep := some (uid, s.dt), tQuiet := segU s b 2 2, tAgree := netU s 0 2, awakeSince := some s.dt, keeper := none, xcvr := 0 }) s
      let s := segState b .drain 0 s
      if b < 8 then
        let run := (can s b).attempt.map (·.order)
        let idle := fun x : TxBuf => (match x.src with | .desc _ _ => true | .diag => true | _ => false) && run != some x.order
        let gone := (can s b).bufs.filter idle
        let s := setCan b (fun c => { c with bufs := c.bufs.filter fun x => !idle x }) s
        let s := gone.foldl (fun s x => txEnds x 0x10 (txFailRes x 0) 0 s) s
        gwDropFor b 4 s
      else
        let n := b - 8
        let s := match (lin s n).diag with | some (u, _) => finishFree u 0x10 (setLin n (fun l => { l with diag := none }) s) | none => s
        s) s

/-- What NET_WAKE asks of its descriptor. -/
def netWakeForm (s : State) (d : Desc) : OpForm :=
  { idem := true, range := netRange d, state := segEn s d.ch }

/-- NET_WAKE: R301, R307, R310. -/
def execNetWake (o : Origin) (s : State) : Out :=
  runOut o 0x1A01 netWakeForm
    (fun d uid s =>
      let b := d.ch
      let g := seg s b
      if g.st == .awake then finish uid 0 (putF g.changeDt 32 32) s
      else
        let s := setSeg b (fun x => { x with wakeUids := x.wakeUids ++ [(uid, segCode g.st)] }) s
        if g.st == .waking then s else segWake b 1 true s) s

/-- What NET_LISTEN asks of its descriptor. -/
def netListenForm (s : State) (d : Desc) : OpForm :=
  { idem := true, used := pm 24 8, range := netRange d && d.ch < 8 && d.u 24 8 ≤ 1, state := segEn s d.ch && (seg s d.ch).st == .awake }

/-- NET_LISTEN: R310. -/
def execNetListen (o : Origin) (s : State) : Out :=
  runOut o 0x1A02
    netListenForm
    (fun d uid s =>
      let was := (seg s d.ch).xcvr
      let s := setSeg d.ch (fun g => { g with xcvr := d.u 24 8 }) s
      let s := if was == 1 && d.u 24 8 == 0 then setCan d.ch (fun c => { c with integ := some 0 }) s else s
      finish uid 0 0 s) s

/-- Seconds of the awake timer (R306). -/
def awakeSecs (s : State) (b : Nat) : Nat := match (seg s b).awakeSince with | some t => sat 16 ((s.dt - t) / 80000000) | none => (seg s b).awakeKept

/-- What NET_QUERY asks of its descriptor. -/
def netQueryForm (s : State) (d : Desc) : OpForm :=
  { idem := true, range := netRange d, state := segEn s d.ch }

/-- NET_QUERY: R310. -/
def execNetQuery (o : Origin) (s : State) : Out :=
  runOut o 0x1A03 netQueryForm
    (fun d uid s =>
      let g := seg s d.ch
      finish uid 0 (segCode g.st + putF g.xcvr 4 2 + putF (b2n g.released) 6 1 + putF (b2n g.isoHost) 7 1 + putF (b2n g.isoAuto) 8 1 + putF (b2n (segArmed s d.ch)) 9 1 +
        putF (awakeSecs s d.ch) 16 16 + putF g.changeDt 32 32) s) s

/-! ### The agreement -/

/-- DRAIN_END: R298, R299; on a LIN segment the stop bit of the go-to-sleep command's checksum. -/
def execDrainEnd (b : Fin 16) (s : State) : Out :=
  .next (whenOn (fun s =>
    let n := b.val - 8
    let ready := if b.val < 8 then (can s b).attempt.isNone else sleepCmdOut s n && (lin s n).slotEnd ≤ s.dt
    if (seg s b).st != .drain || !ready then s
    else
      let s := if b.val < 8 then s else setLin n (fun l => { l with cur := none }) s
      segState b .quiet 0 (setSeg b (fun g => { g with quietSince := s.dt }) s)) s)

/-- T_QUIET_MS: of the NET_SLEEP in progress, once that has timed out the committed one (R75, R300). -/
def quietMs (s : State) (b : Nat) : Nat := if (seg s b).sleep.isSome then (seg s b).tQuiet else segU s b 2 2

/-- SEGMENT_COMMIT: R300; not while the bus is held dominant. -/
def execSegmentCommit (b : Fin 16) (s : State) : Out :=
  .next (whenOn (onlyIf ((seg s b).st == .quiet && !(8 ≤ b.val && (lin s (b - 8)).busDom) && (seg s b).quietSince + ms (quietMs s b) ≤ s.dt) fun s =>
    let s := segState b .asleep 0 (setSeg b (fun g => { g with xcvr := 2, awakeSince := none, awakeKept := 0 }) s)
    endSleep b 0 (putF s.dt 32 32) s) s)

/-- AGREE_TIMEOUT: R300. -/
def execAgreeTimeout (b : Fin 16) (s : State) : Out :=
  .next (whenOn (fun s =>
    match (seg s b).sleep with
    | some (u, t) =>
      if t + ms (seg s b).tAgree ≤ s.dt then raise 212 (netTarget b) (finishFree u 0x13 (setSeg b (fun g => { g with sleep := none }) s)) else s
    | none => s) s)

/-! ### Wakes -/

/-- A wake recognised on an ASLEEP segment while the device runs (R302); it ends STANDBY (R433). -/
def wakeSeen (b cause word data : Nat) (s : State) : State :=
  let s := netWakeSrc b cause false word data s.dt false (segWake b cause true s)
  modPw (fun w => { w with exitTrigger := w.exitTrigger || w.state == .standby }) s

/-- The decoder has dominant bits: its silence starts anew (R295). -/
def decoderActive (n : Nat) (s : State) : State := setSeg n (fun g => { g with actDt := s.dt, actRt := s.rt }) s

/-- The decoder starts with the bias ramp (R293, R295). -/
def startDecoder (n : Nat) (s : State) : State :=
  decoderActive n (if (seg s n).swk then s else setSeg n (fun g => { g with swk := true, swkErr := 0, swkDt := s.dt, swkRt := s.rt }) s)

/-- The bus has carried no dominant bit for t_SILENCE, 0.6 s at least (R295): by DT, or with the clocks off by RT. -/
def decoderSilent (s : State) (n : Nat) : Bool :=
  (s.pw.clocks && (seg s n).actDt + ms 600 ≤ s.dt) || (seg s n).actRt + 9831 ≤ s.rt

/-- The root island holds an armed selective-wake segment (R297, R304). -/
def rootDecodes (s : State) (n : Nat) : Bool := match (seg s n).arm with | some a => a.sw | none => false

/-- WAKE_UP_PATTERN: R294, R295. With selective wake it starts the ramp and the decoder, in park too; there, a wake itself comes
with WAKE_LATCH. -/
def execWakeUpPattern (n : Fin 8) (s : State) : Out :=
  .next (
    if rootDecodes s n then startDecoder n s
    else whenOn (onlyIf (nsDetects s n) fun s => if segFlag s n 1 then startDecoder n s else wakeSeen n 3 0 0 s) s)

/-- WAKE_UP_FRAME: R295, R302; the DT of its SOF lies after the ramp, of 100 µs at least (R293). -/
def execWakeUpFrame (n : Fin 8) (w : CanFrame × Nat) (s : State) : Out :=
  .next (whenOn (onlyIf (nsDetects s n && segFlag s n 1 && (seg s n).swk && (seg s n).swkDt + us 100 ≤ w.2 && w.2 ≤ s.dt && isWuf (armOf s n) w.1)
    (wakeSeen n 2 (idWord w.1) (dataAt w.1 0 8))) s)

/-- The frame's SOF follows the ramp, of 100 µs of DT at least (R293), or three ticks of RT where the root island decodes. -/
def afterRamp (s : State) (x : DecodedFrame) : Bool :=
  let g := seg s x.n
  if rootDecodes s x.n then g.swkRt + 3 ≤ x.sof && x.sof ≤ s.rt else g.swkDt + us 100 ≤ x.sof && x.sof ≤ s.dt

/-- The decoder error count after one frame: an erroneous one adds 1, a correct one takes 1 off (R295). -/
def decoderCount (c : Nat) (bad : Bool) : Nat := if bad then min 32 (c + 1) else c - 1

/-- DECODER_ERROR_COUNT: R295; one frame decoded, erroneous or correct. At 32 NS wakes the segment; in park the wake comes with
WAKE_LATCH. -/
def execDecoderErrorCount (x : DecodedFrame) (s : State) : Out :=
  .next (
    let n := x.n
    if !(seg s n).swk || !afterRamp s x then s
    else
      let s := decoderActive n s
      let c := decoderCount (seg s n).swkErr x.bad
      let count := setSeg n (fun g => { g with swkErr := c })
      if rootDecodes s n then count s
      else whenOn (onlyIf (nsDetects s n && segFlag s n 1) fun s =>
        if c < 32 then count s else raise 213 (netTarget n) (wakeSeen n 5 0 0 (count s))) s)

/-- DECODER_SILENCE: R295. -/
def execDecoderSilence (n : Fin 8) (s : State) : Out :=
  .next (onlyIf ((seg s n).swk && decoderSilent s n) (setSeg n fun g => { g with swk := false, swkErr := 0 }) s)

/-- LIN_WAKE: R296, R301, R302. -/
def execLinWake (n : Fin 8) (s : State) : Out :=
  .next (whenOn (fun s =>
    let b := 8 + n.val
    let st := (seg s b).st
    if nsDetects s b then wakeSeen b 4 0 0 s
    else if segEn s b && (st == .drain || st == .quiet) then segWake b 4 true s
    else s) s)

/-- SEGMENT_AWAKE: R290, R293, R301; a LIN commander first sends 1 ms dominant and waits LIN_WAKE_MS. Before the first commit no
segment is enabled, and one that R305 has set WAKING waits. -/
def execSegmentAwake (b : Fin 16) (s : State) : Out :=
  .next (whenOn (fun s =>
    let g := seg s b
    if g.st != .waking || !segEn s b || dieDown s .base || (2 ≤ g.xcvr && s.dt < g.changeDt + us 10) || (8 ≤ b.val && s.dt < g.changeDt + ms (1 + g.linWake.getD (netU s 4 2))) then s
    else
      let s := setSeg b (fun g => { g with xcvr := 0, wakeUids := [], domLate := false, annSince := g.annSince.map fun _ => s.dt }) s
      let s := segStarts b (g.xcvr != 0) (segState b .awake 0 s)
      let s := g.wakeUids.foldl (fun s x => finish x.1 0 (x.2 + putF s.dt 32 32) s) s
      if g.domLate then raise 208 (netTarget b) s else s) s)

/-- An attempt of the segment's announcement runs. -/
def annRuns (s : State) (n : Nat) : Bool := match running s n with | some (_, b) => b.src == .announce | none => false

/-- The announcement is over: its buffer is free. -/
def annOver (n : Nat) (s : State) : State :=
  setCan n (fun c => { c with bufs := c.bufs.filter fun b => b.src != .announce }) (setSeg n (fun g => { g with annSince := none, annSent := none }) s)

/-- NET_ANNOUNCE: R301, R311. An attempt that runs when 100 ms have passed is waited for. -/
def execNetAnnounce (n : Fin 8) (s : State) : Out :=
  .next (whenOn (fun s =>
    match (seg s n).annSent, (seg s n).annSince with
    | some sof, _ => emit (netRing s) 0x1A83 (netTarget n) (n + 16) sof (annOver n s)
    | none, some t => if t + ms 100 ≤ s.dt && !annRuns s n then emit (netRing s) 0x1A83 (netTarget n) n 0 (annOver n s) else s
    | none, none => s) s)

/-- MAX_AWAKE: R306; NET_ISOLATED leaves once its record is written (R462). -/
def execMaxAwake (b : Fin 16) (s : State) : Out :=
  .next (whenOn (fun s =>
    let g := seg s b
    match g.awakeSince with
    | some t =>
      let lim := segU s b 4 2
      if lim == 0 || !g.released || g.st == .asleep || s.dt < t + sec lim then s
      else
        let secs := awakeSecs s b
        let keep := g.keeper.getD 0
        let s := setSeg b (fun g => { g with isoAuto := true, xcvr := 2, awakeSince := none, awakeKept := secs, swk := false }) s
        let s := segState b .asleep 7 s
        let s := endSleep b 0x02 (7 + putF s.dt 32 32) s
        let s := gwDropFor b 3 (if b.val < 8 then setCan b (fun c => { c with attempt := none }) s else s)
        let told : Report := .event (netRing s) 0x1A82 (netTarget b) (b + putF (b2n g.keeper.isSome) 32 1 + putF keep 33 29 + putF (keep / 2 ^ 29) 62 1) secs s.dt false
        let word := keep + (if g.keeper.isSome then 2 ^ 31 else 0)
        raise 211 (netTarget b) (hwPut 0x0031 (leBytes 1 b.val ++ leBytes 4 word) [told] s)
    | none => s) s)

/-! ### Commit, link, park -/

/-- A commander that the new set disables: what waits for it ends with 0x10 (R75). -/
def linRemoved (n : Nat) (s : State) : State :=
  let l := lin s n
  let s := setLin n (fun l => { l with sched := none, cur := none, coll := none, collPend := none, busDom := false, pend := [], diag := none }) s
  let s := l.pend.foldl (fun s x => finishFree x.1 0x10 s) s
  match l.diag with | some (u, _) => finishFree u 0x10 s | none => s

/-- A LIN_SCHED whose schedule the new set leaves empty ends with 0x10 (R75). -/
def dropScheds (n : Nat) (s : State) : State :=
  let gone := (lin s n).pend.filter fun x => x.2.1 != 0xFF && schedCount s n x.2.1 == 0
  gone.foldl (fun s x => finishFree x.1 0x10 s) (setLin n (fun l => { l with pend := l.pend.filter fun x => !gone.contains x }) s)

/-- The commit tick at NS (R246, R262, R274, R277, R282, R290, R305, R310). -/
def nsCommit (first : Bool) (tick : Nat) (old new : Vector Mem 16) (oldPairs : Vector (List Pair) 8) (s : State) : State :=
  let o9 := if first then [] else old[8]
  let o11 := if first then [] else old[10]
  let hears := fun n : Fin 8 => bitN (canE o9 n 0 1) 0 && (seg s n).xcvr ≤ 1 && (can s n).integ.isNone && (can s n).st != 2 && !dieDown s .base
  let gone : PrevNet := { tick := tick, t9 := o9, t12 := if first then [] else old[11], pairs := if first then Vector.replicate 8 [] else oldPairs, hears := Vector.ofFn hears }
  let s := modNs (fun x => { x with prev := (x.prev.filter fun p => tick < p.tick + sec 1) ++ [gone]
                                    cnts := x.cnts.filter fun c => c.1 < routeCount new[11] }) s
  -- segments newly enabled are AWAKE; disabled ones are in sleep, disarmed
  let s := (List.range 16).foldl (fun s b =>
    let en := segEn s b
    let g := seg s b
    let s := setSeg b (fun g => { g with en := en }) s
    if en && !g.en then segStarts b true (segState b .awake 0 (setSeg b (fun g => { g with xcvr := 0, released := false }) s))
    else if !en && (g.en || g.st != .asleep) then
      let s := endSleep b 0x10 (putF s.dt 32 32) s
      let s := g.wakeUids.foldl (fun s x => finishFree x.1 0x10 s) s
      let s := if 8 ≤ b then linRemoved (b - 8) s else s
      setSeg b (fun g => { g with st := .asleep, xcvr := 3, released := false, awakeSince := none, awakeKept := 0, swk := false, annSince := none, wakeUids := [], changeDt := s.dt }) s
    else s) s
  -- controllers whose entry changed
  let s := (List.range 8).foldl (fun s n =>
    if memBytes o9 (16 + 32 * n) 32 == memBytes new[8] (16 + 32 * n) 32 then s
    else
      let run := (can s n).attempt.map (·.order)
      let bad := fun b : TxBuf => run != some b.order && !canSend s n b.frame && (match b.src with | .route _ => false | _ => true)
      let gone := (can s n).bufs.filter bad
      let s := setCan n (fun c => { c with integ := some tick, bufs := c.bufs.filter fun b => !bad b }) s
      let s := if (seg s n).xcvr == 1 then setSeg n (fun g => { g with xcvr := 0 }) s else s
      let s := gwDropCan n (if canEn s n then 2 else 4) (fun f => !canSend s n f) s
      gone.foldl (fun s b => txEnds b 0x10 (txFailRes b 0) 0 s) s) s
  -- commanders run their schedule from its first slot; buffers keep bytes while published with the same LEN
  let s := if !first && o11 == new[10] then s else
    (List.range 8).foldl (fun s n =>
      let drop := (List.range 64).foldl (fun l f =>
        let (d0, l0, _) := frameDef o11 n f
        let (d1, l1, _) := frameDef new[10] n f
        if !first && d0 == 1 && d1 == 1 && l0 == l1 then l else l ++ [f]) []
      let s := dropScheds n s
      let s := drop.foldl (fun s f =>
        let rs := (pub s n f).writes.filterMap fun w => if w.old then none else w.route
        let stays := !first && (frameDef o11 n f).1 == 2 && (frameDef new[10] n f).1 == 2
        rs.foldl (fun s r => routeSuperseded r s) (setPub n f (fun p => { run := if stays then p.run else 0 }) s)) s
      if (seg s (8 + n)).st != .awake || first then s
      else
        let s := restartSched n s
        let keep := match (lin s n).sched with | some k => schedCount s n k != 0 | none => true
        if keep then s
        else
          let k := linU s n 6 1
          switchSched n (if k < 8 && schedCount s n k != 0 then some k else none) false s) s
  s

/-- The base-die link has failed (R264, R277): controllers stop, schedules stop. -/
def nsLinkLost (src : Nat) (s : State) : State :=
  let s := (List.range 8).foldl (fun s n => txAllFail n src s) s
  modNs (fun x => { x with can := x.can.map fun c => { c with attempt := none }, lin := x.lin.map fun l => { l with cur := none } }) s
/-- The link has returned: controllers integrate, schedules restart from their first slot. -/
def nsLinkBack (s : State) : State :=
  let s := (List.range 8).foldl (fun s n => restartSched n s) s
  modNs (fun x => { x with can := x.can.map fun c => { c with integ := some 0 }, lin := x.lin.map fun l => { l with slotEnd := s.dt } }) s

/-- R303: every segment ASLEEP, as a disabled one is; some segment AWAKE, WAKING (before the first commit too, R305), or in QUIET
past its T_AGREE_MS. -/
def nsAllAsleep (s : State) : Bool := (List.range 16).all fun b => (seg s b).st == .asleep
def nsRefuses (s : State) : Bool :=
  (List.range 16).any fun b => (seg s b).st == .awake || (seg s b).st == .waking || ((seg s b).st != .asleep && (seg s b).sleep.isNone)

/-- The device sleep commit point at NS (R297, R304): armed detection passes to the root island. -/
def nsSleepCommit (deep : Bool) (s : State) : State :=
  (List.range 16).foldl (fun s b =>
    let a := armOf s b
    let on := segArmable s b && (!deep || (b < 8 && a.deep))
    setSeg b (fun g => { g with xcvr := 3, arm := if on then some a else none, latch := none, latchBit := false, replayBit := false }) s) s

/-- A wake on a bus is recognised by the root island (R297, R304): where the segment decodes, by a WUF whose SOF (in RT) follows
the ramp, or by the decoder error count; else by a wake-up pattern or a LIN wake. -/
def netArmed (b : Fin 16) (wuf : Option (CanFrame × Nat)) (s : State) : Bool :=
  let g := seg s b
  match g.arm with
  | none => false
  | some a =>
    match wuf with
    | some (f, sof) => a.sw && g.swk && g.swkRt + 3 ≤ sof && sof ≤ s.rt && isWuf a f
    | none => !a.sw || (g.swk && g.swkErr == 32)
/-- The segment's latch in the root island (R305): the first wake stands until the next start has written it. -/
def netLatch (b : Fin 16) (wuf : Option (CanFrame × Nat)) (replayed : Bool) (s : State) : State :=
  let cause := if rootDecodes s b then 5 else if b.val < 8 then 3 else 4
  let l : SegLatch := match wuf with
    | some (f, _) => { rt := s.rt, cause := 2, replayed := replayed, word := idWord f, data := dataAt f 0 8 }
    | none => { rt := s.rt, cause := cause, replayed := replayed, word := 0, data := 0 }
  setSeg b (fun g => { g with swk := false, latch := g.latch <|> some l, latchBit := true, replayBit := if g.latch.isSome then g.replayBit else replayed }) s

/-- What of NS outlives the digital die's run (R305, R307, R313): after a park the segments' states and latches, else
nothing. Imposed isolation ends when the device leaves park. -/
def nsDieOff (park : Bool) (s : State) : State :=
  if park then
    let keep := fun g : Seg => ({ en := g.en, st := g.st, xcvr := 3, released := g.released, isoHost := g.isoHost, arm := g.arm, latch := g.latch, latchBit := g.latchBit, replayBit := g.replayBit
                                  changeDt := g.changeDt, domLate := g.domLate, swk := g.swk, swkErr := g.swkErr, swkDt := g.swkDt, swkRt := g.swkRt, actDt := g.actDt, actRt := g.actRt } : Seg)
    { s with ns := { seg := s.ns.seg.map keep } }
  else { s with ns := { seg := s.ns.seg.map fun g => ({ latch := g.latch, latchBit := g.latchBit, replayBit := g.replayBit } : Seg) } }
/-- The first start of the digital die after a park writes the wakes that the root island has latched, and those segments
enter WAKING (R305); a decoder's error count raises its source (R295). -/
def netReplay (s : State) : State :=
  (List.range 16).foldl (fun s b =>
    match (seg s b).latch with
    | some l =>
      let s := setSeg b (fun g => { g with latch := none }) s
      let s := if l.cause == 5 then raise 213 (netTarget b) s else s
      segWake b l.cause false (netWakeSrc b l.cause l.replayed l.word l.data l.rt true s)
    | none => s) s

/-- A digital die's start leaves park: detection stands with NS again, transceivers in standby (R290). -/
def nsStart (s : State) : State :=
  modNs (fun x => { x with seg := x.seg.map fun g => { g with xcvr := if g.en && g.st == .asleep then 2 else g.xcvr, arm := none } }) s

end Sys2Proof.Machine
end

