-- ==== Sys2Proof/Machine/Access.lean ====
section
/-! DEFINITION. Access and immobiliser: coil fields, search and anticollision, token authentication and memory, key
slots, release frames and the release session (file 13).
Readings of the spec: log entry 29, DEDUCED. -/

namespace Sys2Proof.Machine

/-! ### Entries -/

/-- The block, a coil entry and a token entry of table 0x0E (R334). -/
def accU (s : State) (off w : Nat) : Nat := memLe (tblM s 14) (16 + off) w
def coilU (s : State) (n off w : Nat) : Nat := memLe (tblM s 14) (32 + 8 * n + off) w
/-- The same as a running operation holds them (R75). -/
def AirOp.accU (o : AirOp) (off w : Nat) : Nat := memLe o.cfg (16 + off) w
def AirOp.coilU (o : AirOp) (n off w : Nat) : Nat := memLe o.cfg (32 + 8 * n + off) w
def AirOp.tokenU (o : AirOp) (i off w : Nat) : Nat := memLe o.cfg (64 + 16 * i + off) w
def coilEn (s : State) (n : Nat) : Bool := n < 4 && bitN (coilU s n 0 1) 0
def relEn (s : State) : Bool := bitN (accU s 0 1) 0
def AirOp.timingCheck (o : AirOp) : Bool := bitN (o.accU 0 1) 1
def relCan (s : State) : Nat := accU s 1 1
def lfTarget (n : Nat) : Nat := 0x0800 + n
def relTarget : Nat := 0x0808
/-- An event of AS, to the EVT_RING of table 0x0E; before the first commit to none (R516). -/
def accEvent (code target d1 d2 : Nat) (s : State) : State := emit (if s.stg.inForce then accU s 2 1 else 0xFF) code target d1 d2 s
def key (s : State) (k : Nat) : Option Nat := (at? s.keys k).join

/-- Check value of a key (R325): the first three bytes of AES-128 of a zero block. -/
def kcv (k : Nat) : Nat := ofLe ((beBytes 16 (aesEnc k 0)).take 3)

/-- The token entry that enrols a serial with the right an operation needs (R321, R327). -/
def enrolled (o : AirOp) (serial : Nat) : Option Nat :=
  (List.range 16).find? fun i => bitN (o.tokenU i 0 1) 0 && (o.kind != .release || bitN (o.tokenU i 0 1) 1) && o.tokenU i 4 4 == serial

/-! ### Air protocol -/

def setOp (f : AirOp → AirOp) (s : State) : State := modAcc (fun a => { a with op := a.op.map f }) s
/-- A downlink frame of R318: payload and CRC-16, low byte first. -/
def airFrame (bytes : List Byte) : List Byte := bytes ++ leBytes 2 (crc16 bytes)
/-- The payload of an uplink frame of `n` bytes whose CRC holds. -/
def airPayload (n : Nat) (bytes : List Byte) : Option (List Byte) :=
  if bytes.length == n + 2 && ofLe (bytes.drop n) == crc16 (bytes.take n) then some (bytes.take n) else none

/-- A frame is sent that asks for an answer (R317 to R319): its length, T_RESP and the answer's length in µs. -/
def sendDown (bytes : List Byte) (down resp ans : Nat) (next : AirPhase) (s : State) : State :=
  let nominal := s.dt + us (down + resp)
  let s := modAcc (fun a => { a with sent := airFrame bytes }) s
  setOp (fun o => { o with phase := next, nominal := nominal, ends := nominal + us ans, ready := nominal + us (ans + 500) }) s

/-- Slot of a serial (R320). -/
def slotOf (serial seed : Nat) : Nat := serial * (2 * seed + 1) % 2 ^ 32 / 2 ^ 28

/-- K_T of a serial (R323). -/
def tokenKey (s : State) (serial : Nat) : Nat := aesEnc ((key s 5).getD 0) (ofBe (leBytes 4 serial ++ List.replicate 12 0))

/-- RESULT of a search (R335). -/
def searchResult (o : AirOp) (serial idx : Nat) (session : Bool) : Nat :=
  serial + putF idx 32 4 + putF (b2n session) 36 1 + putF o.round 37 3 + putF (sat 8 o.clean) 40 8 + putF (sat 8 o.failed) 48 8 + putF o.coil 56 8

/-- The field goes off and the operation ends. -/
def airEnd (s : State) : State := modAcc (fun a => { a with op := none, field := none }) s

/-- A release session is open: its RT has not run out, counted in the shorter direction by R124 (R330). -/
def sessionRun (s : State) (t0 minutes : Nat) : Bool :=
  (s.rt - t0) * 61035 * (if s.pw.xtal32 then 9998 else 9600) / 10000 < minutes * 60 * 1000000000
def relSession (s : State) : Bool := match s.acc.session with | some (t, m) => sessionRun s t m | none => false

/-- The release session ends (R330, R336): cause 0 timeout, 1 door, 2 token release; cause 3 by `asReportLost`. -/
def endRelSession (cause door : Nat) (s : State) : State :=
  match s.acc.session with
  | some _ => accEvent 0x1C81 relTarget (cause + putF door 8 8) 0 (modAcc (fun a => { a with session := none }) s)
  | none => s

/-- The unsent release frame is withdrawn and counted (R328). -/
def relWithdraw (s : State) : State :=
  if !s.acc.unsent then s
  else
    let s := (List.range 8).foldl (fun s n =>
      let gone := ((can s n).bufs.filter fun b => b.src == .release).map (·.order)
      setCan n (fun c => { c with bufs := c.bufs.filter fun b => b.src != .release
                                  attempt := match c.attempt with | some a => if gone.contains a.order then none else some a | none => none }) s) s
    let run := s.acc.missRun + 1
    let s := modAcc (fun a => { a with unsent := false, missed := sat 16 (a.missed + 1), missRun := run }) s
    if run == 10 then raise 221 relTarget s else s

/-- Release begins (R327, R328): its first frame is due at once, so that a blocked frame still unsent is withdrawn (R335). -/
def beginRelease (basis : Nat) (s : State) : State :=
  let s := if basis == 0x10 then s else endRelSession 2 0 s
  let s := releaseEndDone (modAcc (fun a => { a with rel := some { basis := basis, next := s.dt }, blocked := 0 }) (relWithdraw s))
  accEvent 0x1C80 relTarget (1 + putF basis 8 8) s.acc.nr s

/-- A coil is done without a valid token: the next one, or the end of the search (R315, R321, R327). -/
def nextCoil (s : State) : State :=
  match s.acc.op with
  | none => s
  | some o =>
    let s := modAcc (fun a => { a with field := none }) s
    match o.coils.tail with
    | c :: cs => setOp (fun o => { o with coils := c :: cs, coil := c, phase := .fieldDue, round := 0, garbled := false, heads := [] }) s
    | [] =>
      let s := airEnd s
      if o.kind == .release && relSession s then finish o.uid 0 (searchResult o 0 0 true) (beginRelease 0x10 s)
      else if o.worked then finish o.uid 0x13 (searchResult o 0 0 false) s
      else finish o.uid 0x12 o.lastSrc s

/-- What the search does next with the clean serials of the round (R321). -/
def nextHead (s : State) : State :=
  match s.acc.op with
  | none => s
  | some o =>
    match o.heads with
    | (serial, bad) :: _ => setOp (fun o => { o with phase := .process, serial := serial, haltDue := bad || (enrolled o serial).isNone }) s
    | [] =>
      if !o.garbled then nextCoil s
      else if o.round < o.accU 3 1 then setOp (fun o => { o with phase := .wupDue }) s
      else nextCoil (raise 219 relTarget s)

/-- An exchange with a token has failed (R321, R323, R335). -/
def airFails (raised noAnswer : Bool) (s : State) : State :=
  match s.acc.op with
  | none => s
  | some o =>
    let s := if raised then raise 218 relTarget s else s
    match o.kind with
    | .search => setOp (fun o => { o with failed := o.failed + 1, phase := .process, haltDue := true }) s
    | .release => setOp (fun o => { o with failed := o.failed + 1, phase := .process, haltDue := true }) s
    | _ => if noAnswer then finishFree o.uid 0x13 (airEnd s) else finish o.uid 0x12 218 (airEnd s)

/-- FIELD_START: the field of the next coil starts; the peak current reached, in mA (R314, R315). -/
def execFieldStart (i : Nat) (s : State) : Out :=
  .next (whenOn (fun s =>
    match s.acc.op with
    | none => s
    | some o =>
      if o.phase != .fieldDue then s
      else
        let n := o.coil
        let s := modAcc (fun a => { a with lfPeak := updN a.lfPeak n fun p => max p (sat 16 i) }) s
        let d := if 1900 ≤ i then 2 else if 2 * i < o.coilU n 2 2 then 1 else 0
        if d == 0 then
          let s := modAcc (fun a => { a with field := some n, lfDiag := updN a.lfDiag n fun _ => 0 }) s
          let next := if o.kind == .search || o.kind == .release then AirPhase.wupDue else .process
          setOp (fun o => { o with phase := next, worked := true, haltDue := false, ready := s.dt + ms (o.coilU n 4 1) }) s
        else
          let s := modAcc (fun a => { a with lfDiag := updN a.lfDiag n fun _ => d }) s
          let s := raise (215 + d) (lfTarget n) (accEvent 0x1C82 (lfTarget n) (n + putF d 2 2) (sat 16 i) s)
          nextCoil (setOp (fun o => { o with lastSrc := 215 + d }) s)) s)

/-- WUP: a new round with a fresh seed (R320, R321). -/
def execWup (seed : Byte) (s : State) : Out :=
  .next (whenOn (fun s =>
    match s.acc.op with
    | none => s
    | some o =>
      if o.phase != .wupDue || s.dt < o.ready then s
      else
        let s := modAcc (fun a => { a with sent := airFrame [0x01, seed, BitVec.ofNat 8 (o.round + 1)] }) s
        let start := s.dt + us 11000
        setOp (fun o => { o with round := o.round + 1, seed := seed.toNat, garbled := false, heads := [], phase := .slots 0 start, nominal := start + us 250 }) s) s)

/-- HALT: a token that is not to be authenticated, or has failed (R319, R321); a token command ends with it (R322, R335). -/
def execHalt (s : State) : Out :=
  .next (whenOn (fun s =>
    match s.acc.op with
    | none => s
    | some o =>
      if o.phase != .process || !o.haltDue || s.dt < o.ready then s
      else
        let s := modAcc (fun a => { a with sent := airFrame (0x02 :: leBytes 4 o.serial) }) s
        match o.kind with
        | .search | .release => nextHead (setOp (fun o => { o with heads := o.heads.tail, haltDue := false, ready := s.dt + us 14500 }) s)
        | _ => finish o.uid 0x12 218 (airEnd s)) s)

/-- AUTH_A: R323. -/
def execAuthA (rnd : BitVec 64) (s : State) : Out :=
  .next (whenOn (fun s =>
    match s.acc.op with
    | none => s
    | some o =>
      if o.phase != .process || o.haltDue || s.dt < o.ready then s
      else
        let s := setOp (fun o => { o with rndD := rnd.toNat }) s
        sendDown (0x10 :: leBytes 4 o.serial ++ leBytes 8 rnd.toNat) 30500 2000 36250 .c1 s) s)

/-- AUTH_B: R323. -/
def execAuthB (s : State) : Out :=
  .next (whenOn (fun s =>
    match s.acc.op with
    | none => s
    | some o =>
      if o.phase != .authBDue || s.dt < o.ready then s
      else
        let c2 := aesEnc (tokenKey s o.serial) (ofBe (leBytes 8 o.rndT ++ leBytes 8 o.rndD))
        sendDown (0x11 :: leBytes 4 o.serial ++ beBytes 16 c2) 46500 2000 6250 .ack s) s)

/-- Keystream and MACs of READ and WRITE (R324). -/
def airStream (o : AirOp) : List Byte := (beBytes 16 (aesEnc o.ks (ofBe (leBytes 8 o.n ++ List.replicate 8 0)))).take 8
def xorBytes (a b : List Byte) : List Byte := List.zipWith (fun x y => x ^^^ y) a b
def airMac (o : AirOp) (n code : Nat) (data : List Byte) : List Byte :=
  (beBytes 16 (cmac o.ks (leBytes 8 n ++ [BitVec.ofNat 8 code, BitVec.ofNat 8 o.block] ++ data))).take 4

/-- READ: R324. -/
def execRead (s : State) : Out :=
  .next (whenOn (fun s =>
    match s.acc.op with
    | none => s
    | some o =>
      if o.phase != .cmdDue || o.kind != .read || s.dt < o.ready then s
      else
        let o := { o with n := o.n + 1 }
        let s := setOp (fun _ => o) s
        sendDown (0x20 :: leBytes 4 o.serial ++ [BitVec.ofNat 8 o.block] ++ airMac o o.n 0x20 []) 24500 2000 28250 .data s) s)

/-- WRITE: R324. -/
def execWrite (s : State) : Out :=
  .next (whenOn (fun s =>
    match s.acc.op with
    | none => s
    | some o =>
      if o.phase != .cmdDue || o.kind != .write || s.dt < o.ready then s
      else
        let o := { o with n := o.n + 1 }
        let s := setOp (fun _ => o) s
        let enc := xorBytes (leBytes 8 o.value) (airStream o)
        sendDown (0x21 :: leBytes 4 o.serial ++ [BitVec.ofNat 8 o.block] ++ enc ++ airMac o o.n 0x21 enc) 40500 4000 14250 .data s) s)

/-- The answer came outside its time (R322). -/
def lateEdge (o : AirOp) (edge : Nat) : Bool := o.timingCheck && (o.nominal + us 20 < edge || edge + us 20 < o.nominal)

/-- The awaited answer's slot or time is over; the next SOF leaves 0.5 ms after the slot and after the actual end of what was
received in it, DT `ended` (R318, R320). -/
def slotAnswer (o : AirOp) (k start : Nat) (a : TokenAnswer) (s : State) : State :=
  let next := fun (len ended : Nat) (s : State) =>
    let t := start + us len
    if k < 15 then setOp (fun o => { o with phase := .slots (k + 1) t, nominal := t + us 250 }) s
    else nextHead (setOp (fun o => { o with ready := max t ended + us 500 }) s)
  match a with
  | .absent => if start + us 1000 ≤ s.dt then next 1000 0 s else s
  | .garbled => if start ≤ s.dt then next 13000 s.dt (setOp (fun o => { o with garbled := true }) s) else s
  | .frame edge bytes =>
    if edge < start || start + us 1000 < edge || s.dt < edge + us 12250 then s
    else match airPayload 4 bytes with
      | none => next 13000 (edge + us 12250) (setOp (fun o => { o with garbled := true }) s)
      | some p =>
        let bad := lateEdge o edge
        let s := if bad then raise 220 relTarget s else s
        next 13000 (edge + us 12250) (setOp (fun o => { o with heads := o.heads ++ [(ofLe p, bad)], clean := o.clean + 1, failed := o.failed + b2n bad }) s)

/-- A valid token has been found (R321, R327). -/
def tokenFound (o : AirOp) (s : State) : State :=
  let idx := (enrolled o o.serial).getD 0
  let s := airEnd s
  finish o.uid 0 (searchResult o o.serial idx false) (if o.kind == .release then beginRelease idx s else s)

/-- The token of an exchange has answered out of time: AS_TIMING, and it is halted (R321, R322); a token command ends with its
HALT. -/
def answerLate (s : State) : State :=
  match s.acc.op with
  | none => s
  | some o =>
    let s := raise 220 relTarget s
    match o.kind with
    | .search | .release => airFails false false s
    | _ => setOp (fun o => { o with phase := .process, haltDue := true }) s

/-- The payload of an answer to a command, by its expected length, judged for its time (R318, R322). The next SOF leaves 0.5 ms
after the answer's actual end. -/
def exchange (o : AirOp) (len : Nat) (a : TokenAnswer) (ok : List Byte → State → State) (s : State) : State :=
  match a with
  | .absent => if o.ends ≤ s.dt then airFails (o.phase == .ack || o.kind == .search || o.kind == .release) (o.phase != .ack) s else s
  | .garbled => if o.nominal ≤ s.dt + us 20 then airFails true false (setOp (fun o => { o with ready := max o.ready (s.dt + us 500) }) s) else s
  | .frame edge bytes =>
    if s.dt < edge + (o.ends - o.nominal) then s
    else
      let t := setOp (fun o => { o with ready := edge + (o.ends - o.nominal) + us 500 }) s
      if lateEdge o edge then answerLate t
      else match airPayload len bytes with
        | none => airFails true false t
        | some p => ok p t

/-- TOKEN_ANSWER: R317, R318, R320 to R324. -/
def execTokenAnswer (a : TokenAnswer) (s : State) : Out :=
  .next (whenOn (fun s =>
    match s.acc.op with
    | none => s
    | some o =>
      match o.phase with
      | .slots k start => slotAnswer o k start a s
      | .c1 =>
        exchange o 16 a (fun p s =>
          let plain := beBytes 16 (aesDec (tokenKey s o.serial) (ofBe p))
          if ofLe (plain.take 8) == o.rndD then setOp (fun o => { o with phase := .authBDue, rndT := ofLe (plain.drop 8) }) s
          else airFails true false s) s
      | .ack =>
        exchange o 1 a (fun p s =>
          if p == [0x5A] then
            let x := leBytes 8 (Nat.xor o.rndD o.rndT)
            if o.kind == .search || o.kind == .release then tokenFound o s
            else setOp (fun o => { o with phase := .cmdDue, ks := aesEnc (tokenKey s o.serial) (ofBe (x ++ x)), n := 0 }) s
          else airFails true false s) s
      | .data =>
        let isRead := o.kind == .read
        exchange o (if isRead then 12 else 5) a (fun p s =>
          let body := p.take (if isRead then 8 else 1)
          if p.drop body.length == airMac o (o.n + 2 ^ 63) (if isRead then 0x20 else 0x21) body then
            finish o.uid 0 (if isRead then ofLe (xorBytes body (airStream o)) else ofLe body) (airEnd s)
          else airFails true false s) s
      | _ => s) s)

/-! ### Descriptors -/

/-- Coils that a mask names (R335): none of them disabled or absent. -/
def coilMaskOk (s : State) (m : Nat) : Bool := m != 0 && m < 16 && (List.range 4).all fun n => !bitN m n || coilEn s n
def maskCoils (m : Nat) : List Nat := (List.range 4).filter fun n => bitN m n

/-- No coil or release channel of AS is held in SAFE by the collector (R415). -/
def accFree (s : State) (outs : List OutId) : Bool := !s.flt.c3 && !(outs.any fun o => inC2 s o) && !dieDown s .base

/-- Start a search (R321). -/
def startSearch (kind : AirKind) (d : Desc) (uid : Nat) (s : State) : State :=
  let cs := maskCoils (d.u 24 8)
  modAcc (fun a => { a with op := some { kind := kind, uid := uid, cfg := tblM s 14, coils := cs, coil := cs.headD 0 } }) s

/-- What TOKEN_SEARCH asks of its descriptor. -/
def tokenSearchForm (s : State) (d : Desc) : OpForm :=
  { used := pm 24 8, range := d.target == relTarget && coilMaskOk s (d.u 24 8)
    state := s.acc.op.isNone && (key s 5).isSome && accFree s ((maskCoils (d.u 24 8)).map OutId.lf) }

/-- TOKEN_SEARCH: R321, R335. -/
def execTokenSearch (o : Origin) (s : State) : Out :=
  runOut o 0x1C00
    tokenSearchForm
    (startSearch .search) s

/-- What RELEASE_START asks of its descriptor. -/
def releaseStartForm (s : State) (d : Desc) : OpForm :=
  { used := pm 24 8, range := d.target == relTarget && coilMaskOk s (d.u 24 8)
    state := s.acc.op.isNone && (key s 5).isSome && relEn s && (key s 6).isSome && s.acc.rel.isNone && !s.acc.cntBad &&
      accFree s (.rel :: (maskCoils (d.u 24 8)).map OutId.lf) }

/-- RELEASE_START: R327, R329, R335. -/
def execReleaseStart (o : Origin) (s : State) : Out :=
  runOut o 0x1C01
    releaseStartForm
    (startSearch .release) s

/-- Release ends (R328, R330): five blocked frames follow; a session opens after a release on a token. -/
def endRelease (uid : Option Nat) (s : State) : State :=
  match s.acc.rel with
  | none => s
  | some r =>
    let s := accEvent 0x1C80 relTarget (putF r.basis 8 8) s.acc.lastRel s
    let m := accU s 8 2
    let s := modAcc (fun a => { a with rel := none, blocked := 5, blockNext := r.next, blockBasis := r.basis, endUid := uid
                                       session := if r.basis != 0x10 && m != 0 then some (s.rt, m) else a.session }) s
    s

/-- What RELEASE_END asks of its descriptor. -/
def releaseEndForm (s : State) (d : Desc) : OpForm :=
  { idem := true, range := d.target == relTarget, state := s.acc.rel.isSome }

/-- RELEASE_END: R327, R328, R335. -/
def execReleaseEnd (o : Origin) (s : State) : Out :=
  runOut o 0x1C02 releaseEndForm (fun _ uid s => endRelease (some uid) s) s

/-- TOKEN_READ and TOKEN_WRITE begin with the field and an authentication without WUP (R335). -/
def startToken (kind : AirKind) (d : Desc) (uid : Nat) (s : State) : State :=
  modAcc (fun a => { a with op := some { kind := kind, uid := uid, cfg := tblM s 14, coils := [d.ch], coil := d.ch, serial := d.u 28 32, block := d.u 24 8, value := d.u 16 64 } }) s
def tokenForm (s : State) (d : Desc) (used : Nat) : OpForm :=
  { idem := true, used := used + pm 24 8 + pm 28 32, range := d.slice == 8 && d.ch < 4 && d.u 24 8 < 32
    state := coilEn s d.ch && s.acc.op.isNone && (key s 5).isSome && accFree s [.lf d.ch] }

/-- What TOKEN_READ asks of its descriptor. -/
def tokenReadForm (s : State) (d : Desc) : OpForm :=
  tokenForm s d 0

/-- TOKEN_READ: R324, R335. -/
def execTokenRead (o : Origin) (s : State) : Out := runOut o 0x1C03 tokenReadForm (startToken .read) s
/-- What TOKEN_WRITE asks of its descriptor. -/
def tokenWriteForm (s : State) (d : Desc) : OpForm :=
  tokenForm s d (pm 16 64)

/-- TOKEN_WRITE: R324, R335. -/
def execTokenWrite (o : Origin) (s : State) : Out := runOut o 0x1C04 tokenWriteForm (startToken .write) s

/-- What KEY_WRITE asks of its descriptor. -/
def keyWriteForm (s : State) (d : Desc) : OpForm :=
  let k := d.u 24 8
  { idem := true, used := pm 16 72, plenOk := fun p => p == 24, range := d.target == relTarget && k < 7 && (hostAddressed s d || inSram (d.u 16 64) 24)
    state := !((k == 5 || k == 6) && (s.acc.op.isSome || s.acc.rel.isSome)) }

/-- KEY_WRITE: R325, R326. -/
def execKeyWrite (o : Origin) (b : BlockStep) (s : State) : Out :=
  runBlock o 0x1C05 b
    keyWriteForm
    (fun d uid w s =>
      let k := d.u 24 8
      let got := match key s 4 with
        | some kek => (keyUnwrap kek (ofBe (w.take 8)) [ofBe ((w.drop 8).take 8), ofBe (w.drop 16)]).map fun l => l.getD 0 0 * 2 ^ 64 + l.getD 1 0
        | none => none
      match got with
      | none => finishFree uid 0x08 (raise 222 relTarget s)
      | some new =>
        if k == 6 && key s 6 == some new then finishFree uid 0x0C s
        else
          let s := { s with keys := updN s.keys k fun _ => some new }
          let s := if k == 6 then modAcc (fun a => { a with nr := 0, stored := 0, cntBad := false }) s else s
          finishRecorded 0x0014 (leBytes 1 k ++ leBytes 3 (kcv new)) (some d.session) uid 0 (kcv new) s) s

/-- What KEY_QUERY asks of its descriptor. -/
def keyQueryForm (_ : State) (d : Desc) : OpForm :=
  { idem := true, used := pm 24 8, range := d.target == relTarget && d.u 24 8 < 7 }

/-- KEY_QUERY: R325. -/
def execKeyQuery (o : Origin) (s : State) : Out :=
  runOut o 0x1C06 keyQueryForm
    (fun d uid s => finish uid 0 (match key s (d.u 24 8) with | some k => kcv k + 2 ^ 24 | none => 0) s) s

/-! ### Release frames -/

/-- The release frame of N_R = `n` (R328). -/
def releaseBytes (s : State) (n st basis : Nat) : List Byte :=
  let k := (key s 6).getD 0
  let kEnc := aesEnc k (2 ^ 120)
  let kMac := aesEnc k (2 ^ 121)
  let id := leBytes 4 (accU s 4 4)
  let pad := beBytes 16 (aesEnc kEnc (ofBe (leBytes 8 n ++ id ++ List.replicate 4 0)))
  let word := xorBytes [BitVec.ofNat 8 st, BitVec.ofNat 8 basis] pad
  leBytes 2 n ++ word ++ (beBytes 16 (cmac kMac (leBytes 8 n ++ id ++ word))).take 4

/-- The next release frame, with state `st` (R328, R329). -/
def relPut (st basis : Nat) (s : State) : State :=
  let n := s.acc.nr
  let w := accU s 4 4
  let fr : CanFrame := { ide := bitN w 29, fd := false, brs := false, rtr := false, esi := false, ident := fld w 0 29, dlc := 8, data := releaseBytes s n st basis }
  let s := modAcc (fun a => { a with nr := (n + 1) % 2 ^ 64, lastN := n, lastRel := if st == 0xA5 then n else a.lastRel, unsent := true
                                     stored := if n % 256 == 0 then (n + 256) % 2 ^ 64 else a.stored }) s
  addBuf (relCan s) (fun k => { src := .release, frame := fr, order := k }) s

/-- RELEASE_FRAME: every 100 ms on the DT grid of the first frame (R328). -/
def execReleaseFrame (s : State) : Out :=
  .next (whenOn (fun s =>
    match s.acc.rel with
    | some r =>
      if r.next ≤ s.dt then
        let s := relWithdraw s
        relPut 0xA5 r.basis (modAcc (fun a => { a with rel := some { r with next := r.next + ms 100 } }) s)
      else s
    | none =>
      if s.acc.blockNext ≤ s.dt && (s.acc.blocked != 0 || s.acc.unsent) then
        let s := modAcc (fun a => { a with blockNext := a.blockNext + ms 100 }) (relWithdraw s)
        if s.acc.blocked == 0 then releaseEndDone s
        else relPut 0x5A s.acc.blockBasis (modAcc (fun a => { a with blocked := a.blocked - 1 }) s)
      else s) s)

/-- RELEASE_SESSION_TIMEOUT: R330. -/
def execReleaseSessionTimeout (s : State) : Out :=
  .next (whenOn (onlyIf (s.acc.session.isSome && !relSession s) (endRelSession 0 0)) s)

/-- A debounced change to active of an input in DOOR_MASK ends the session (R330); at wake, one reported with bit 9. -/
def doorOpened (n : Nat) (before after : Swi) (s : State) : State :=
  let was := if before.valid then before.level else match before.parkLevel with | some (l, _) => l | none => true
  if after.level && after.valid && !was && bitN (accU s 10 6) n then (if relSession s then endRelSession 1 n s else endRelSession 0 0 s) else s

/-- A change of an input's debounced level, with what it does to the release session. -/
def withDoor (n : Nat) (f : State → State) (s : State) : State := let s' := f s; doorOpened n (swi s n) (swi s' n) s'

/-- The samples of a switch input since the last ones, then the time until now (R199 to R206, R330). -/
def swiTrace (n : Nat) (l : List SwiReading) (s : State) : State :=
  withDoor n (swiSettle n s.dt) (l.foldl (fun s x => withDoor n (readSwitch n x) s) s)

/-- DEBOUNCE_COMPLETE: R199 to R206, R222, R330. -/
def execDebounceComplete (n : DebIn) (t : DebTrace) (s : State) : Out :=
  .next (match n, t with
    | .switch i, .switch l => whenOn (swiTrace i l) s
    | .field i, .field l => whenClocked (debounceField i l) s
    | _, _ => s)

/-- LADDER_INVALID: R204; with the samples that it has read, the sampled band has been 0xF for 100 ms. -/
def execLadderInvalid (n : Fin 48) (l : List SwiReading) (s : State) : Out :=
  .next (whenOn (fun s => ladderJudge n (swiTrace n l s)) s)

/-! ### Safe state, park, start -/

/-- A coil's field is turned off, by a safe state or a supply row (R332, R503): an operation on it ends. -/
def lfSafe (src n : Nat) (s : State) : State :=
  match s.acc.op with
  | some o => if o.coil == n then finish o.uid 0x12 src (airEnd s) else s
  | none => s
/-- The release channel's safe state (R332). -/
def relSafe (s : State) : State := if safeKind s .rel == 2 then s else endRelease none s

/-- AS refuses park entry (R331). -/
def asRefuses (s : State) : Bool := s.acc.op.isSome || s.acc.rel.isSome

/-- What of AS outlives the digital die's run: the stored counter, failed or not, and the release session (R329, R330). -/
def asDieOff (s : State) : State :=
  { s with acc := { nr := s.acc.stored, stored := s.acc.stored, cntBad := s.acc.cntBad, session := s.acc.session, sesLost := s.acc.sesLost } }
/-- What of it outlives the root island's supply: the counter in MRAM. An open release session ends; its SESSION_END can be
written at the next start only (R330, R336; log entry 29, DEDUCED). -/
def asSupplyLoss (s : State) : State :=
  { s with acc := { nr := s.acc.stored, stored := s.acc.stored, cntBad := s.acc.cntBad, sesLost := s.acc.sesLost || s.acc.session.isSome } }
/-- At a start a stored counter that fails its CRC stops RELEASE_START; it goes on failing until slot 6 is written again (R329). -/
def asStart (ok : Bool) (s : State) : State := if ok && !s.acc.cntBad then s else raise 223 relTarget (modAcc (fun a => { a with cntBad := true }) s)
/-- The end of a release session by loss of the root island supply is reported: SESSION_END, cause 3, to the ring of the stored
set (R336). -/
def asReportLost (s : State) : State :=
  if !s.acc.sesLost then s
  else emit (if s.stg.storedOk then storedU s 14 18 1 else 0xFF) 0x1C81 relTarget 3 0 (modAcc (fun a => { a with sesLost := false }) s)

end Sys2Proof.Machine
end

