-- ==== Sys2Proof/Machine/LoadOps.lean ====
section
/-! DEFINITION. What every load-channel meaning shares: classes and gangs (R86, R87, R92), the configured entry, the
state a channel would have (R95, R108, R133), turning on and off (R98, R103), duty (R96, R100, R103, R106), leaves
(R88, R89), protective turn-off and restart (R132, R133).
Readings of the spec: log entries 13 and 28, DEDUCED. -/

namespace Sys2Proof.Machine

/-! ### Classes, banks, gangs -/

/-- Class of a channel: 0 H, 1 M, 2 L (R86). -/
def lchClass (n : Nat) : Nat := if n % 8 == 0 then 0 else if n % 8 ≤ 3 then 1 else 2
/-- Class nominal current in mA (R87). -/
def classNom (n : Nat) : Nat := match lchClass n with | 0 => 25000 | 1 => 10000 | _ => 3000
/-- Leaf steps of a class (R87). -/
def leafSteps (n : Nat) : List Nat := match lchClass n with | 0 => [1, 2, 4, 6, 8] | 1 => [1, 2, 3, 4] | _ => [1, 2]
/-- Thresholds T1 to T4 in 1/64 of nominal (R87). -/
def leafRule (n : Nat) : List Nat := match lchClass n with | 0 => [6, 12, 24, 36] | 1 => [12, 24, 36, 0xFF] | _ => [24, 0xFF, 0xFF, 0xFF]
/-- On-resistance of one leaf at 25 °C typ in µΩ (R87). -/
def leafOhm (n : Nat) : Nat := match lchClass n with | 0 => 48000 | 1 => 60000 | _ => 100000
/-- Short-circuit limit, min, in mA (R128). -/
def limMin (n : Nat) : Nat := match lchClass n with | 0 => 95000 | 1 => 45000 | _ => 11000
/-- Leaves of step `j` (from 1). -/
def leavesOf (n j : Nat) : Nat := (leafSteps n).getD (j - 1) ((leafSteps n).getLastD 0)
/-- The step with every leaf. -/
def fullStep (n : Nat) : Nat := (leafSteps n).length
/-- Threshold of step `j`, none where it is not used. -/
def thresholdOf (n j : Nat) : Option Nat := match (leafRule n)[j - 1]? with | some t => if t == 0xFF then none else some t | none => none

/-- Bank of a channel, its slice, its die (R86, R10). -/
def bankOf (n : Nat) : Nat := n / 8
def sliceOf (n : Nat) : Nat := n / 16
def lchDie (n : Nat) : Die := if n < 32 then .loadA else .loadB
/-- TARGET of a channel (R10). -/
def lchTarget (n : Nat) : Nat := 256 * (n / 16) + n % 16
/-- Fault source `k` of a channel's slice (R138). -/
def lsSource (n k : Nat) : Nat := 32 * (n / 16 + 1) + k

/-- Field of a channel's entry in table 0x02 (R110): `w` bytes at byte `off`. -/
def lchU (s : State) (n off w : Nat) : Nat := storedU s 2 (16 + 32 * n + off) w
/-- Field of a channel's entry in table 0x04 (R116). -/
def wireU (s : State) (n off w : Nat) : Nat := storedU s 4 (16 + 32 * n + off) w

/-- Gangs of table 0x03: leader and member count (R92). -/
def gangs (s : State) : List (Nat × Nat) :=
  ((List.range 24).map fun i => (storedU s 3 (16 + 4 * i) 1, storedU s 3 (17 + 4 * i) 1)).filter fun g => g.2 != 0
/-- The gang a channel belongs to. -/
def gangOf (s : State) (n : Nat) : Option (Nat × Nat) := (gangs s).find? fun g => g.1 ≤ n && n < g.1 + g.2
/-- The channel that governs `n`: the leader of its gang, or itself (R93). -/
def leaderOf (s : State) (n : Nat) : Nat := match gangOf s n with | some g => g.1 | none => n
/-- A gang member other than its leader (R93). -/
def isMember (s : State) (n : Nat) : Bool := leaderOf s n != n
/-- The channels that a leader governs, itself among them. -/
def membersOf (s : State) (n : Nat) : List Nat := match gangOf s n with | some g => if g.1 == n then (List.range g.2).map (· + n) else [n] | none => [n]

def lchFlags (s : State) (n : Nat) : Nat := lchU s n 0 1
def lchEn (s : State) (n : Nat) : Bool := bitN (lchFlags s n) 0
def lchCp (s : State) (n : Nat) : Bool := bitN (lchFlags s n) 1
def lchBm (s : State) (n : Nat) : Bool := bitN (lchFlags s n) 3
def lchLoad (s : State) (n : Nat) : Nat := fld (lchFlags s n) 4 2
def lchFreq (s : State) (n : Nat) : Nat := lchU s n 2 2

/-- One channel. -/
def lch (s : State) (n : Nat) : Lch := (at? s.ld.chs n).getD {}
/-- One bank. -/
def bank (s : State) (b : Nat) : Bank := (at? s.ld.banks b).getD {}
def modLd (f : LoadSt → LoadSt) (s : State) : State := { s with ld := f s.ld }
def setLch (n : Nat) (f : Lch → Lch) (s : State) : State := { s with ld := { s.ld with chs := updN s.ld.chs n f } }
def setBank (b : Nat) (f : Bank → Bank) (s : State) : State := { s with ld := { s.ld with banks := updN s.ld.banks b f } }

/-- EVT_RING of a channel, for a gang member that of its leader (R93, R114); none before the first commit (R516) and while
the channel is not enabled. -/
def lchRing (s : State) (n : Nat) : Nat :=
  let l := leaderOf s n
  if s.stg.inForce && lchEn s l then lchU s l 22 1 else 0xFF
/-- An event of a channel (R114, R140): to the channel's EVT_RING. -/
def lchEvent (n code d1 d2 : Nat) (s : State) : State := emitOn (lchDie n) (lchRing s n) code (lchTarget n) d1 d2 s

/-! ### Duty -/

/-- Period length as DT ticks times FREQ_HZ: 80 MHz. -/
def dtHz : Nat := 80000000
/-- The frequency of a channel's grid: its own, or 200 Hz (R103). -/
def gridFreq (s : State) (n : Nat) : Nat := if lchFreq s n == 0 then 200 else lchFreq s n
/-- Number of the grid period that contains a DT (R97). -/
def gridIndex (s : State) (n t : Nat) : Int :=
  (((t : Int) - (s.ld.grid : Int)) * 4096 * (gridFreq s n : Int) - ((at? s.stg.place.phase n).getD 0 : Int) * (dtHz : Int)) / (4096 * (dtHz : Int))

/-- D_CP and whether it is limited (R100, R102): `d` the requested duty, `vs` the supply in mV. -/
def cpDuty (s : State) (n d vs : Nat) : Nat × Bool :=
  if !lchCp s n || (bank s (bankOf n)).senseBad then (d, false)
  else
    let v := max 6000 (min 32000 vs)
    let r := lchU s n 12 2
    let x := if lchLoad s n == 1 then (2 * d * r * r + v * v) / (2 * v * v) else if lchLoad s n == 2 then (2 * d * r + v) / (2 * v) else d
    (min x 0xFFF, 0xFFF < x)

/-- Integer square root, by bits from `b` down. -/
def floorSqrtGo (x : Nat) : Nat → Nat → Nat
  | 0, r => r
  | b + 1, r => let t := r + 2 ^ b; floorSqrtGo x b (if t * t ≤ x then t else r)
def floorSqrt (x : Nat) : Nat := floorSqrtGo x 64 0

/-- Ramp duty after `t` ticks of a ramp of `msLen` ms (R103). -/
def rampDuty (lvl d0 target t msLen : Nat) : Nat :=
  let len := ms msLen
  let num := if lvl == 1 then t * 65536 / len else floorSqrt (t * 65536 * 65536 / len)
  let f := min 65536 num
  ((d0 : Int) + ((target : Int) - (d0 : Int)) * (f : Int) / 65536).toNat

/-- The target of a channel's duty: the mode's (R95, R103). -/
def targetDuty (c : Lch) : Nat := if c.run == 2 then c.dcp else if c.run == 1 then 0xFFF else 0

/-- The safe state ON is applied: pre-heat, constant power and budget do not act (R108). -/
def safeOn (s : State) (n : Nat) : Bool := safeHeld s (.lch n) && safeKind s (.lch n) == 1

/-- The budget acts on a channel (R106, R108). -/
def budgeted (s : State) (n : Nat) : Bool := lchBm s n && !safeOn s n

/-- R96: on-times and off-times below 10 µs are left out of the period. -/
def minTimes (f d : Nat) : Nat :=
  if d == 0 then 0 else if 0xFFF ≤ d then 0xFFF
  else
    let on := d * dtHz / (4095 * f)
    let off := (4095 - d) * dtHz / (4095 * f)
    if on < us 10 then 0 else if off < us 10 then 0xFFF else d

/-- The effective duty of a channel now: ramp and cap (R103, R106). -/
def dutyNow (s : State) (n : Nat) (c : Lch) : Nat :=
  let t := targetDuty c
  let r := match c.pre with | some p => rampDuty p.lvl p.d0 t (s.dt - p.start) p.len | none => t
  let k := if budgeted s n then min r c.cap else r
  if c.run == 0 then 0 else k

/-- The duty that the output makes of the effective duty (R96). -/
def outDuty (s : State) (n : Nat) (c : Lch) : Nat := minTimes (gridFreq s (leaderOf s n)) c.dEff

/-- LIMITED (R106): the cap holds the duty below D_CP. -/
def limitedNow (s : State) (n : Nat) (c : Lch) : Bool := c.run != 0 && budgeted s n && c.cap < targetDuty c

/-- BUDGET_LIMIT, where LIMITED changes (R114). -/
def noteLimit (n : Nat) (was : Bool) (s : State) : State :=
  let c := lch s n
  if c.limited == was then s else lchEvent n 0x1080 (putF c.cap 0 12 + putF (b2n c.limited) 12 4) (sat 16 c.grant) s

/-- CP_SATURATED, where CP_SAT changes (R114). -/
def noteSat (n : Nat) (was : Bool) (s : State) : State :=
  let c := lch s n
  if c.cpSat == was then s else lchEvent n 0x1081 (b2n c.cpSat + putF c.vs 16 16) 0 s

/-- What a gang's members show of their leader (R93). -/
def syncGang (n : Nat) (s : State) : State :=
  let c := lch s n
  (membersOf s n).foldl (fun s m => if m == n then s else setLch m (fun d =>
    { d with run := c.run, base := c.base, onDt := c.onDt, offDt := c.offDt, pStart := c.pStart, dEff := c.dEff, dcp := c.dcp, cap := c.cap,
             pre := c.pre, inrush := c.inrush, env := c.env, cpSat := c.cpSat, limited := c.limited, safeAct := c.safeAct, held := c.held
             latched := c.latched, i := if c.run == 0 then 0 else d.i, iOn := if c.run == 0 then 0 else d.iOn, iKnown := c.run != 0 && d.iKnown, step := if c.run == 0 then 1 else d.step
             lowSince := if c.run == 0 then none else d.lowSince, olSince := if c.run == 0 then none else d.olSince }) s) s

/-- The new period's duty, from the V_S in use (R97, R100, R103, R106); a safe state ON ends a ramp (R108). In a period in
which a level-1 LED channel recomputes nothing (R100), D_CP = DUTY of R102 applies all the same (log entry 13, DEDUCED). -/
def newPeriod (n : Nat) (s : State) : State :=
  let c := lch s n
  let c := if safeOn s n then { c with pre := none } else c
  let (d, sat') := if c.run == 2 then cpDuty s n c.base c.vs else (0xFFF, false)
  let c1 := if c.skip && !(bank s (bankOf n)).senseBad then c else { c with dcp := d, cpSat := sat' }
  let c2 := { c1 with pStart := s.dt, limited := limitedNow s n c1 }
  let c3 := { c2 with dEff := dutyNow s n c2 }
  syncGang n (noteSat n c.cpSat (noteLimit n c.limited (setLch n (fun _ => c3) s)))

/-! ### Leaves -/

/-- R89: every leaf is enabled. -/
def leafForced (s : State) (n : Nat) (c : Lch) : Bool := c.inrush.isSome || c.pre.isSome || c.scLim || 2000 < (bank s (bankOf n)).dieT
/-- Leaves enabled now: none while off. -/
def leavesNow (s : State) (n : Nat) : Nat :=
  let c := lch s n
  if c.run == 0 then 0 else leavesOf n (if leafForced s n c then fullStep n else c.step)
/-- While R89 holds, the step is the full one, from which R88 later steps down. -/
def forceLeaves (n : Nat) (s : State) : State :=
  (membersOf s n).foldl (fun s m => setLch m (fun c => if leafForced s m c then { c with step := fullStep m, lowSince := none } else c) s) s

/-- Hysteresis in 1/64 of nominal (R88). -/
def leafHyst (s : State) : Nat := if level s == 1 then 8 else 4
/-- The current lies below the threshold of the step beneath, less the hysteresis (R88). -/
def belowStep (s : State) (n iMa : Nat) (c : Lch) : Bool :=
  1 < c.step && (match thresholdOf n (c.step - 1) with | some t => iMa * 64 < (t - leafHyst s) * classNom n | none => false)

/-- The diagnoses of a load die are suspended, by the supply that its bank has last read (R503). -/
def diagSuspended (s : State) (b : Nat) : Bool := crankRange (bank s b).vNow

/-- On-state diagnosis applies on a channel now (R130, R135). -/
def onDiagActive (s : State) (n : Nat) (c : Lch) : Bool :=
  entriesAct s && bitN (wireU s (leaderOf s n) 0 1) 5 && wireU s (leaderOf s n) 10 2 != 0 && c.run != 0 && c.inrush.isNone && c.pre.isNone && !(bank s (bankOf n)).frozen && !diagSuspended s (bankOf n)

/-- Where R89 has just ceased to hold, the dwell of R88 counts from this moment. -/
def resumeDwell (n : Nat) (s : State) : State :=
  (membersOf s n).foldl (fun s m => setLch m (fun c =>
    if c.run != 0 && c.iKnown && !leafForced s m c && belowStep s m c.iOn c then { c with lowSince := c.lowSince <|> some s.dt } else c) s) s

/-- Record the on-state current of R88, in mA: LCH_CUR, and the dwells of R88 and R135. Each member of a gang is compared with
the leader's I_OL_ON by its own current (log entry 13, DEDUCED). -/
def noteCurrent (n iMa : Nat) (s : State) : State :=
  setLch n (fun c =>
    let low := if belowStep s n iMa c && !leafForced s n c then c.lowSince <|> some s.dt else none
    let ol := if onDiagActive s n c && iMa < 10 * wireU s (leaderOf s n) 10 2 then c.olSince <|> some s.dt else none
    { c with i := sat 16 (iMa / 10), iOn := iMa, iKnown := true, peak := max c.peak (sat 16 (iMa / 10)), lowSince := low, olSince := ol }) s

/-! ### Turning on and off -/

/-- Outputs of a die are held off by a row of R503. -/
def supplyHolds (s : State) (d : Die) : Bool := s.ld.supplyOff.contains d || s.ld.logicReset.contains d

/-- Mode and duty that a channel would have now (R95, R108, R109, R124, R133, R441, R503). -/
def lchWant (s : State) (n : Nat) : Nat × Nat :=
  let c := lch s n
  if !lchEn s n || isMember s n || c.held || supplyHolds s (lchDie n) || !s.pw.clocks || pastTc s then (0, 0)
  else if safeHeld s (.lch n) then
    if !safeKnown s (lchDie n) || (dieDown s (lchDie n) && lchBm s n) then (0, 0)
    else match safeKind s (.lch n) with
      | 0 => (0, 0)
      | 1 => (1, 0xFFF)
      | 2 => (c.holdMode, c.holdDuty)
      | _ => (2, fld (lchU s n 14 2) 0 12)
  else (c.mode, c.duty)

/-- Turn a channel off (R98): at once, whatever the point in the period. -/
def turnOff (n : Nat) (s : State) : State :=
  let c := lch s n
  let s := setLch n (fun c => { c with run := 0, base := 0, dEff := 0, dcp := 0, offDt := some s.dt, pre := none, inrush := none, env := 0, cpSat := false,
                                       limited := false, scLim := false, lowSince := none, olSince := none, imbSince := none, imbRaised := false, i := 0, iOn := 0, iKnown := false, step := 1 }) s
  syncGang n (noteSat n c.cpSat (noteLimit n c.limited s))

/-- Turn a channel on from OFF (R89, R98, R103, R129). -/
def turnOn (n m d : Nat) (s : State) : State :=
  let tIn := lchU s n 8 2
  let rested := match (lch s n).offDt with | some t => t + ms 500 ≤ s.dt | none => true
  let heat := bitN (lchFlags s n) 2 && lchLoad s n == 1 && rested && !safeOn s n
  let s := setLch n (fun c => { c with run := m, base := d, onDt := some s.dt, skip := false
                                       vs := (bank s (bankOf n)).vNow
                                       pre := if heat then some { start := s.dt, len := lchU s n 16 2, d0 := fld (lchU s n 18 2) 0 12, lvl := level s } else none
                                       inrush := if tIn == 0 then none else some (s.dt + ms tIn)
                                       env := if tIn == 0 then 0 else lchU s n 6 2 * 25 / 2 }) s
  forceLeaves n (newPeriod n s)

/-- RESULT of LCH_SET and LCH_TIMED (R112). -/
def setResult (s : State) (n : Nat) (wasOff : Bool) : Nat :=
  let c := lch s n
  putF c.dEff 0 12 + putF (leavesNow s n) 12 4 + putF (b2n c.limited) 16 1 + putF (b2n c.cpSat) 17 1 + putF (b2n (wasOff && c.pre.isSome)) 18 1 + putF s.dt 32 32

/-- A mode and duty are the same state as another: the duty counts in PWM only (R95). -/
def sameState (m d m' d' : Nat) : Bool := m == m' && (m != 2 || d == d')

/-- The waiting LCH_SETs among `l` end with a status: with 0x12 their RESULT names a source (R52, R112), else it is free. -/
def endWaits (l : List NextReq) (status : Nat) (src : Option Nat) (s : State) : State :=
  l.foldl (fun s q => match q.uid, src with
    | some u, some k => finish u status (putF k 0 16 + putF s.dt 32 32) s
    | some u, none => finishFree u status s
    | none, _ => s) s

/-- The state that a channel now has, `m` and `d`, has taken effect: the LCH_SETs among `l` that asked for it complete and
an LCH_TIMED that waited for it begins (R111, R112). A request that a later one replaced before it took effect is
cancelled (log entry 28, DEDUCED). -/
def tookState (n : Nat) (l : List NextReq) (m d : Nat) (wasOff : Bool) (s : State) : State :=
  let r := setResult s n wasOff
  let s := l.foldl (fun s q => match q.uid with
    | some u => if sameState q.mode q.duty m d then finish u 0 r s else finishFree u 0x10 s
    | none => s) s
  setLch n (fun c =>
    match c.timed with
    | some t => if c.waits.isEmpty && t.endDt.isNone then { c with timed := some { t with endDt := some (s.dt + ms t.onMs), result := r } } else c
    | none => c) s

/-- A channel takes the state it would have now (R97, R98): a turn-on or turn-off acts at once, another change waits for
a period start. A channel that a protection or a supply holds off keeps its requests until it may turn on. -/
def applyLch (n : Nat) (s : State) : State :=
  let c := lch s n
  let (m, d) := lchWant s n
  if m == 0 then
    let s := if c.run == 0 then s else turnOff n s
    if c.mode == 0 then endWaits c.waits 0x10 none (setLch n (fun c => { c with waits := [] }) s) else s
  else if c.run == 0 then tookState n c.waits m d true (turnOn n m d (setLch n (fun c => { c with waits := [] }) s))
  else
    let (m', d') := match c.waits.getLast? with | some q => (q.mode, q.duty) | none => (c.run, c.base)
    if sameState m d m' d' then s
    else setLch n (fun c => { c with waits := c.waits ++ [{ mode := m, duty := d, atDt := s.dt, uid := none }] }) s

/-- A state asked for at a DT has arrived at least 2 µs before the start of the period that has now begun (R97). -/
def dueNow (s : State) (n : Nat) (q : NextReq) : Bool := gridIndex s n (q.atDt + us 2 - 1) < gridIndex s n s.dt

/-- A period starts: the newest state that is due applies from it, with its own D_CP (R97, R100). -/
def takeWaits (n : Nat) (s : State) : State :=
  let due := (lch s n).waits.filter (dueNow s n)
  match due.getLast? with
  | none => newPeriod n s
  | some q =>
    let s := setLch n (fun c => { c with run := q.mode, base := q.duty, skip := false, waits := c.waits.filter fun q => !dueNow s n q }) s
    tookState n due q.mode q.duty false (newPeriod n s)

/-- An LCH_SET or LCH_TIMED has asked for a state: it completes or begins now where the state has taken effect, and else
waits with it (R111). -/
def asked (n : Nat) (uid : Nat) (timedMs : Option Nat) (wasOff : Bool) (s : State) : State :=
  let r := setResult s n wasOff
  let now := (lch s n).waits.isEmpty
  match timedMs with
  | some k => setLch n (fun c => { c with timed := some { uid := uid, endDt := if now then some (s.dt + ms k) else none, onMs := k, result := r } }) s
  | none =>
    if now then finish uid 0 r s
    else setLch n (fun c => { c with waits := c.waits ++ (match c.waits.getLast? with | some q => [{ q with uid := some uid }] | none => []) }) s

/-- An LCH_TIMED ends with a status other than that of its own end: with 0x12 it names a source (R108, R112, R132); else
its RESULT is free (R111, R134). -/
def endTimed (n : Nat) (status : Nat) (src : Option Nat) (s : State) : State :=
  match (lch s n).timed with
  | none => s
  | some t =>
    let s := setLch n (fun c => { c with timed := none }) s
    match src with
    | some k => finish t.uid status (putF k 0 16 + putF s.dt 32 32) s
    | none => finishFree t.uid status s

/-- A safe state is applied to a channel (R108, R109). HOLD keeps the mode and duty in force, not those of a request that waits;
ON applies at once, FIXED-DUTY on a channel that is on from its next period (R97; log entry 28, DEDUCED). -/
def lchSafe (src n : Nat) (s : State) : State :=
  if isMember s n then s
  else
    let s := endTimed n 0x12 (some src) s
    let s := endWaits (lch s n).waits 0x12 (some src) (setLch n (fun c => { c with waits := [] }) s)
    let enter := fun c : Lch => { c with safeAct := true, holdMode := if c.run == 0 then c.mode else c.run, holdDuty := if c.run == 0 then c.duty else c.base }
    let s := applyLch n (setLch n (fun c => if c.safeAct then c else enter c) s)
    let s := if safeOn s n then setLch n (fun c => if c.run == 2 then { c with run := 1, base := 0xFFF, skip := false, waits := [] } else c) s else s
    let c := lch s n
    if safeOn s n && c.run == 1 && (c.pre.isSome || c.dEff != 0xFFF) then resumeDwell n (newPeriod n s) else syncGang n s

/-- A channel leaves a safe state with requested mode OFF (R422). -/
def lchUnsafe (n : Nat) (s : State) : State :=
  if safeHeld s (.lch n) || isMember s n then s
  else syncGang n (applyLch n (setLch n (fun c => { c with safeAct := false, mode := 0 }) s))

/-! ### Protection -/

/-- T_TRIP in °C (R117). -/
def tripC (w : Wire) : Nat := match w.ins with | 0 => 85 | 1 => 105 | _ => 125
/-- 2^32: the model's unit of temperature is 2^-32 K. -/
def kel : Nat := 2 ^ 32
/-- A temperature in 2^-32 as signed 1/16, and as a 16-bit field (R139). -/
def t16 (t : Int) : Int := t / (2 ^ 28 : Nat)
def t16F (t : Int) : Nat := ofSigned 16 (t16 t)

/-- The waits of LCH_PROT (R133, R141). -/
def waitSw (c : Lch) : Bool := 2400 < c.tSw
def waitWire (c : Lch) : Bool := ((tripC c.wire : Int) - c.wire.restartK) * (kel : Int) < c.tC
def waitSc (s : State) (n : Nat) (c : Lch) : Bool := match c.lastSc with | some t => s.dt < t + ms (wireU s n 6 2) | none => false
/-- LCH_PROT (R141); a gang member's own entry gives its RESTART_MAX and its short-circuit wait (log entry 13, DEDUCED). -/
def protReg (s : State) (n : Nat) : Nat :=
  let c := lch s n
  putF c.count 28 4 + putF (wireU s n 5 1) 24 4 + putF (b2n c.latched) 15 1 + putF (b2n c.held) 14 1 + putF (b2n (waitSw c)) 13 1 +
    putF (b2n (waitWire c)) 12 1 + putF (b2n (waitSc s n c)) 11 1 + putF c.last 4 4 + putF (b2n c.warn) 3 1 + putF (b2n (c.inrush.isSome && c.env != 0)) 2 1

/-- Source of a cause (R138, R140). -/
def causeSource (cause : Nat) : Nat := match cause with | 1 => 0 | 2 => 1 | 3 => 2 | _ => 7

/-- A protective turn-off (R132) of the channel that governs `m`, with the current at it in 10 mA. -/
def protOff (m cause cur : Nat) (s : State) : State :=
  let n := leaderOf s m
  let c := lch s n
  let latch := c.count == wireU s n 5 1 || (cause == 3 && !bitN (wireU s n 0 1) 3)
  let s := lchEvent n 0x1083 (putF cause 0 4 + putF c.count 4 4 + putF (sat 16 cur) 16 16) (t16F c.tC + putF (ofSigned 16 (lch s m).tSw) 16 16) s
  let s := raise (lsSource n (causeSource cause)) (lchTarget n) s
  let s := setLch n (fun c => { c with held := true, cleared := false, last := cause, lastProt := s.dt, lastSc := if cause == 1 then some s.dt else c.lastSc
                                       latched := latch, mode := if latch then 0 else c.mode }) s
  let l := if latch then c.waits else []
  let s := applyLch n (if latch then setLch n (fun c => { c with waits := [] }) s else s)
  let s := endWaits l 0x12 (some (lsSource n 3)) s
  if latch then
    endTimed n 0x12 (some (lsSource n 3)) (raise (lsSource n 3) (lchTarget n) (lchEvent n 0x1085 cause (t16F c.tC) s))
  else s

/-- The restart test of R133 (with R505), and the end of HELD after a PROT_CLEAR (R134). -/
def tryRestart (n : Nat) (s : State) : State :=
  let c := lch s n
  if !c.held || c.latched || isMember s n then s
  else if (membersOf s n).any (fun m => waitSw (lch s m)) || waitWire c || waitSc s n c || c.dieHot.isSome then s
  else if c.cleared then syncGang n (applyLch n (setLch n (fun c => { c with held := false, cleared := false }) s))
  else
    let s := setLch n (fun c => { c with held := false, count := sat 4 (c.count + 1) }) s
    let s := syncGang n (applyLch n s)
    lchEvent n 0x1084 (putF (lch s n).count 4 4) (t16F (lch s n).tC + putF (ofSigned 16 (lch s n).tSw) 16 16) s

/-- A bank's supply compensation and on-state diagnoses freeze (R101, R130): no channel of it is left in limitation. -/
def freezeBank (b : Nat) (s : State) : State :=
  let s := setBank b (fun k => { k with frozen := true, freezeFrom := s.dt }) s
  (List.range 8).foldl (fun s j => setLch (8 * b + j) (fun c => { c with olSince := none }) s) s

end Sys2Proof.Machine
end

