-- ==== Sys2Proof/Machine/Bridge.lean ====
section
/-! DEFINITION. Half-bridges, bridges, position counting, pinch, wipers, their protections and diagnostics (file 06).
Readings of the spec: log entries 14, DEDUCED, and 42, DESIGN CHOICE. -/

namespace Sys2Proof.Machine

/-! ### Configuration -/

def hb (s : State) (h : Nat) : Hb := (at? s.hbs h).getD {}
def setHb (h : Nat) (f : Hb → Hb) (s : State) : State := { s with hbs := updN s.hbs h f }
/-- Field of a half-bridge entry, and of a bridge entry, of table 0x05 (R161). -/
def hbU (s : State) (h off w : Nat) : Nat := storedU s 5 (16 + 8 * h + off) w
def brU (s : State) (j off w : Nat) : Nat := storedU s 5 (144 + 32 * j + off) w
def hbEn (s : State) (h : Nat) : Bool := bitN (hbU s h 0 1) 0
def hbUse (s : State) (h : Nat) : Nat := fld (hbU s h 0 1) 1 2
/-- An enabled half-bridge in single use (R144). -/
def hbSingle (s : State) (h : Nat) : Bool := hbEn s h && hbUse s h < 2

/-- Bridge entry `j`. -/
def brEntry (s : State) (j : Nat) : BrCfg :=
  { legA := brU s j 0 1, legB := brU s j 1 1, kind := brU s j 2 1, ripple := bitN (brU s j 3 1) 0, pinch := bitN (brU s j 3 1) 1, brakeHigh := bitN (brU s j 3 1) 2
    freq := brU s j 4 2, iStall := brU s j 8 2, tStall := brU s j 10 2, posMax := brU s j 12 2, pinchFrom := brU s j 14 2, pinchTo := brU s j 16 2, pinchDi := brU s j 18 2
    reverseRip := brU s j 20 2, swiPark := brU s j 22 1, parkBrakeMs := brU s j 23 1, pulseMs := brU s j 24 2, safeDuty := brU s j 26 2, evtRing := brU s j 28 1 }
/-- The bridges in use. -/
def bridges (s : State) : List BrCfg := ((List.range 16).map (brEntry s)).filter fun c => c.kind != 0
/-- The bridge whose LEG_A is `h`. -/
def bridgeAt (s : State) (h : Nat) : Option BrCfg := (bridges s).find? fun c => c.legA == h

/-- TARGET, slice and die of a half-bridge (R10, R142). -/
def hbTarget (h : Nat) : Nat := 256 * (h / 4) + 16 + h % 4
def hbDie (h : Nat) : Die := if h < 8 then .loadA else .loadB
def hbSource (h k : Nat) : Nat := 32 * (h / 4 + 1) + k
/-- Bank of a half-bridge's supply (R154): the model takes the first bank of its slice (log entry 22, DESIGN CHOICE). -/
def hbBank (h : Nat) : Nat := 2 * (h / 4)

/-- The configuration that acts on a bridge: its operation's own, else the committed one (R75). -/
def actingCfg (s : State) (h : Nat) : Option BrCfg := match (hb s h).op with | some o => some o.cfg | none => bridgeAt s h
/-- The driven bridge that a leg belongs to. -/
def drivenBy (s : State) (leg : Nat) : Option Nat :=
  (List.range 16).find? fun x => match (hb s x).op with | some o => x == leg || o.cfg.legB == leg | none => false
/-- The LEG_A that speaks for a leg (R160, R166): that of the bridge that drives it, else its own for a LEG_A or a single
half-bridge, and for a LEG_B that of the first bridge of table 0x05 that names it (log entry 14, DESIGN CHOICE where several
do). -/
def hbOwner (s : State) (h : Nat) : Nat :=
  match drivenBy s h with
  | some x => x
  | none => if (actingCfg s h).isSome then h else match (bridges s).find? fun c => c.legB == h with | some c => c.legA | none => h
/-- Event ring of a half-bridge: its bridge's, or its own in single use (R161, R166); none before the first commit (R516). -/
def hbRing (s : State) (h : Nat) : Nat :=
  match actingCfg s h with
  | some c => if s.stg.inForce || (hb s h).op.isSome then c.evtRing else 0xFF
  | none => if s.stg.inForce then hbU s h 1 1 else 0xFF
def hbEvent (h code d1 d2 : Nat) (s : State) : State := emitOn (hbDie h) (hbRing s h) code (hbTarget h) d1 d2 s

/-- A bridge is driven (R145): its operation has not ended in coast. -/
def driven (s : State) (h : Nat) : Bool := (hb s h).op.isSome
/-- LEG_B of bridge `h` is driven by another bridge (R145). -/
def commonBusy (s : State) (h legB : Nat) : Bool :=
  (List.range 16).any fun x => x != h && (match (hb s x).op with | some o => o.cfg.legB == legB | none => false)

/-! ### Operations of a bridge -/

/-- RESULT of R164. -/
def brResult (s : State) (h : Nat) (o : BrOp) : Nat := (hb s h).pos + putF o.pinchPos 16 16 + putF o.reason 32 4 + putF o.src 48 16

/-- The position and POS_VALID are mirrored into retention RAM (R151). -/
def mirrorPos (h : Nat) (s : State) : State := setHb h (fun b => { b with mirror := (b.pos, b.posValid) }) s

/-- The bridge drives (R146). -/
def driving (b : Hb) : Bool := b.state == 1 || b.state == 2

/-- The drive ends: counting goes on from the back-EMF (R150). -/
def driveEnds (h : Nat) (s : State) : State :=
  setHb h (fun b =>
    if driving b then { b with countFrom := some s.dt, stallFrom := none, olFrom := none, fullFrom := none, due := none, pinchTime := false, hist := [], beyond := 0 } else b) s

/-- A brake of 20 ms has passed since the last drive (R146). -/
def brakedBy (b : Hb) (now : Nat) : Bool := b.braked || (match b.brakeFrom with | some t => t + ms 20 ≤ now | none => false)

/-- The bridge coasts. -/
def toCoast (h : Nat) (s : State) : State :=
  setHb h (fun b => { b with state := 0, brake := none, braked := brakedBy b s.dt, brakeFrom := none, coastDt := some s.dt }) (driveEnds h s)

/-- The descriptors of an operation complete: its own and that of a mode which waits for the park. -/
def finishOp (h : Nat) (o : BrOp) (s : State) : State :=
  let s := match o.uid with | some u => finish u o.status (brResult s h o) s | none => s
  match o.wnext with | some w => finish w.uid o.status (brResult s h o) s | none => s

/-- The operation is taken away and its descriptors complete as `f` has it end. -/
def dropOp (h : Nat) (f : BrOp → BrOp) (s : State) : State :=
  match (hb s h).op with
  | some o => finishOp h (f o) (setHb h (fun b => { b with op := none }) s)
  | none => s

/-- The operation ends in coast and its descriptor completes (R164). -/
def coastEnd (h : Nat) (s : State) : State := dropOp h id (mirrorPos h (toCoast h s))

/-- How an operation ends: a pinch reversal stays one, but for a safe state, whose status 0x12 R164 gives to every
operation that it ends. -/
def endAs (status reason src : Nat) (o : BrOp) : BrOp :=
  if o.reason == 2 && status != 0x12 then o else { o with status := status, reason := reason, src := src }

/-- Set how the operation ends. -/
def endsWith (h status reason src : Nat) (s : State) : State := setHb h (fun b => { b with op := b.op.map (endAs status reason src) }) s

/-- The operation ends at once in coast. -/
def endNow (h status reason src : Nat) (s : State) : State := coastEnd h (endsWith h status reason src s)

/-- A timed brake starts. -/
def brakeFor (h len : Nat) (next : AfterBrake) (s : State) : State :=
  let s := driveEnds h s
  setHb h (fun b => { b with state := 3, brake := some (s.dt + ms len, next), brakeFrom := if b.state == 3 then b.brakeFrom <|> some s.dt else some s.dt }) s

/-- A brake that lasts until a later command. -/
def brakeHold (h : Nat) (s : State) : State := setHb h (fun b => { b with brake := none }) (brakeFor h 0 .coast s)

/-- The operation brakes for `len` ms and then coasts, ending as given. -/
def brakeEnd (h len status reason src : Nat) (s : State) : State := brakeFor h len .coast (endsWith h status reason src s)

/-- A WIPER_SET to mode 1 or 2 has taken effect and completes (R164). -/
def inEffect (h : Nat) (s : State) : State :=
  match (hb s h).op with
  | some o =>
    if o.kind == 4 && (o.wmode == 1 || o.wmode == 2) && o.uid.isSome then
      finishOp h { o with wnext := none } (setHb h (fun b => { b with op := some { o with uid := none } }) s)
    else s
  | none => s

/-- The duty of a bridge that FREQ_HZ makes of the requested one: with 0 the high-side is on (R146). -/
def fullOr (freq duty : Nat) : Nat := if freq == 0 then 0xFFF else duty

/-- A running bridge's duty is from now on that of its operation; since when it is 0x400 or more (R152). -/
def takeDuty (h : Nat) (s : State) : State :=
  inEffect h (setHb h (fun b => match b.op with
    | some o => { b with duty1 := fullOr o.cfg.freq o.duty, due := none, fullFrom := if 0x400 ≤ fullOr o.cfg.freq o.duty then b.fullFrom <|> some s.dt else none }
    | none => b) s)

/-- The next period start of a PWM of `freq` Hz that runs free from `start` (R146): the model has the periods follow the
drive's own start (log entry 14, DEDUCED). -/
def nextPeriod (start freq now : Nat) : Nat := start + (((now - start) * freq / dtHz + 1) * dtHz + freq - 1) / freq

/-- The drive of an operation starts: a pulse counts its length, a wiper its 5 s, from here (R156, R157). -/
def startDrive (h dir : Nat) (s : State) : State :=
  takeDuty h (setHb h (fun b =>
    { b with state := dir, brake := none, brakeFrom := none, braked := false, lastDir := dir, driveDt := s.dt, ripDt := s.dt, countFrom := none, pinchTime := false, hist := [], beyond := 0
             stallFrom := none, olFrom := none, fullFrom := none, due := none, coastDt := none, lookFrom := some s.dt
             op := b.op.map fun o => if o.kind == 3 then { o with endDt := some (s.dt + ms o.len) } else o }) s)

/-- Drive in a direction: a change of direction passes through brake for 20 ms, counting a brake since the last drive; the
new duty of a running drive applies from the next period start (R146). -/
def driveDir (h dir : Nat) (s : State) : State :=
  let b := hb s h
  if b.state == dir then
    let s := setHb h (fun b => { b with brake := none, op := b.op.map fun o => if o.kind == 3 then { o with endDt := some (s.dt + ms o.len) } else o }) s
    match b.op with
    | some o => if o.cfg.freq == 0 || o.duty == b.duty1 then takeDuty h s else setHb h (fun b => { b with due := some (nextPeriod b.driveDt o.cfg.freq s.dt) }) s
    | none => s
  else if b.lastDir == 0 || b.lastDir == dir || (!driving b && brakedBy b s.dt) then startDrive h dir s
  else
    match b.state, b.brakeFrom with
    | 3, some t => setHb h (fun b => { b with brake := some (t + ms 20, .drive dir) }) s
    | _, _ => brakeFor h 20 (.drive dir) s

/-- A later command replaces the operation: its descriptor completes with 0x10 (R164). -/
def replaced (h : Nat) (s : State) : State := dropOp h (fun o => { o with status := 0x10, reason := 0, src := 0xFFFF }) s

/-- An operation starts. -/
def startOp (h : Nat) (o : BrOp) (s : State) : State := setHb h (fun b => { b with op := some o }) (replaced h s)

/-! ### What a command needs -/

/-- Half-bridge number of a descriptor's TARGET. -/
def Desc.hb (d : Desc) : Nat := 4 * d.slice + (d.ch - 16)
def hbTargeted (d : Desc) : Bool := d.slice ≤ 3 && 16 ≤ d.ch && d.ch < 20

/-- A pinch reversal, from the pinch to the coast (R155). -/
def reversing (s : State) (h : Nat) : Bool := match (hb s h).op with | some o => o.reason == 2 | none => false

/-- R145, R155, R158, R163, R503: a bridge takes a command. -/
def brTakes (s : State) (d : Desc) : Bool :=
  hbTargeted d &&
    (match bridgeAt s d.hb with
    | some c => !commonBusy s d.hb c.legB && (hb s c.legA).held.isNone && (hb s c.legB).held.isNone && !safeHeld s (.hb d.hb) && !supplyHolds s (hbDie d.hb)
    | none => false)

/-- The bridge of a descriptor that has passed its checks. -/
def withBridge (d : Desc) (f : BrCfg → State → State) (s : State) : State := match bridgeAt s d.hb with | some c => f c s | none => s

/-- RESULT of a command that completes once its state has taken effect (R164). -/
def brDone (d : Desc) (uid : Nat) (c : BrCfg) (s : State) : State := finish uid 0 (brResult s d.hb { kind := 0, uid := none, cfg := c }) s

/-- DUTY (R163). -/
def brDuty (d : Desc) : Nat := fld (d.u 26 16) 0 12

/-- What BR_DRIVE asks of its descriptor. -/
def brDriveForm (s : State) (d : Desc) : OpForm :=
  { idem := true, used := pm 24 8 + pm 25 1 + pm 26 12 + pm 28 32, range := targetListed d.target && d.u 24 8 ≤ 3 && d.u 28 32 ≤ 600000
    state := brTakes s d && !(reversing s d.hb && (d.u 24 8 == 1 || d.u 24 8 == 2)) }

/-- BR_DRIVE: R146, R155, R163, R164. -/
def execBrDrive (o : Origin) (s : State) : Out :=
  runOut o 0x1100
    brDriveForm
    (fun d uid => withBridge d fun c s =>
      let h := d.hb
      match d.u 24 8 with
      | 0 => brDone d uid c (coastEnd h (replaced h s))
      | 3 => brDone d uid c (brakeHold h (startOp h { kind := 1, uid := none, cfg := c } s))
      | dir =>
        let t := d.u 28 32
        driveDir h dir (startOp h { kind := 1, uid := some uid, cfg := c, dir := dir, duty := brDuty d, norm := bitN (d.u 25 8) 0
                                    endDt := if t == 0 then none else some (s.dt + ms t) } s)) s

/-- What BR_MOVE asks of its descriptor. -/
def brMoveForm (s : State) (d : Desc) : OpForm :=
  { idem := true, used := pm 25 1 + pm 26 12 + pm 28 16
    range := targetListed d.target && (if hbTargeted d then (match bridgeAt s d.hb with | some c => d.u 28 16 ≤ c.posMax | none => true) else true)
    state := brTakes s d && !reversing s d.hb && (hb s d.hb).posValid }

/-- BR_MOVE: R151, R165. -/
def execBrMove (o : Origin) (s : State) : Out :=
  runOut o 0x1101
    brMoveForm
    (fun d uid => withBridge d fun c s =>
      let h := d.hb
      let t := d.u 28 16
      let p := (hb s h).pos
      if t == p then
        let was := driven s h
        let s := replaced h s
        let s := if was then brakeEnd h 20 0 0 0xFFFF (setHb h (fun b => { b with op := some { kind := 2, uid := none, cfg := c, target := t } }) s) else s
        brDone d uid c s
      else
        let dir := if p < t then 1 else 2
        driveDir h dir (startOp h { kind := 2, uid := some uid, cfg := c, dir := dir, duty := brDuty d, override := bitN (d.u 25 8) 0, target := t } s)) s

/-- What BR_PULSE asks of its descriptor. -/
def brPulseForm (s : State) (d : Desc) : OpForm :=
  { used := pm 24 8 + pm 26 12 + pm 28 16, range := targetListed d.target && (d.u 24 8 == 1 || d.u 24 8 == 2)
    state := brTakes s d && !reversing s d.hb }

/-- BR_PULSE: R157. -/
def execBrPulse (o : Origin) (s : State) : Out :=
  runOut o 0x1102
    brPulseForm
    (fun d uid => withBridge d fun c s =>
      let len := if d.u 28 16 == 0 then c.pulseMs else d.u 28 16
      driveDir d.hb (d.u 24 8) (startOp d.hb { kind := 3, uid := some uid, cfg := c, dir := d.u 24 8, duty := brDuty d, len := len } s)) s

/-- What WIPER_SET asks of its descriptor. -/
def wiperSetForm (s : State) (d : Desc) : OpForm :=
  let m := d.u 24 8
  { idem := m != 3, used := pm 24 8 + pm 26 12 + pm 28 16
    range := targetListed d.target && m ≤ 3 && !(m == 2 && (d.u 28 16 < 500 || 30000 < d.u 28 16))
    state := brTakes s d && !reversing s d.hb && (match bridgeAt s d.hb with | some c => c.kind == 3 | none => false) }

/-- The last park of a running wiper, from which the 5 s of R156 count; now where none runs. -/
def lastPark (s : State) (h : Nat) : Nat := match (hb s h).op with | some x => if x.kind == 4 then x.parkDt else s.dt | none => s.dt

/-- The wiper runs in mode 1 (R156). -/
def wipesOn (s : State) (h : Nat) : Option BrOp := match (hb s h).op with | some x => if x.kind == 4 && x.wmode == 1 then some x else none | none => none

/-- WIPER_SET: R156. Modes 1 and 2 complete once in effect, mode 2 after mode 1 at the next park; modes 0 and 3 at park. -/
def execWiperSet (o : Origin) (s : State) : Out :=
  runOut o 0x1103
    wiperSetForm
    (fun d uid => withBridge d fun c s =>
      let h := d.hb
      let m := d.u 24 8
      match m, wipesOn s h with
      | 2, some x =>
        let s := finishOp h { x with status := 0x10, reason := 0, src := 0xFFFF } s
        setHb h (fun b => { b with op := some { x with uid := none, wnext := some { interval := d.u 28 16, duty := brDuty d, uid := uid }, wipes := 0 } }) s
      | _, _ =>
        driveDir h 1 (startOp h { kind := 4, uid := some uid, cfg := c, dir := 1, duty := brDuty d, wmode := m, interval := d.u 28 16, parkDt := lastPark s h } s)) s

/-- HB_CFG, HB_STAT fields (R167). -/
def pinchArmed (s : State) (h : Nat) : Bool :=
  let b := hb s h
  match b.op with
  | some o =>
    o.cfg.kind == 2 && o.cfg.pinch && b.state == 1 && b.pinchTime && !o.override && o.reason != 2 &&
      (!b.posValid || (o.cfg.posMax - o.cfg.pinchFrom ≤ b.pos && b.pos ≤ o.cfg.posMax - o.cfg.pinchTo))
  | none => false
def hbStat (s : State) (h : Nat) : Nat :=
  let b := hb s h
  let busy := match actingCfg s h with | some c => commonBusy s h c.legB | none => false
  putF (match b.op with | some o => o.kind | none => 0) 28 4 + putF (if supplyHolds s (hbDie h) then 0 else b.state) 26 2 + putF (b2n b.posValid) 15 1 + putF (b2n (pinchArmed s h)) 14 1 +
    putF (b2n b.held.isSome) 13 1 + putF (b2n (safeHeld s (.hb h))) 12 1 + putF (b2n b.scLim) 11 1 + putF (b2n busy) 10 1 + putF b.last 0 4

/-- What BR_QUERY asks of its descriptor. -/
def brQueryForm (s : State) (d : Desc) : OpForm :=
  { idem := true, range := targetListed d.target, state := hbTargeted d && (bridgeAt s d.hb).isSome && !reversing s d.hb }

/-- BR_QUERY: R155, R164. -/
def execBrQuery (o : Origin) (s : State) : Out :=
  runOut o 0x1104 brQueryForm
    (fun d uid s =>
      let b := hb s d.hb
      finish uid 0 (b.pos + putF (ofSigned 16 b.i) 16 16 + putF (hbStat s d.hb) 32 16 + putF (b.peakT / 4) 48 16) s) s

/-- What BR_POS_SET asks of its descriptor. -/
def brPosSetForm (s : State) (d : Desc) : OpForm :=
  { idem := true, used := pm 28 16
    range := targetListed d.target && (if hbTargeted d then (match bridgeAt s d.hb with | some c => d.u 28 16 ≤ c.posMax | none => true) else true)
    state := brTakes s d && !reversing s d.hb }

/-- BR_POS_SET: R151. -/
def execBrPosSet (o : Origin) (s : State) : Out :=
  runOut o 0x1105
    brPosSetForm
    (fun d uid => withBridge d fun c s =>
      brDone d uid c (mirrorPos d.hb (setHb d.hb (fun b => { b with pos := d.u 28 16, posValid := true }) s))) s

/-! ### Single half-bridges -/

/-- Mode and duty that a single half-bridge would have now (R149, R158, R441). -/
def hbWant (s : State) (h : Nat) : Nat × Nat :=
  let b := hb s h
  if !hbSingle s h || b.held.isSome || supplyHolds s (hbDie h) || pastTc s then (0, 0)
  else if safeHeld s (.hb h) then
    if !safeKnown s (hbDie h) then (0, 0)
    else match safeKind s (.hb h) with
      | 0 => (0, 0)
      | 1 => (1, 0xFFF)
      | 2 => (b.holdMode, b.holdDuty)
      | _ => (2, fld (hbU s h 6 2) 0 12)
  else (b.mode, b.duty)

/-- RESULT of HB_SET (R164): no position, no pinch, no source. -/
def hbSetRes : Nat := 0xFFFF * 2 ^ 16 + 0xFFFF * 2 ^ 48

/-- An HB_SET that waits for its period start ends. -/
def endSet (h status : Nat) (s : State) : State :=
  match (hb s h).setUid with
  | some u => finish u status hbSetRes (setHb h (fun b => { b with setUid := none, due := none }) s)
  | none => s

/-- A duty of a running PWM waits for its period start (R146). -/
def dutyWaits (s : State) (h : Nat) : Bool := (hb s h).run == 2 && (match (hb s h).due with | some t => s.dt < t | none => false)

/-- A single half-bridge takes the state it would have now; a new duty of a running PWM waits for its period start (R146). An
HB_SET whose state is then in effect completes (R164). -/
def applyHb (h : Nat) (s : State) : State :=
  let (m, d) := hbWant s h
  let b := hb s h
  let asked := m == 2 && b.mode == 2 && d == b.duty
  if asked && dutyWaits s h then s
  else
    let s := setHb h (fun b => { b with run := m, base := d, due := none, coastDt := if m == 0 && b.run != 0 then some s.dt else b.coastDt
                                        driveDt := if m == 2 && b.run != 2 then s.dt else b.driveDt }) s
    if asked then endSet h 0 s else s

/-- The period start at which a new duty applies has come (R146). -/
def dutyIn (h : Nat) (s : State) : State := if (hb s h).op.isSome then takeDuty h s else applyHb h s
/-- New duties at a tick. -/
def dutyTick (s : State) : State :=
  ((List.range 16).filter fun h => match (hb s h).due with | some t => t ≤ s.dt | none => false).foldl (fun s h => dutyIn h s) s

/-- What HB_SET asks of its descriptor; PWM with FREQ_HZ = 0 is refused with 0x0C, as R111 does (log entry 14, DEDUCED). -/
def hbSetForm (s : State) (d : Desc) : OpForm :=
  { idem := true, used := pm 24 8 + pm 26 12, range := targetListed d.target && d.u 24 8 ≤ 2
    state := hbTargeted d && hbSingle s d.hb && (hb s d.hb).held.isNone && !safeHeld s (.hb d.hb) && !supplyHolds s (hbDie d.hb) &&
      !(d.u 24 8 == 2 && hbU s d.hb 4 2 == 0) }

/-- HB_SET: R163, R164; a new duty of a running PWM applies, and completes, at the next period start (R146). -/
def execHbSet (o : Origin) (s : State) : Out :=
  runOut o 0x1106
    hbSetForm
    (fun d uid s =>
      let h := d.hb
      let s := setHb h (fun b => { b with mode := d.u 24 8, duty := if d.u 24 8 == 2 then brDuty d else b.duty }) (endSet h 0x10 s)
      if d.u 24 8 == 2 && (hb s h).run == 2 && (hb s h).base != brDuty d then
        setHb h (fun b => { b with due := some (nextPeriod b.driveDt (hbU s h 4 2) s.dt), setUid := some uid }) s
      else finish uid 0 hbSetRes (applyHb h s)) s

/-! ### Protection -/

/-- The table of R146: whether the high-side and the low-side switch of a leg may be on; `a` LEG_A. -/
def legSwitches (c : BrCfg) (state : Nat) (a : Bool) : Bool × Bool :=
  match state, a with
  | 1, true | 2, false => (true, c.freq != 0)
  | 1, false | 2, true => (false, true)
  | 3, _ => (c.brakeHigh, !c.brakeHigh)
  | _, _ => (false, false)

/-- A leg conducts: a switch of a bridge's leg is on (R146), or a single half-bridge is on. -/
def legLive (s : State) (leg : Nat) : Bool :=
  match drivenBy s leg with
  | some h =>
    let (hi, lo) := match (hb s h).op with | some o => legSwitches o.cfg (hb s h).state (leg == h) | none => (false, false)
    (hi || lo) && !supplyHolds s (hbDie leg)
  | none => (hb s leg).run != 0

/-- A turn-off by R147 or R148: HELD on both legs, the operation ends in coast, event and source (R149, R166). -/
def hbTrip (leg cause cur : Nat) (s : State) : State :=
  let k := match cause with | 1 => 18 | 2 => 19 | _ => 20
  let h := (drivenBy s leg).getD leg
  let other := match (hb s h).op with | some o => o.cfg.legB | none => h
  let hold := fun (p : Nat) (b : Hb) => { b with held := some p, last := cause, lastSc := if cause == 1 then some s.dt else b.lastSc }
  let s := hbEvent h 0x1181 (cause + putF (b2n (leg != h)) 4 4) (sat 16 cur) s
  let s := raise (hbSource h k) (hbTarget h) s
  let s := setHb h (hold other) (if other == h then s else setHb other (hold h) s)
  if driven s h then endNow h 0x02 4 (hbSource h k) s else applyHb h (endSet h 0x02 s)

/-- PEAK_TIME_TRIP: R147. -/
def execPeakTimeTrip (h : Fin 16) (s : State) : Out :=
  .next (whenClocked (fun s => if legLive s h && 2000 ≤ (hb s h).peakT then hbTrip h 3 (hb s h).i.natAbs s else s) s)

/-- HB_SHORT_CIRCUIT: R148; `i` the current in mA, at or above the least I_LIM_HB. -/
def execHbShortCircuit (h : Fin 16) (i : Nat) (s : State) : Out :=
  .next (whenClocked (fun s => if legLive s h && 34000 ≤ i then setHb h (fun b => { b with scLim := false }) (hbTrip h 1 (i / 10) (setHb h (fun b => { b with scLim := true, peak := max b.peak (sat 16 (i / 10)) }) s)) else s) s)

/-- HB_OVERTEMP: R148, R131; `t` in 1/16 °C, at or above the least T_SD. -/
def execHbOvertemp (h : Fin 16) (t : Int) (s : State) : Out :=
  .next (whenClocked (fun s => if legLive s h && 2640 ≤ t then hbTrip h 2 (hb s h).i.natAbs (setHb h (fun b => { b with tSw := t, tSwMax := max b.tSwMax t }) s) else s) s)

/-- The part of DIE_OVERTEMP that concerns a slice's half-bridges (R505). -/
def dieHotHbs (b : Nat) (s : State) : State :=
  (List.range 4).foldl (fun s j =>
    let h := 4 * (b / 2) + j
    if legLive s h then setHb h (fun x => { x with dieHot := some b }) (hbTrip h 2 (hb s h).i.natAbs s) else s) s

/-- A leg's own conditions of R149 and R505. -/
def legCool (s : State) (h : Nat) : Bool :=
  let b := hb s h
  b.tSw ≤ 2400 && b.peakT ≤ 1000 && b.dieHot.isNone && (match b.lastSc with | some t => t + ms 100 ≤ s.dt | none => true)

/-- HB_HELD_CLEAR: R149. A single half-bridge then takes its state again by a later command only. -/
def execHbHeldClear (h : Fin 16) (s : State) : Out :=
  .next (whenClocked (fun s => match (hb s h).held with
    | some p => if legCool s h && legCool s p then setHb p (fun b => { b with held := none, mode := 0 }) (setHb h (fun b => { b with held := none, mode := 0 }) s) else s
    | none => s) s)

/-- What a half-bridge's sensors bring each 1 ms: current, temperature, peak timer, dwells of R152 and R159. -/
def noteHb (h : Nat) (x : HbSample) (s : State) : State :=
  let b := hb s h
  let mag := x.i.natAbs
  let owner := (drivenBy s h).getD h
  let drv := driving (hb s owner)
  let stallCfg := match b.op with | some o => o.cfg.iStall | none => 0
  let duty := if (hb s owner).op.isSome then (hb s owner).duty1 else if b.run == 1 then 0xFFF else b.base
  let onDrv := (drv || b.run != 0) && 0x400 ≤ duty
  let hot := match b.dieHot with | some k => if (bank s k).dieT ≤ 2240 then none else some k | none => none
  setHb h (fun b =>
    { b with i := x.i / 10, peak := max b.peak (sat 16 (mag / 10)), tSw := x.tSw, tSwMax := max b.tSwMax x.tSw, dieHot := hot
             peakT := if 12000 < mag then min 2000 (b.peakT + 4) else b.peakT - 1
             stallFrom := if drv && b.op.isSome && 10 * stallCfg < mag then b.stallFrom <|> some s.dt else none
             olFrom := if onDrv && bitN (hbU s h 0 1) 4 && mag < 100 && !diagSuspended s (hbBank h) then b.olFrom <|> some s.dt else none }) s

/-! ### Ripples, pinch, stall -/

/-- End zone of R152. -/
def endZone (c : BrCfg) : Nat := max 10 (c.posMax / 50)

/-- REF and the mean bank supply of its window (R154), from the ripples before the present one. -/
def refOf (hist : List (Nat × Nat)) : Nat × Nat :=
  let w := (hist.drop 15).take 64
  if w.isEmpty then (0, 0) else ((w.map (·.1)).foldl (· + ·) 0 / w.length, (w.map (·.2)).foldl (· + ·) 0 / w.length)

/-- The pinch reaction of R155. -/
def pinchReact (h iRip : Nat) (s : State) : State :=
  let b := hb s h
  let s := hbEvent h 0x1180 (b.pos + putF b.ref 16 16) (sat 16 (iRip / 10)) s
  let s := raise (hbSource h 22) (hbTarget h) s
  let s := setHb h (fun b => { b with last := 5, op := b.op.map fun o => { o with reason := 2, status := 0x02, src := hbSource h 22, pinchPos := b.pos, revLeft := o.cfg.reverseRip } }) s
  brakeFor h 20 .reverse s

/-- Pinch judging of one ripple (R154). -/
def pinchJudge (h i v : Nat) (s : State) : State :=
  let b := hb s h
  if !b.pinchTime then s
  else
    let (ref, vr) := refOf b.hist
    let ready := 32 ≤ b.hist.length + 1
    let scaled := if v == 0 then i else i * vr / v
    let di := (b.op.map fun o => 10 * o.cfg.pinchDi).getD 0
    let hit := ready && pinchArmed s h && ref + di < scaled
    let s := setHb h (fun b => { b with hist := ((i, v) :: b.hist).take 80, ref := if ready then sat 16 (ref / 10) else b.ref, beyond := if hit then b.beyond + 1 else 0 }) s
    if 3 ≤ (hb s h).beyond then pinchReact h scaled s else s

/-- What a ripple does to the operation: target reached (R165), reversal done (R155). -/
def rippleArrive (h : Nat) (s : State) : State :=
  let b := hb s h
  match b.op with
  | some o =>
    if o.kind == 5 && b.state == 2 then
      if o.revLeft ≤ 1 || b.pos == 0 then brakeFor h 20 .coast (setHb h (fun b => { b with op := b.op.map fun o => { o with revLeft := 0 } }) s)
      else setHb h (fun b => { b with op := b.op.map fun o => { o with revLeft := o.revLeft - 1 } }) s
    else if o.kind == 2 && o.target != 0 && o.target != o.cfg.posMax && ((b.state == 1 && o.target ≤ b.pos) || (b.state == 2 && b.pos ≤ o.target)) then
      brakeEnd h 20 0 0 0xFFFF s
    else s
  | none => s

/-- Counting after the drive has lasted its 300 ms (R150). -/
def countOver (b : Hb) (now : Nat) : Bool := match b.countFrom with | some t => t + ms 300 ≤ now | none => true

/-- RIPPLE: R150, R153 to R155, R165; a ripple that ends counting after the drive is not counted; `i` the mean current in mA over the ripple, `v` the bank supply in mV, `period` in µs. -/
def execRipple (h : Fin 16) (i v period : Nat) (s : State) : Out :=
  .next (whenClocked (fun s =>
    let b := hb s h
    match actingCfg s h with
    | none => s
    | some c =>
      let drv := driving b
      if !c.ripple || !(drv || b.countFrom.isSome) then s
      else if !drv && (50000 < period || countOver b s.dt) then mirrorPos h (setHb h (fun b => { b with countFrom := none }) s)
      else
        let p := if b.lastDir == 2 then b.pos - 1 else min c.posMax (b.pos + 1)
        let s := setHb h (fun b => { b with pos := p, ripDt := s.dt, period := sat 16 period }) s
        if drv then rippleArrive h (pinchJudge h i v s) else s) s)

/-- The running operation's bridge has pinch protection (R153). -/
def pinches (b : Hb) : Bool := match b.op with | some o => o.cfg.kind == 2 && o.cfg.pinch | none => false

/-- PINCH_ARM: R153, 150 ms after the drive started. -/
def execPinchArm (h : Fin 16) (s : State) : Out :=
  .next (whenClocked (fun s =>
    let b := hb s h
    if pinches b && b.state == 1 && b.driveDt + ms 150 ≤ s.dt && !b.pinchTime then
      setHb h (fun b => { b with pinchTime := true, hist := [], beyond := 0 }) s
    else s) s)

/-- BACK_EMF_COUNT_END: R150, R151. -/
def execBackEmfCountEnd (h : Fin 16) (s : State) : Out :=
  .next (whenClocked (fun s =>
    let b := hb s h
    if b.countFrom.isSome && (countOver b s.dt || b.ripDt + ms 50 < s.dt) then mirrorPos h (setHb h (fun b => { b with countFrom := none }) s) else s) s)

/-- A stall ends at an end stop (R152, R156). -/
def atEndStop (b : Hb) (o : BrOp) : Bool :=
  o.cfg.kind != 3 && (o.cfg.kind == 4 || (!b.posValid && o.norm) ||
    (if b.state == 1 then o.cfg.posMax ≤ b.pos + endZone o.cfg else b.pos ≤ endZone o.cfg))

/-- No ripple has been counted for 100 ms, the duty all the time 0x400 or more, from 200 ms after the start (R152). -/
def stallByRipple (b : Hb) (o : BrOp) (now : Nat) : Bool :=
  o.cfg.ripple && b.driveDt + ms 200 ≤ now && (match b.fullFrom with | some t => max t b.ripDt + ms 100 ≤ now | none => false)

/-- The stall current has stood for T_STALL (R152). -/
def stallByCurrent (b : Hb) (o : BrOp) (now : Nat) : Bool := match b.stallFrom with | some t => t + ms o.cfg.tStall ≤ now | none => false

/-- STALL: R152, R164. -/
def execStall (h : Fin 16) (s : State) : Out :=
  .next (whenClocked (fun s =>
    let b := hb s h
    match b.op with
    | none => s
    | some o =>
      if !driving b || !(stallByCurrent b o s.dt || stallByRipple b o s.dt) then s
      else if atEndStop b o then
        let p := if !o.cfg.ripple then b.pos else if b.state == 1 then o.cfg.posMax else 0
        let early := (o.kind == 2 && o.target != p) || o.kind == 3
        let s := setHb h (fun b => { b with last := 4, pos := p, posValid := b.posValid || (o.norm && o.cfg.ripple) }) s
        brakeEnd h 50 (if early then 0x02 else 0) 1 0xFFFF s
      else
        brakeEnd h 50 0x02 3 (hbSource h 21) (raise (hbSource h 21) (hbTarget h) (setHb h (fun b => { b with last := 4 }) s))) s)

/-- WIPER_PARKED (R156, R166). -/
def wiperEvent (h : Nat) (s : State) : State := match (hb s h).op with | some o => hbEvent h 0x1182 o.wipes 0 s | none => s

/-- BRAKE_END: R146, R152, R155 to R157. -/
def execBrakeEnd (h : Fin 16) (s : State) : Out :=
  .next (whenClocked (fun s =>
    let b := hb s h
    match b.brake with
    | none => s
    | some (t, next) =>
      if s.dt < t then s
      else
        match next with
        | .drive d => startDrive h d s
        | .reverse => startDrive h 2 (setHb h (fun b => { b with op := b.op.map fun o => { o with kind := 5, dir := 2 } }) s)
        | .interval => wiperEvent h (toCoast h s)
        | .park => coastEnd h (wiperEvent h s)
        | .coast => coastEnd h s) s)

/-! ### Wipers, pulses, timeouts -/

/-- The wiper reaches park: a mode 2 that waited takes effect, and but in mode 1 it brakes (R156). -/
def reachPark (h : Nat) (o : BrOp) (s : State) : State :=
  let o' := { o with wipes := w32 (o.wipes + 1), parkDt := s.dt }
  let o' := match o.wnext with | some w => { o' with wmode := 2, interval := w.interval, duty := w.duty, uid := some w.uid, wnext := none } | none => o'
  let s := setHb h (fun b => { b with op := some o', lookFrom := none }) s
  match o'.wmode with
  | 1 => s
  | 2 => inEffect h (brakeFor h o.cfg.parkBrakeMs .interval s)
  | _ => brakeFor h o.cfg.parkBrakeMs .park (endsWith h 0 6 0xFFFF s)

/-- The filtered park input follows a level of the comparator that has held for 2 ms at DT `now`: to active, or, as the wiper
leaves park, to inactive. -/
def parkSettle (h now : Nat) (s : State) : State :=
  let b := hb s h
  let active := b.park.raw == 1
  if (debHeld (ms 2) now b.park).isNone || b.parkIn == active then s
  else
    let s := setHb h (fun b => { b with parkIn := active, lookFrom := if active then b.lookFrom else some s.dt }) s
    match b.op with
    | none => s
    | some o => if active && o.kind == 4 && b.state == 1 then reachPark h o s else s

/-- One sample of the comparator of SWI_n, `n` from SWI_PARK (R156, R200). -/
def parkRead (h : Nat) (x : SwiReading) (s : State) : State :=
  match actingCfg s h with
  | none => s
  | some c =>
    if c.kind != 3 || 48 ≤ c.swiPark || !debTakes (hb s h).park x.dt s.dt then s
    else
      let s := parkSettle h x.dt s
      setHb h (fun b => { b with park := debStep (ms 2) x.dt (b2n (comparator (swiCmp s c.swiPark) (b.park.raw == 1) x.v x.vbat)) b.park }) s

/-- WIPER_PARKED: R156, with what the wiper's own filter has sampled. -/
def execWiperParked (x : ParkReading) (s : State) : Out :=
  .next (whenClocked (fun s => parkSettle x.h s.dt (x.l.foldl (fun s r => parkRead x.h r s) s)) s)

/-- WIPER_INTERVAL: R156. -/
def execWiperInterval (h : Fin 16) (s : State) : Out :=
  .next (whenClocked (fun s =>
    let b := hb s h
    match b.op with
    | some o => if o.kind == 4 && o.wmode == 2 && b.state == 0 && o.parkDt + ms o.interval ≤ s.dt then driveDir h 1 s else s
    | none => s) s)

/-- PARK_TIMEOUT: R156, 5 s after the wiper left park or started to drive. -/
def execParkTimeout (h : Fin 16) (s : State) : Out :=
  .next (whenClocked (fun s =>
    let b := hb s h
    match b.op, b.lookFrom with
    | some o, some t =>
      if o.kind == 4 && b.state == 1 && t + sec 5 ≤ s.dt then endNow h 0x02 5 (hbSource h 26) (raise (hbSource h 26) (hbTarget h) s) else s
    | _, _ => s) s)

/-- The bridge drives, or brakes before it does (R146). -/
def drivesOrWill (b : Hb) : Bool := driving b || (match b.brake with | some (_, .drive _) => true | _ => false)

/-- DRIVE_TIMEOUT: R164; a brake that ends the operation otherwise goes on. -/
def execDriveTimeout (h : Fin 16) (s : State) : Out :=
  .next (whenClocked (fun s => match (hb s h).op with
    | some o => (match o.kind, o.endDt with | 1, some t => if t ≤ s.dt && o.reason != 2 && drivesOrWill (hb s h) then endNow h 0x02 5 0xFFFF s else s | _, _ => s)
    | none => s) s)

/-- PULSE_END: R157. -/
def execPulseEnd (h : Fin 16) (s : State) : Out :=
  .next (whenClocked (fun s => match (hb s h).op with
    | some o => (match o.kind, o.endDt with | 3, some t => if t ≤ s.dt && driving (hb s h) then brakeEnd h 20 0 0 0xFFFF s else s | _, _ => s)
    | none => s) s)

/-! ### Diagnostics -/

/-- A result: its source is raised each time, its event is written when it changed (R159, R160, R166). -/
def hbDiagResult (h res : Nat) (onState : Bool) (s : State) : State :=
  let b := hb s h
  let a := hbOwner s h
  let s := if (if onState then b.onRes else b.offRes) == res then s
    else hbEvent a 0x1183 (res + 8 * b2n onState) 0 (setHb h (fun b => if onState then { b with onRes := res } else { b with offRes := res }) s)
  if res == 2 then raise (hbSource a 23) (hbTarget a) s else if res == 3 || res == 4 then raise (hbSource a 24) (hbTarget a) s else s

/-- Result of the steps of R159: voltages in mV of step 1, of the leg and of LEG_B in step 2. -/
def hbDiagCode (bridge : Bool) (v1 v2 v3 : Nat) : Nat := if 4000 < v1 then 4 else if v2 < 300 then 3 else if bridge && 2 * v3 < v2 then 2 else 1

/-- R159: the leg and every bridge that uses it have been in coast for 5 ms. -/
def hbDiagRuns (s : State) (h : Nat) : Bool :=
  let rest := fun b : Hb => match b.coastDt with | some t => t + ms 5 ≤ s.dt | none => true
  hbEn s h && (hb s h).run == 0 && (drivenBy s h).isNone && !diagSuspended s (hbBank h) &&
    (List.range 16).all fun x => if x == h || (match bridgeAt s x with | some c => c.legB == h | none => false) then (hb s x).state == 0 && rest (hb s x) else true

/-- HB_OFF_STATE_DIAGNOSIS: R159. -/
def execHbOffStateDiagnosis (h : Fin 16) (v1 v2 v3 : Nat) (s : State) : Out :=
  .next (whenOn (fun s =>
    if s.stg.inForce && bitN (hbU s h 0 1) 3 && hbDiagRuns s h && (hb s h).offDiagDt + ms 100 ≤ s.dt then
      hbDiagResult h (hbDiagCode (bridgeAt s h).isSome v1 v2 v3) false (setHb h (fun b => { b with offDiagDt := s.dt }) s)
    else s) s)

/-- What HB_DIAG_RUN asks of its descriptor; a leg whose bridges have not been in coast for 5 ms is refused with 0x0C, as R139
does (log entry 14, DEDUCED). -/
def hbDiagRunForm (s : State) (d : Desc) : OpForm :=
  { idem := true, range := targetListed d.target
    state := hbTargeted d && (hbSingle s d.hb && (hb s d.hb).held.isNone && !safeHeld s (.hb d.hb) && !supplyHolds s (hbDie d.hb) || brTakes s d) && hbDiagRuns s d.hb }

/-- HB_DIAG_RUN: R145, R159, R163. -/
def execHbDiagRun (o : Origin) (v1 v2 v3 : Nat) (s : State) : Out :=
  runOut o 0x1107
    hbDiagRunForm
    (fun d uid s =>
      let res := hbDiagCode (bridgeAt s d.hb).isSome v1 v2 v3
      finish uid 0 res (hbDiagResult d.hb res false (setHb d.hb (fun b => { b with offDiagDt := s.dt }) s))) s

/-- HB_ON_STATE_OPEN_LOAD: R159. -/
def execHbOnStateOpenLoad (h : Fin 16) (s : State) : Out :=
  .next (whenOn (fun s => match (hb s h).olFrom with
    | some t => if t + ms 50 ≤ s.dt && !diagSuspended s (hbBank h) then hbDiagResult h 2 true (setHb h (fun b => { b with olFrom := none }) s) else s
    | none => s) s)

/-! ### Safe state, start -/

/-- A safe state is applied to the half-bridge `h` (R158): of a bridge the entry of LEG_A counts. -/
def hbSafe (src h : Nat) (s : State) : State :=
  match actingCfg s h with
  | none =>
    applyHb h (setHb h (fun b => if b.safeAct then b else { b with safeAct := true, holdMode := b.mode, holdDuty := if b.run == 2 then b.base else b.duty }) (endSet h 0x12 s))
  | some c =>
    let again := (hb s h).safeAct
    let s := setHb h (fun b => { b with safeAct := true }) s
    let k := if safeKnown s (hbDie h) then safeKind s (.hb h) else 0
    let held := (hb s c.legA).held.isSome || (hb s c.legB).held.isSome || supplyHolds s (hbDie h)
    match k with
    | 2 => s
    | 1 => if again && (hb s h).state == 3 then s
           else if held then endNow h 0x12 7 src s
           else
             brakeHold h (setHb h (fun b => { b with op := some { kind := 1, uid := none, cfg := c } }) (dropOp h (endAs 0x12 7 src) s))
    | 3 => if again && driven s h then s
           else
             let dir := if bitN c.safeDuty 15 && c.kind != 3 then 2 else 1
             if held || commonBusy s h c.legB then endNow h 0x12 7 src s
             else
               driveDir h dir
                 (setHb h (fun b => { b with op := some { kind := if c.kind == 3 then 4 else 1, uid := none, cfg := c, dir := dir, duty := fld c.safeDuty 0 12, wmode := 1, parkDt := s.dt } })
                   (dropOp h (endAs 0x12 7 src) s))
    | _ => endNow h 0x12 7 src s

/-- A half-bridge leaves a safe state: coast, or off (R422). -/
def hbUnsafe (h : Nat) (s : State) : State :=
  if safeHeld s (.hb h) then s
  else
    let s := setHb h (fun b => { b with safeAct := false, mode := 0 }) s
    if (actingCfg s h).isSome then endNow h 0x12 7 0xFFFF s else applyHb h s

/-- Positions at a start (R151): from retention RAM; LS_HB_POS_LOST for each counting bridge whose position was lost. -/
def hbStart (lost : Bool) (s : State) : State :=
  let s := { s with hbs := s.hbs.map fun b => { b with pos := b.mirror.1, posValid := b.mirror.2 } }
  if lost then
    ((List.range 16).filter fun h => match bridgeAt s h with | some c => c.ripple | none => false).foldl (fun s h => raise (hbSource h 25) (hbTarget h) s) s
  else s

end Sys2Proof.Machine
end

