-- ==== Sys2Proof/Machine/Load.lean ====
section
/-! DEFINITION. Load-channel operations and events (file 04): LCH_SET to HEAT_QUERY, PWM periods, leaves, inrush and
pre-heat ends, the heat budget, bank sense and its freeze, gang imbalance.
Readings of the spec: log entries 13 and 28, DEDUCED. -/

namespace Sys2Proof.Machine

/-- Channel number of a descriptor's TARGET, LS_k and CH 0 to 15 (R111). -/
def Desc.lch (d : Desc) : Nat := 16 * d.slice + d.ch
def lchRange (d : Desc) : Bool := d.slice ≤ 3 && d.ch < 16

/-- R111: a channel takes commands. -/
def lchTakes (s : State) (n : Nat) : Bool :=
  lchEn s n && !isMember s n && !safeHeld s (.lch n) && !(lch s n).held && !supplyHolds s (lchDie n)
/-- R111: a channel takes a command to mode `m`. -/
def lchTakesMode (s : State) (n m : Nat) : Bool := lchTakes s n && !(m == 2 && lchFreq s n == 0)

/-- The requested state of a channel becomes `m` and `d`; a timer on it ends (R95, R111). -/
def request (n m d : Nat) (s : State) : State :=
  let s := endTimed n 0x10 none s
  applyLch n (setLch n (fun c => { c with mode := m, duty := if m == 2 then d else c.duty }) s)

/-- What LCH_SET asks of its descriptor. -/
def lchSetForm (s : State) (d : Desc) : OpForm :=
  { idem := true, used := pm 24 8 + pm 26 12, range := lchRange d && d.u 24 8 ≤ 2, state := lchTakesMode s d.lch (d.u 24 8) }

/-- LCH_SET: R111, R112. Its completion is written once the state has taken effect. -/
def execLchSet (o : Origin) (s : State) : Out :=
  runOut o 0x1000
    lchSetForm
    (fun d uid s =>
      let off := (lch s d.lch).run == 0
      let s := request d.lch (d.u 24 8) (fld (d.u 26 16) 0 12) s
      asked d.lch uid none off s) s

/-- What LCH_TIMED asks of its descriptor. -/
def lchTimedForm (s : State) (d : Desc) : OpForm :=
  { used := pm 24 8 + pm 26 12 + pm 28 32, range := lchRange d && (d.u 24 8 == 1 || d.u 24 8 == 2) && 1 ≤ d.u 28 32 && d.u 28 32 ≤ 3600000
    state := lchTakesMode s d.lch (d.u 24 8) }

/-- LCH_TIMED: R111, R112. Its completion waits for the end of the on time. -/
def execLchTimed (o : Origin) (s : State) : Out :=
  runOut o 0x1001
    lchTimedForm
    (fun d uid s =>
      let off := (lch s d.lch).run == 0
      let s := request d.lch (d.u 24 8) (fld (d.u 26 16) 0 12) s
      asked d.lch uid (some (d.u 28 32)) off s) s

/-- Channels that an LCH_SET_MASK names. -/
def maskChs (d : Desc) : List Nat := ((List.range 8).filter fun i => bitN (d.u 25 8) i).map fun i => 16 * d.slice + 8 * (d.ch - 32) + i

/-- What LCH_SET_MASK asks of its descriptor. -/
def lchSetMaskForm (s : State) (d : Desc) : OpForm :=
  { idem := true, used := pm 24 16 + pm 26 12, range := d.slice ≤ 3 && (d.ch == 32 || d.ch == 33) && d.u 24 8 ≤ 2
    state := (maskChs d).all fun n => lchTakesMode s n (d.u 24 8) }

/-- LCH_SET_MASK: R111. -/
def execLchSetMask (o : Origin) (s : State) : Out :=
  runOut o 0x1002
    lchSetMaskForm
    (fun d uid s =>
      let s := (maskChs d).foldl (fun s n => request n (d.u 24 8) (fld (d.u 26 16) 0 12) s) s
      finish uid 0 (d.u 25 8 + putF s.dt 32 32) s) s

/-- The output is on at this moment (LCH_STAT.ON). -/
def lchOnNow (s : State) (n : Nat) : Bool :=
  let c := lch s n
  let d := outDuty s n c
  c.run != 0 && (d == 0xFFF || (s.dt - c.pStart) * 4095 * gridFreq s (leaderOf s n) < d * dtHz)

/-- SENSE_LOW (R91): below 10 % of nominal, for a gang of the sums. -/
def senseLow (s : State) (n : Nat) : Bool :=
  let l := membersOf s (leaderOf s n)
  (l.map fun m => 10 * (lch s m).i).foldl (· + ·) 0 * 10 < (l.map classNom).foldl (· + ·) 0

/-- LCH_STAT (R115). -/
def lchStat (s : State) (n : Nat) : Nat :=
  let c := lch s n
  putF (b2n c.inrush.isSome) 8 1 + putF (b2n c.cpSat) 7 1 + putF (b2n c.pre.isSome) 6 1 + putF (b2n c.limited) 5 1 + putF (b2n c.scLim) 4 1 +
    putF (b2n c.held) 3 1 + putF (b2n (safeHeld s (.lch (leaderOf s n)))) 2 1 + putF (b2n (senseLow s n)) 1 1 + b2n (lchOnNow s n)

/-- What LCH_QUERY asks of its descriptor. -/
def lchQueryForm (_ : State) (d : Desc) : OpForm :=
  { idem := true, range := lchRange d }

/-- LCH_QUERY: R113; as its registers, it shows their reset values before the first commit (R115). -/
def execLchQuery (o : Origin) (s : State) : Out :=
  runOut o 0x1003 lchQueryForm
    (fun d uid s =>
      let n := d.lch
      let c := lch s n
      let v := putF c.duty 0 12 + putF c.dEff 12 12 + putF (leavesNow s n) 24 4 + putF c.mode 28 2 + putF c.i 32 16 + putF (lchStat s n) 48 9
      finish uid 0 (fromCommit s 0 v) s) s

/-- What HEAT_QUERY asks of its descriptor. -/
def heatQueryForm (_ : State) (d : Desc) : OpForm :=
  { idem := true, range := d.device }

/-- HEAT_QUERY: R111. -/
def execHeatQuery (o : Origin) (s : State) : Out :=
  runOut o 0x1004 heatQueryForm
    (fun _ uid s =>
      let k := (s.ld.chs.toList.filter fun c => c.limited).length
      finish uid 0 (2800 + putF s.ld.pNonman 16 16 + putF s.ld.pGrant 32 16 + putF k 48 8) s) s

/-- TIMED_END: R111, R114. -/
def execTimedEnd (n : Fin 64) (s : State) : Out :=
  .next (whenOn (fun s => match (lch s n).timed with
    | none => s
    | some t =>
      if s.dt < t.endDt.getD (s.dt + 1) then s
      else
        let d := (lch s n).dEff
        let s := applyLch n (setLch n (fun c => { c with timed := none, mode := 0 }) s)
        finish t.uid 0 t.result (lchEvent n 0x1082 d t.onMs s)) s)

/-- The current in mA is beyond the upper threshold of the channel's step (R88). -/
def beyondStep (n : Nat) (c : Lch) (i : Nat) : Bool := match thresholdOf n c.step with | some t => t * classNom n < i * 64 | none => false

/-- LEAF_STEP_UP: R88, with the current measured in mA. -/
def execLeafStepUp (n : Fin 64) (i : Nat) (s : State) : Out :=
  .next (whenClocked (fun s =>
    let c := lch s n
    if c.run != 0 && beyondStep n c i && !leafForced s n c && c.step < fullStep n then setLch n (fun c => { c with step := c.step + 1, lowSince := none, iKnown := false, peak := max c.peak (sat 16 (i / 10)) }) s else s) s)

/-- LEAF_STEP_DOWN: R88. -/
def execLeafStepDown (n : Fin 64) (s : State) : Out :=
  .next (whenClocked (fun s =>
    let c := lch s n
    match c.lowSince with
    | some t =>
      if c.run != 0 && t + ms 10 ≤ s.dt && !leafForced s n c && 1 < c.step then setLch n (fun c => { c with step := c.step - 1, lowSince := none }) s else s
    | none => s) s)

/-- A channel's duty runs on the grid of R97: in PWM, on a ramp, or under a cap. -/
def onGrid (s : State) (c : Lch) (n : Nat) : Bool := c.run == 2 || (c.run == 1 && !c.waits.isEmpty) || (c.run == 1 && (c.pre.isSome || c.dEff != 0xFFF || limitedNow s n c))

/-- The DT whose period is the one before a period start: that of the last start; in ON mode off the grid, that of the
request that waits. -/
def sinceDt (c : Lch) : Nat :=
  match c.waits with
  | q :: _ => if c.run == 1 && c.dEff == 0xFFF && c.pre.isNone then max c.pStart q.atDt else c.pStart
  | [] => c.pStart

/-- PWM_PERIOD_START: R97, R100, R103, R106; for a gang member it only brings the member's current. `i` the mean current in mA over the ended period's on-time, `vs` the bank
sense in mV over it. -/
def execPwmPeriodStart (n : Fin 64) (i vs : Nat) (s : State) : Out :=
  .next (whenClocked (fun s =>
    let c := lch s n
    if isMember s n then (if onGrid s c n && outDuty s n c != 0 then noteCurrent n i s else s)
    else if !onGrid s c n || gridIndex s n s.dt ≤ gridIndex s n (sinceDt c) then s
    else
      let b := bankOf n
      let k := bank s b
      let took := outDuty s n c != 0 && !k.frozen && k.freezeEnd ≤ c.pStart
      let s := if outDuty s n c == 0 then setLch n (fun c => { c with i := 0 }) s else noteCurrent n i s
      let s := if took then setBank b (fun k => { k with v := sat 16 vs, vMin := min k.vMin (sat 16 vs) }) s else s
      let led := level s == 1 && lchLoad s n == 2 && lchCp s n
      let s := setLch n (fun c => { c with vs := if took then vs else c.vs, skip := led && !c.skip }) s
      takeWaits n s) s)

/-- INRUSH_END: R89, R129. -/
def execInrushEnd (n : Fin 64) (s : State) : Out :=
  .next (whenClocked (fun s => match (lch s n).inrush with
    | some t => if t ≤ s.dt && !isMember s n then resumeDwell n (syncGang n (setLch n (fun c => { c with inrush := none, env := 0 }) s)) else s
    | none => s) s)

/-- PREHEAT_END: R103. -/
def execPreheatEnd (n : Fin 64) (s : State) : Out :=
  .next (whenClocked (fun s => match (lch s n).pre with
    | some p =>
      if p.start + ms p.len ≤ s.dt && !isMember s n then
        let s := setLch n (fun c => { c with pre := none }) s
        resumeDwell n (syncGang n (setLch n (fun c => { c with dEff := if c.run == 1 then dutyNow s n c else c.dEff }) s))
      else s
    | none => s) s)

/-! ### The heat budget -/

/-- On-resistance of a channel now in µΩ: leaves and die temperature (R87, R104, R500). -/
def ohmNow (s : State) (n : Nat) : Nat :=
  let l := max 1 (leavesNow s n)
  leafOhm n * ((160000 + 55 * ((bank s (bankOf n)).dieT - 400)).toNat) / (160000 * l)

/-- Loss in nW of a channel while it is on, from the on-state current (R104). -/
def onLoss (s : State) (n : Nat) : Nat := let i := (lch s n).iOn; i * i * ohmNow s n / 1000

/-- Demand and minimum of a managed channel in nW (R106). -/
def demandOf (s : State) (n : Nat) : Nat × Nat :=
  let c := lch s n
  let p := ((membersOf s n).map (onLoss s)).foldl (· + ·) 0
  let d := targetDuty c
  (p * d / 4095, p * min d (fld (lchU s n 20 2) 0 12) / 4095)

/-- Priority order of R106: by PRIO, then by number. -/
def prioLe (s : State) (a b : Nat) : Bool :=
  let pa := fld (lchU s a 1 1) 0 4
  let pb := fld (lchU s b 1 1) 0 4
  pa < pb || (pa == pb && a ≤ b)
def insertPrio (s : State) (a : Nat) : List Nat → List Nat
  | [] => [a]
  | b :: bs => if prioLe s a b then a :: b :: bs else b :: insertPrio s a bs
/-- Managed channels in rising order. -/
def managed (s : State) : List Nat :=
  ((List.range 64).filter fun n => lchEn s n && !isMember s n && budgeted s n).foldl (fun l n => insertPrio s n l) []

/-- The first loop of R106: minima withdrawn from the lowest priority up until none is missing. -/
def withdraw (s : State) : List Nat → Int → List Nat → Int × List Nat
  | [], avail, gone => (avail, gone)
  | n :: ns, avail, gone =>
    let a : Int := avail + ((demandOf s n).2 : Nat)
    if 0 ≤ a then (a, n :: gone) else withdraw s ns a (n :: gone)

/-- The second loop of R106: grants in nW. -/
def grantAll (s : State) (gone : List Nat) : List Nat → Int → List (Nat × Nat)
  | [], _ => []
  | n :: ns, avail =>
    if gone.contains n then (n, 0) :: grantAll s gone ns avail
    else
      let (d, m) := demandOf s n
      let extra := min (d - m) avail.toNat
      (n, m + extra) :: grantAll s gone ns (avail - (extra : Nat))

/-- 28 W in nW; nW of a 10 mW step (R104). -/
def budgetNw : Nat := 28000000000
def step10 : Nat := 10000000

/-- A grant becomes a cap (R106): in proportion, rising by at most 256. -/
def applyGrant (x : Nat × Nat) (s : State) : State :=
  let (n, g) := x
  let c := lch s n
  let d := (demandOf s n).1
  let full := if g < d then targetDuty c * g / d else 0xFFF
  let cap := if c.cap < full then min full (c.cap + 256) else full
  let s := setLch n (fun c => { c with cap := min cap 0xFFF, grant := sat 16 (g / step10) }) s
  let s := setLch n (fun c => { c with limited := limitedNow s n c }) s
  syncGang n (noteLimit n c.limited s)

/-- The losses outside the load channels: half-bridges, valve switches, field channels and LF drivers as measured, the
wetting sources as computed (R143, R169, R198, R220, R314). -/
def otherLoss (o : OtherLoss) (s : State) : Nat := o.hb + o.vlv + o.field + o.lf + wetLoss o.vbat s

/-- BUDGET_ALLOCATION: R106, R107. -/
def execBudgetAllocation (o : OtherLoss) (s : State) : Out :=
  .next (whenOn (fun s =>
    if s.dt < s.ld.budDt + ms 10 then s
    else
      let other := otherLoss o s
      let mean := fun c : Lch => if c.lossN == 0 then 0 else c.lossSum / c.lossN
      let man := managed s
      let isMan := fun n => man.contains (leaderOf s n)
      let non := other + ((List.range 64).map fun n => if isMan n then 0 else mean (lch s n)).foldl (· + ·) 0
      let total := other + ((List.range 64).map fun n => mean (lch s n)).foldl (· + ·) 0
      let mins := (man.map fun n => (demandOf s n).2).foldl (· + ·) 0
      let avail : Int := (budgetNw : Int) - (non : Nat) - (mins : Nat)
      let (avail, gone) := if avail < 0 then withdraw s man.reverse avail [] else (avail, [])
      let beyond := budgetNw < non + mins
      let grants := grantAll s gone man avail
      let chs' := mapFin s.ld.chs fun n c => { c with pSw := sat 16 (mean c / step10), lossSum := 0, lossN := 0, grant := if isMan n then c.grant else 0xFFFF, cap := if isMan n then c.cap else 0xFFF }
      let s := { s with ld := { s.ld with chs := chs', budDt := s.dt, pNonman := sat 16 (non / step10), pGrant := sat 16 ((grants.map (·.2)).foldl (· + ·) 0 / step10),
                                          pPeak := max s.ld.pPeak (sat 16 (total / step10)) } }
      let s := grants.foldl (fun s x => applyGrant x s) s
      if beyond then raise 8 0xFFFF s else s) s)

/-! ### Gangs and banks -/

/-- A gang is out of balance now (R94). -/
def imbalanced (s : State) (n : Nat) : Bool :=
  let l := membersOf s n
  let tot := (l.map fun m => 10 * (lch s m).i).foldl (· + ·) 0
  (lch s n).run != 0 && 1 < l.length && l.any fun m =>
    let d : Int := ((10 * (lch s m).i * l.length : Nat) : Int) - (tot : Nat)
    (classNom m * l.length : Nat) < 5 * d.natAbs

/-- The balance of a gang is to be restored (R94): at 25 % of the gang's nominal current or more, a member carries more
than 110 % of the mean. -/
def unbalanced (s : State) (n : Nat) : Bool :=
  let l := membersOf s n
  let tot := (l.map fun m => (lch s m).iOn).foldl (· + ·) 0
  (lch s n).run != 0 && 1 < l.length && 10 * lchU s n 4 2 ≤ 4 * tot && l.any fun m => 110 * tot < 100 * (lch s m).iOn * l.length

/-- Balancing (R94): the Z964 sets each member's leaf count. The rule gives its aim and not the counts, so each is a free
value among the leaf steps of the class (log entry 5, DESIGN CHOICE). -/
def balanceGang (n : Nat) (s : State) : State :=
  if unbalanced s n then
    (membersOf s n).foldl (fun s m =>
      let (v, s) := takeFree 3 s
      setLch m (fun c => if leafForced s m c then c else { c with step := 1 + v % fullStep m, lowSince := none }) s) s
  else s

/-- GANG_IMBALANCE: R94. -/
def execGangImbalance (n : Fin 64) (s : State) : Out :=
  .next (whenClocked (fun s =>
    let c := lch s n
    match c.imbSince with
    | some t => if t + ms 100 ≤ s.dt && !c.imbRaised && 1 < (membersOf s n).length then raise (lsSource n 16) (lchTarget n) (setLch n (fun c => { c with imbRaised := true }) s) else s
    | none => s) s)

/-- R102: a sense that is implausible against the die's own supply measurement. -/
def senseWrong (sense : Int) (die : Nat) : Bool := sense < 0 || 65000 < sense || 2000 < (sense - die).natAbs

/-- BANK_SENSE_IMPLAUSIBLE: R102; the sense and the die's measurement in mV, as they stood for 1 ms. -/
def execBankSenseImplausible (b : Fin 8) (sense : Int) (die : Nat) (s : State) : Out :=
  .next (whenClocked (fun s =>
    if senseWrong sense die && !(bank s b).senseBad then
      raise (32 * (b.val / 2 + 1) + 17) (256 * (b.val / 2) + 32 + b.val % 2) (setBank b (fun k => { k with senseBad := true }) s)
    else s) s)

/-- BANK_SENSE_PLAUSIBLE: R102. -/
def execBankSensePlausible (b : Fin 8) (sense : Int) (die : Nat) (s : State) : Out :=
  .next (whenClocked (onlyIf (!senseWrong sense die) (setBank b fun k => { k with senseBad := false })) s)

/-- CP_FREEZE_END: R101, R130. -/
def execCpFreezeEnd (b : Fin 8) (s : State) : Out :=
  .next (whenClocked (fun s =>
    let k := bank s b
    let lim := (List.range 8).any fun j => (lch s (8 * b.val + j)).scLim
    if k.frozen && !lim && k.freezeFrom + us 200 ≤ s.dt then setBank b (fun k => { k with frozen := false, freezeEnd := s.dt }) s else s) s)

end Sys2Proof.Machine
end

