-- ==== Sys2Proof/Machine/Report.lean ====
section
/-! DEFINITION. The placement report (R20, R57), and the end of a commit or check (R66, R67, R70, R85).
Readings of the spec: log entry 12, DEDUCED. -/

namespace Sys2Proof.Machine

/-- A section of the report: its type and its 8-byte entries. -/
def reportSection (type : Nat) (entries : List Nat) : List Byte :=
  leBytes 2 type ++ [0, 0] ++ leBytes 4 entries.length ++ (entries.map (leBytes 8)).flatten

/-- Section 0x0001. -/
def leafEntries (s : State) : List Nat :=
  ((List.range 64).filter fun n => lchEn s n && !isMember s n).map fun n =>
    let r := leafRule n
    lchTarget n + putF (r.getD 0 0xFF) 16 8 + putF (r.getD 1 0xFF) 24 8 + putF (r.getD 2 0xFF) 32 8 + putF (r.getD 3 0xFF) 40 8

/-- Section 0x0002. -/
def phaseEntries (s : State) : List Nat :=
  ((idxs 64).filter fun n => s.stg.place.placed[n]).map fun (n : Fin 64) => lchTarget n + putF s.stg.place.phase[n] 16 12

/-- Section 0x0003 (R244). -/
def filterEntries (s : State) : List Nat :=
  ((idxs 8).map fun (c : Fin 8) => (s.stg.place.pairs[c].zipIdx).map fun x =>
    c.val + putF x.2 3 6 + putF x.1.queue 9 1 + putF x.1.first 10 29 + putF x.1.ppm 39 25).flatten

/-- The programs placed, by rising number. -/
def progsSorted (s : State) : List Prog := ((List.range 256).map fun n => s.stg.place.progs.filter fun p => p.num == n).flatten

/-- Section 0x0004. -/
def progEntries (s : State) : List Nat :=
  (progsSorted s).map fun p => putF p.num 0 8 + putF (p.engine / 2) 8 3 + putF p.engine 11 4 + putF (b2n p.split) 16 1

/-- The grants of R106 computed now, from P_nonmanaged as last measured, in nW. -/
def grantsNow (s : State) : List (Nat × Nat) :=
  let man := managed s
  let mins := (man.map fun n => (demandOf s n).2).foldl (· + ·) 0
  let avail : Int := (budgetNw : Int) - (s.ld.pNonman * step10 : Nat) - (mins : Nat)
  let (avail, gone) := if avail < 0 then withdraw s man.reverse avail [] else (avail, [])
  grantAll s gone man avail

/-- Section 0x0005. -/
def heatEntries (s : State) : List Nat :=
  let g := grantsNow s
  ((List.range 64).filter fun n => lchEn s n && !isMember s n && lchBm s n).map fun n =>
    lchTarget n + putF (lchU s n 1 1) 16 4 + putF (sat 16 (((g.find? fun x => x.1 == n).elim 0 (·.2)) / step10)) 32 16

/-- The report's bytes at a revision. -/
def reportBytes (s : State) (rev : Nat) : List Byte :=
  let body := reportSection 1 (leafEntries s) ++ reportSection 2 (phaseEntries s) ++ reportSection 3 (filterEntries s) ++
    reportSection 4 (progEntries s) ++ reportSection 5 (heatEntries s)
  leBytes 4 (32 + body.length) ++ leBytes 4 s.stg.seq ++ leBytes 1 (level s) ++ [5, 0, 0] ++ leBytes 4 rev ++ List.replicate 16 0 ++ body

/-- A commit replaces the report. -/
def writeReport (s : State) : State := modStg (fun g => { g with report := some (reportBytes s 0), revision := 0 }) s

/-- Bytes that the first `n` sections of a report take. -/
def sectionsLen : Nat → List Byte → Nat
  | 0, _ => 0
  | n + 1, l =>
    let len := 8 + 8 * ofLe ((l.drop 4).take 4)
    len + sectionsLen n (l.drop len)

/-- A hand-over rewrites the report's sections 0x0004 and 0x0005 and raises its revision (R20): the first three sections
keep their bytes. -/
def rewriteReport (s : State) : State :=
  match s.stg.report with
  | none => s
  | some old =>
    let rev := w32 (s.stg.revision + 1)
    let sections := reportSection 4 (progEntries s) ++ reportSection 5 (heatEntries s)
    let len := 32 + sectionsLen 3 (old.drop 32)
    let head := leBytes 4 (len + sections.length) ++ (old.drop 4).take 8 ++ leBytes 4 rev
    modStg (fun g => { g with report := some (head ++ (old.take len).drop 16 ++ sections), revision := rev }) s

/-- Opcode of a commit or check (R71). -/
def commitOp (c : CommitRun) : Nat := if c.checkOnly then 0x0200 else 0x0201

/-- Payload of a COMMIT record (R461, log entry 9, DESIGN CHOICE). -/
def commitPayload (c : CommitRun) (status result : Nat) : List Byte :=
  leBytes 2 (commitOp c) ++ leBytes 1 status ++ leBytes 8 result ++ leBytes 8 c.tick ++ leBytes 4 c.tableMap ++ leBytes 1 c.writers

/-- A commit or check ends: STG_STAT and STG_FAIL show it, the record is made, and the completion of a descriptor waits
for that record (R66, R67, R70, R85, R462). -/
def commitEnds (c : CommitRun) (status result : Nat) (f : CheckFail) (s : State) : State :=
  let s := modStg (fun g => { g with run := none, statCheck := f.check, statTable := f.table, statStatus := status
                                     failDetail := fld f.detail 0 16, failEntry := f.entry }) s
  match c.who with
  | .desc uid => finishGated uid status result (hwPut 0x0011 (commitPayload c status result) [.completion uid] s (some c.session))
  | _ => hwPut 0x0011 (commitPayload c status result) [] s (some c.session)

/-- No check failed. -/
def noFail : CheckFail := { check := 0, table := 0, entry := 0 }

/-- The die-to-die link fails before the set is applied: no die applies it (R76). -/
def commitLinkLost (src : Nat) (s : State) : State :=
  match s.stg.run with
  | some c => if c.checkOnly || c.phase == .applied || c.phase == .marked then s else commitEnds c 0x12 src noFail s
  | none => s

end Sys2Proof.Machine
end

