-- ==== Sys2Proof/Machine/PairOps.lean ====
section
/-! DEFINITION. What engines, pairs, faults and commits share: scopes named by a TARGET (R414), packages (R364, R520),
the places of programs in local RAM (R365), stopping and restarting a pair's programs (R363, R373, R422).
Readings of the spec: log entry 31, DEDUCED. -/

namespace Sys2Proof.Machine

/-! ### Scopes -/

/-- The output or outputs that a TARGET names as code N of R414 does: a channel with its gang, a bridge by its LEG_A or
a single half-bridge, a valve, a field channel, a coil, the release channel. -/
def scopeN (s : State) (t : Nat) : List OutId :=
  let sl := fld t 8 4
  let ch := fld t 0 8
  if 0x1000 ≤ t then []
  else if sl ≤ 3 && ch < 16 then
    let n := 16 * sl + ch
    (membersOf s (leaderOf s n)).map OutId.lch
  else if sl ≤ 3 && ch < 20 then
    let h := 4 * sl + (ch - 16)
    if (bridgeAt s h).isSome then [.hb h]
    else
      let users := (bridges s).filter fun c => c.legB == h
      if users.isEmpty then [.hb h] else users.map fun c => .hb c.legA
  else if sl == 4 && ch < 24 then [.vlv ch]
  else if sl == 4 && ch == 40 then [.boost]
  else if sl == 6 && ch < 32 then [.fio ch]
  else if sl == 8 && ch < 4 then [.lf ch]
  else if sl == 8 && ch == 8 then [.rel]
  else []

/-- Outputs a bank or valve group TARGET names (R414, R422). -/
def bankOuts (t : Nat) : List OutId :=
  let sl := fld t 8 4
  let ch := fld t 0 8
  if sl ≤ 3 && (ch == 32 || ch == 33) then (List.range 8).map fun i => OutId.lch (16 * sl + 8 * (ch - 32) + i) else []
def groupOuts (t : Nat) : List OutId :=
  let ch := fld t 0 8
  if fld t 8 4 == 4 && 32 ≤ ch && ch ≤ 35 then (List.range 6).map (fun i => OutId.vlv (6 * (ch - 32) + i)) ++ [OutId.vg (ch - 32)] else []

/-- Programs placed on a pair. -/
def pairProgs (s : State) (k : Nat) : List Prog := s.stg.place.progs.filter fun p => p.engine / 2 == k

/-- Every output named in the target entries of a pair's programs (R373). -/
def pairOuts (s : State) (k : Nat) : List OutId :=
  ((pairProgs s k).map fun p => (p.targets.map fun t => scopeN s t ++ bankOuts t ++ groupOuts t).flatten).flatten.eraseDups

/-! ### Engines and pairs -/

def eng (s : State) (e : Nat) : Eng := (at? s.eng e).getD {}
def setEng (e : Nat) (f : Eng → Eng) (s : State) : State := { s with eng := updN s.eng e f }
def pair (s : State) (k : Nat) : PairSt := (at? s.pairs k).getD {}
def setPair (k : Nat) (f : PairSt → PairSt) (s : State) : State := { s with pairs := updN s.pairs k f }
/-- TARGET of an engine and of a pair (R10). -/
def engTarget (e : Nat) : Nat := 0x0E00 + e
def pairTarget (k : Nat) : Nat := 0x0E10 + k

/-- The programs of a pair stay stopped, over a commit too: it is in a C2 state, or halted (R373, R415). -/
def pairHeld (s : State) (k : Nat) : Bool := inC2 s (.pair k) || (pair s k).halted

/-- An engine is the shadow of a pair that is not split (R366). -/
def isShadow (s : State) (e : Nat) : Bool := e % 2 == 1 && !(pair s (e / 2)).split
/-- An engine is the main engine of a coupled pair. -/
def isCoupled (s : State) (e : Nat) : Bool := !(pair s (e / 2)).split

/-- The shadow of pair `k` as a copy of its main engine. -/
def coupleEng (k : Nat) (s : State) : State := let m := eng s (2 * k); setEng (2 * k + 1) (fun _ => m) s

/-- What changes the main engine between its instructions reaches its shadow at the same retired count: at once where the
shadow has caught up, else with the last entry. -/
def mirrorShadow (e : Nat) (s : State) : State :=
  if !isCoupled s e then s
  else if (pair s (e / 2)).trail.isEmpty then coupleEng (e / 2) s
  else
    let m := eng s (e / 2 * 2)
    setPair (e / 2) (fun p => { p with trail := p.trail.dropLast ++ (p.trail.getLast?.toList.map fun t => { t with after := m }) }) s

/-- Payload of an ENGINE record (R461, log entry 9, DESIGN CHOICE): kind, pair or engine, cause, lane, bit, PC, and the retired count of
R373. -/
def engPayload (kind who cause lane bit pc retired : Nat) : List Byte :=
  leBytes 1 kind ++ leBytes 1 who ++ leBytes 2 cause ++ leBytes 1 lane ++ leBytes 1 bit ++ leBytes 4 pc ++ leBytes 8 retired
/-- An ENGINE record, with the reports that wait for it. -/
def engRecord (kind who cause lane bit pc retired : Nat) (s : State) (reports : List Report := []) : State :=
  hwPut 0x0040 (engPayload kind who cause lane bit pc retired) reports s

/-- Bits of SW (R343). -/
def swTask : Nat := 8

/-- The runtime goes on after a handler that was stopped on its way: at a free value, as after YIELD. -/
def resumeRuntime (e : Fin 16) (s : State) : State :=
  let (v, s) := takeFree 30 s
  setEng e (fun g => { g with pc := BitVec.ofNat 32 (4 * v), rep := none, loaded := none }) s

/-- Running handlers of some programs end on their way; the runtime goes on, on a shadow as on its main engine. -/
def endHandlers (gone : Nat → Bool) (s : State) : State :=
  let hit := fun g : Eng => match g.handler with | some h => gone h.prog | none => false
  let mains := (idxs 16).filter fun (e : Fin 16) => !isShadow s e && hit s.eng[e]
  let cut := mains.filter fun (e : Fin 16) => bitN s.eng[e].sw.toNat swTask
  let stop := fun g : Eng => if hit g then { g with handler := none, sw := g.sw &&& ~~~(BitVec.ofNat 32 (2 ^ swTask)) } else g
  mains.foldl (fun s (e : Fin 16) => mirrorShadow e s) (cut.foldl (fun s e => resumeRuntime e s) { s with eng := s.eng.map stop })

/-- Programs stop: no handler of them runs or is dispatched until a commit places them again (R363, R414). Their records stay
in the queues until the runtime takes them (R362). -/
def stopProgs (f : Prog → Bool) (s : State) : State :=
  let gone := (s.stg.place.progs.filter f).map (·.num)
  let s := modStg (fun g => { g with place := { g.place with progs := g.place.progs.map fun p => if f p then { p with stopped := true } else p } }) s
  endHandlers gone.contains s

/-- The programs of a pair stop. -/
def stopPair (k : Nat) (s : State) : State := stopProgs (fun p => p.engine / 2 == k) s

/-! ### Packages -/

/-- Bytes of a package slot. -/
def slotMem (s : State) (k : Nat) : Mem := ((at? s.pkgs k).getD {}).bytes
def slotLen (s : State) (k : Nat) : Nat := ((at? s.pkgs k).getD {}).len
/-- Field of a package header (R364). -/
def pkgU (s : State) (k off n : Nat) : Nat := memLe (slotMem s k) off n
def pkgHandlers (s : State) (k : Nat) : Nat := pkgU s k 32 2
def pkgTargets (s : State) (k : Nat) : Nat := pkgU s k 34 2
def pkgCodeAt (s : State) (k : Nat) : Nat := 64 + 12 * pkgHandlers s k + 2 * pkgTargets s k
def pkgDataAt (s : State) (k : Nat) : Nat := pkgCodeAt s k + pkgU s k 8 4
/-- The package's end (R520). -/
def pkgEnd (s : State) (k : Nat) : Nat := pkgDataAt s k + pkgU s k 12 4

/-- Rounded up to a multiple of 64, the step of a protection region (R344). -/
def up64 (n : Nat) : Nat := (n + 63) / 64 * 64
/-- Device address of a slot's first byte: the slots stand one behind the other (log entry 24, DESIGN CHOICE). -/
def slotBase (s : State) (k : Nat) : Nat := 0x10100000 + ((List.range k).map fun j => up64 (slotLen s j) + 64).foldl (· + ·) 0
/-- Device address of a slot's code: the code starts at the next multiple of 64, as a region does (R344, R365). -/
def slotCode (s : State) (k : Nat) : Nat := slotBase s k + up64 (pkgCodeAt s k)

/-! ### Local RAM of programs (R365) -/

/-- Local RAM that a program takes: data, zero data, stack. -/
def progSpan (p : Prog) : Nat := up64 p.memSize

/-- Program `p` with its data at offset `b` of local RAM (log entry 24, DESIGN CHOICE). -/
def progAt (p : Prog) (b : Nat) : Prog :=
  let stack := p.stackTop - p.stackLim
  { p with dataBase := 0x20000000 + b, stackTop := 0x20000000 + b + p.memSize, stackLim := 0x20000000 + b + p.memSize - stack }
/-- Offset of a program's data in local RAM. -/
def progOff (p : Prog) : Nat := p.dataBase - 0x20000000

/-- Places are given downward from the top of local RAM. -/
def packDown : List Prog → Nat → List Prog
  | [], _ => []
  | p :: ps, top => progAt p (top - progSpan p) :: packDown ps (top - progSpan p)

/-- Bytes of local RAM that the runtime keeps: the lowest (R365, log entry 24, DESIGN CHOICE). -/
def runtimeRam : Nat := 0x4000

/-- The highest free place for `n` bytes beside the places in use and the runtime's. -/
def freePlace (used : List Prog) (n : Nat) : Option Nat :=
  let free := fun b : Nat => used.all fun p => b + n ≤ progOff p || progOff p + progSpan p ≤ b
  let cand := (0x10000 :: used.map progOff).filterMap fun t => if runtimeRam + n ≤ t && free (t - n) then some (t - n) else none
  cand.foldl (fun m b => match m with | some x => some (max x b) | none => some b) none

/-- Places for the programs of one engine: those that keep theirs, then new ones; where these do not fit between
them, all anew. -/
def placeData (kept fresh : List Prog) : List Prog :=
  let go := fresh.foldl (fun (acc : Option (List Prog)) p => match acc with
    | some l => (freePlace l (progSpan p)).map fun b => l ++ [progAt p b]
    | none => none) (some kept)
  go.getD (packDown (kept ++ fresh) 0x10000)

/-- A program's initial data (R364): what its part of local RAM holds at first. -/
def initImage (s : State) (p : Prog) : Mem := memCopy [] 0 (slotMem s p.slot) (pkgDataAt s p.slot) (pkgU s p.slot 12 4)

/-- Local RAM with programs in place; each takes its part from a memory, at an offset. -/
def ramWith (ps : List Prog) (src : Prog → Mem × Nat) (m : Mem) : Mem :=
  ps.foldl (fun m p => memCopy m (progOff p) (src p).1 (src p).2 (progSpan p)) m

/-- A pair serves again after a function reset: its programs start from their initial data (R422). -/
def restartPair (k : Nat) (s : State) : State :=
  let s := modStg (fun g => { g with place := { g.place with progs := g.place.progs.map fun p => if p.engine / 2 == k then { p with stopped := false } else p } }) s
  let s := setPair k (fun p => { p with halted := false, held := [], trail := [], past := 0, lag := pairDelay s }) s
  let fresh := fun (e : Nat) (s : State) =>
    let ps := s.stg.place.progs.filter fun p => p.engine == e
    setEng e (fun x => { x with halted := false, waiting := false, entering := false, handler := none, rep := none, sw := x.sw &&& ~~~(BitVec.ofNat 32 (2 ^ swTask)), ram := ramWith ps (fun p => (initImage s p, 0)) x.ram }) s
  let s := fresh (2 * k + 1) (fresh (2 * k) s)
  if (pair s k).split then s else coupleEng k s

/-- The comparator self-test of a function reset has failed (R422). -/
def pairTestFailed (k : Nat) (s : State) : State :=
  raise 245 (pairTarget k) (setPair k (fun p => { p with mergeBlk := true, testBad := true, halted := true }) s)

/-- Width of a lane (R370). -/
def laneWidth (l : Nat) : Nat :=
  match l with
  | 0 => 36
  | 1 => 66
  | 2 => 64
  | _ => 32

/-- Lane of an expectation of the self-test (R374): 198 injections, one at each bit of lanes 0 to 3; an item without a
difference on each lane; the injection into the replay path, which lane 0 detects. -/
def testLane (n : Fin 203) : Nat :=
  if n.val < 36 then 0 else if n.val < 102 then 1 else if n.val < 166 then 2 else if n.val < 198 then 3 else if n.val < 202 then n.val - 198 else 0

/-- An expectation of the start-up's comparator self-test has failed (R374): source 244, the pair and the lane. -/
def pairSelfTestFailed (k : Fin 8) (n : Fin 203) (s : State) : State :=
  engRecord 3 k.val 0 (testLane n) 0 0 0 (raise 244 (pairTarget k) s)

/-- A hand-over runs on some pair (R73, R378, R440). -/
def handoverRuns (s : State) : Bool := s.pairs.toList.any fun p => p.run.isSome

/-- The runtime dispatches on a pair: not during a hand-over, until step 5 of a split and step 6 of a merge (R375, R377). -/
def dispatchOpen (s : State) (k : Nat) : Bool :=
  let p := pair s k
  match p.run with
  | none => true
  | some h => p.phase == .ending && (!h.toSplit || h.stepDt + us 1 ≤ s.dt)

/-- Records on their way go to the engine on which their program is placed now (R375). -/
def retarget (s : State) : State :=
  let go := fun r : Inbound => match r.prog.bind fun n => s.stg.place.progs.find? fun p => p.num == n with
    | some p => { r with engine := p.engine }
    | none => r
  { s with transit := s.transit.map go }

end Sys2Proof.Machine
end

