-- ==== Sys2Proof/Machine/Staging.lean ====
section
/-! DEFINITION. The staging area: STAGE_WRITE, STAGE_LOAD, STAGE_DISCARD, STAGE_QUERY and STG_DATA (R60 to R67).
Readings of the spec: log entry 12, DEDUCED. -/

namespace Sys2Proof.Machine

/-- Maximum size of a table (R60); 0 for an ID that names none. -/
def tableMax (t : Nat) : Nat := if t == 0x0A then 0x80000 else if 1 ≤ t && t ≤ 16 then 0x40000 else 0

/-- The staging area is locked (R66): from the acceptance of a commit or check until its completion is written. One that
R40 has refused was never accepted; its status tells it apart. -/
def stgLocked (s : State) : Bool :=
  s.stg.run.isSome || s.started.any fun r =>
    (r.desc.opcode == 0x0200 || r.desc.opcode == 0x0201) && r.done.any fun x => [0x00, 0x01, 0x0E, 0x12].contains x.status

/-- Bitmap of the staged tables, bit n for table n. -/
def stagedMap (s : State) : Nat := ((idxs 16).map fun i => if s.stg.staged[i].isSome then 2 ^ (i.val + 1) else 0).foldl (· + ·) 0

/-- Write bytes into a staged table for a session; a table newly staged starts with zeros (R62). -/
def stageBytes (t off : Nat) (bytes : List Byte) (session : Nat) (s : State) : State :=
  modStg (fun g => { g with staged := updN g.staged (t - 1) fun x => some { bytes := memWriteL ((x.map (·.bytes)).getD []) off bytes, writer := some session } }) s

/-- Tables an ID field names: one, or all for 0xFFFF. -/
def namedTables (id all : Nat) : List (Fin 16) := (idxs 16).filter fun i => id == all || id == i.val + 1

/-- Bitmap of a list of tables. -/
def tableBits (l : List (Fin 16)) : Nat := (l.map fun i => 2 ^ (i.val + 1)).foldl (· + ·) 0

/-- Return the named tables to the not-staged state (R64). -/
def discardTables (l : List (Fin 16)) (s : State) : State :=
  modStg (fun g => { g with staged := mapFin g.staged fun i x => if l.contains i then none else x }) s

/-- The committed set (R60): the marked MRAM copy. -/
def committedSet (s : State) : StoredSet := s.stg.copies[s.stg.marked]

/-- Payload of a STAGE record (R461, log entry 9, DESIGN CHOICE). -/
def stagePayload (op table off len : Nat) : List Byte := leBytes 2 op ++ leBytes 2 table ++ leBytes 4 off ++ leBytes 4 len

/-- What STAGE_WRITE asks of its descriptor. -/
def stageWriteForm (s : State) (d : Desc) : OpForm :=
  { idem := true, used := pm 16 64 + pm 24 16 + pm 28 32, plenOk := fun p => 4 ≤ p && p % 4 == 0,
    form := d.u 28 32 % 4 == 0,
    range := d.device && d.u 28 32 + d.plen ≤ tableMax (d.u 24 16) && (hostAddressed s d || inSram (d.u 16 64) d.plen),
    state := !stgLocked s }

/-- STAGE_WRITE: R62, R64 to R66, R85. -/
def execStageWrite (o : Origin) (b : BlockStep) (s : State) : Out :=
  runBlock o 0x0100 b
    stageWriteForm
    (fun d uid bs s =>
      finishRecorded 0x0010 (stagePayload 0x0100 (d.u 24 16) (d.u 28 32) d.plen) (some d.session) uid 0 d.plen
        (stageBytes (d.u 24 16) (d.u 28 32) bs d.session s)) s

/-- What STAGE_LOAD asks of its descriptor. -/
def stageLoadForm (s : State) (d : Desc) : OpForm :=
  { idem := true, used := pm 24 16, range := d.device && !(namedTables (d.u 24 16) 0xFFFF).isEmpty, state := !stgLocked s }

/-- STAGE_LOAD: R62, R64, R85. A stored set that fails its CRC leaves nothing to copy (R63). -/
def execStageLoad (o : Origin) (s : State) : Out :=
  runOut o 0x0101
    stageLoadForm
    (fun d uid s =>
      let l := if (committedSet s).valid then namedTables (d.u 24 16) 0xFFFF else []
      let load := fun (i : Fin 16) (x : Option Staged) =>
        if l.contains i then some { bytes := (committedSet s).tables[i], writer := some d.session : Staged } else x
      let s := modStg (fun g => { g with staged := mapFin g.staged load }) s
      finishRecorded 0x0010 (stagePayload 0x0101 (d.u 24 16) 0 0) (some d.session) uid 0 (tableBits l) s) s

/-- What STAGE_DISCARD asks of its descriptor. -/
def stageDiscardForm (s : State) (d : Desc) : OpForm :=
  { idem := true, used := pm 24 16, range := d.device && !(namedTables (d.u 24 16) 0xFFFF).isEmpty, state := !stgLocked s }

/-- STAGE_DISCARD: R64, R85. -/
def execStageDiscard (o : Origin) (s : State) : Out :=
  runOut o 0x0102
    stageDiscardForm
    (fun d uid s =>
      let l := (namedTables (d.u 24 16) 0xFFFF).filter fun i => s.stg.staged[i].isSome
      finishRecorded 0x0010 (stagePayload 0x0102 (d.u 24 16) 0 0) (some d.session) uid 0 (tableBits l) (discardTables l s)) s

/-- What STAGE_QUERY asks of its descriptor. -/
def stageQueryForm (s : State) (d : Desc) : OpForm :=
  { idem := true, range := d.device, state := !stgLocked s }

/-- STAGE_QUERY: R64, R66, R85. -/
def execStageQuery (o : Origin) (s : State) : Out :=
  runOut o 0x0103 stageQueryForm
    (fun d uid s =>
      finishRecorded 0x0010 (stagePayload 0x0103 0 0 0) (some d.session) uid 0 (stagedMap s + 2 ^ 32 * s.stg.seq) s) s

/-- A write of STG_DATA (R67). -/
def stgDataWrite (v : Nat) (s : State) : State :=
  let g := s.stg
  let s := if sessionOpen s g.ctrlSession then touchSession g.ctrlSession s else s
  if stgLocked s || !sessionOpen s g.ctrlSession then
    modStg (fun g => { g with lockIgn := g.lockIgn || stgLocked s, noSes := g.noSes || !sessionOpen s g.ctrlSession }) s
  else if g.offset % 4 != 0 || tableMax g.ctrlTable ≤ g.offset then modStg (fun g => { g with offsetBad := true }) s
  else
    let s := stageBytes g.ctrlTable g.offset (leBytes 4 v) g.ctrlSession s
    let s := hwPut 0x0010 (stagePayload 0x0100 g.ctrlTable g.offset 4) [] s (some g.ctrlSession)
    modStg (fun g => { g with offset := g.offset + 4 }) s

/-- STG_DATA_WRITE: R67. -/
def execStgDataWrite (v : Word) (s : State) : Out := .next (whenOn (fun s => stgDataWrite v.toNat (hostAccess 0x40092008 4 s)) s)

end Sys2Proof.Machine
end

