-- ==== Sys2Proof/Machine/Heartwood.lean ====
section
/-! DEFINITION. The heartwood: writing the next waiting record with its reports, the scan, reading it (R459 to
R467, R480, R482). -/

namespace Sys2Proof.Machine

/-- Device address of record slot `i`: 1,024 of the first-events section, then 15,360 of the circular one (R458). -/
def hwSlotAddr (i : Nat) : Nat := 0x10000000 + 64 * i

/-- The 64 bytes of a record (R460). -/
def hwBytes (w : Waiting) (seq : Nat) : List Byte :=
  let flags := b2n w.tsRt + 2 * b2n w.injected + (match w.session with | some n => putF n 2 2 + 16 | none => 0)
  let body := leBytes 4 seq ++ leBytes 2 w.type ++ leBytes 1 flags ++ [0] ++ leBytes 8 w.time ++ leBytes 4 w.commitSeq ++
    (w.payload ++ List.replicate 40 0).take 40
  body ++ leBytes 4 (crc32 body)

/-- A slot's bytes are a valid record: not empty, and its CRC agrees (R460, R463). -/
def hwValid (bs : List Byte) : Bool := ofLe (bs.drop 60) == crc32 (bs.take 60)

/-- The slots of the heartwood that hold any byte, rising. -/
def hwSlotsOf : Mem → List Nat
  | [] => []
  | (a, _) :: m =>
    let rest := hwSlotsOf m
    if 0x10000000 ≤ a && a < 0x10100000 then
      let i := (a - 0x10000000) / 64
      if rest.head? == some i then rest else i :: rest
    else rest

/-- Valid records held: SEQ and bytes, in slot order. -/
def hwHeld (m : Mem) : List (Nat × List Byte) :=
  (hwSlotsOf m).filterMap fun i =>
    let bs := memBytes m (hwSlotAddr i) 64
    if hwValid bs then some (ofLe (bs.take 4), bs) else none

/-- Insertion by distance from `base`, modulo 2^32. -/
def hwInsert (base : Nat) (x : Nat × List Byte) : List (Nat × List Byte) → List (Nat × List Byte)
  | [] => [x]
  | y :: ys => if sub32 x.1 base ≤ sub32 y.1 base then x :: y :: ys else y :: hwInsert base x ys

/-- The records held in SEQ order from the oldest. -/
def hwOrdered (s : State) : List (Nat × List Byte) := (hwHeld s.mram).foldl (fun l x => hwInsert s.hw.oldest x l) []

/-- Release one held report (R462). -/
def releaseReport (r : Report) (s : State) : State :=
  match r with
  | .event ring code target d1 d2 time tsRt => emitAt ring code target d1 d2 time tsRt s
  | .vector v => sendVector v s
  | .completion uid => settle { s with started := s.started.map fun x => if x.uid == uid then { x with gated := false } else x }

/-- A 64 KiB block of the circular section goes to the archive before its first record is overwritten (R466). -/
def archiveBlock (blk : Nat) (ok : Bool) (s : State) : State :=
  let dst := s.host.archive * 65536 + 65536 * s.hw.archNext
  if s.host.archive != 0 && ok && xspiAnswers s (xspiCs dst) then
    modHw (fun h => { h with archNext := (h.archNext + 1) % 384 })
      (xspiMem (xspiCs dst) (fun m => memCopy m (xspiOff dst) s.mram (0x10010000 + 65536 * blk) 65536) s)
  else modHw (fun h => { h with archMiss := sat 8 (h.archMiss + 1) }) s

/-- The next waiting record is written: it takes its SEQ, its slot and its CRC, and its reports leave (R459, R462,
R464, R466). `archived`: a block copy, where one is due, succeeds. -/
def hwWrite (archived : Bool) (s : State) : State :=
  match s.hw.queue with
  | [] => s
  | w :: rest =>
    let h := s.hw
    let seq := w32 (h.newest + (if h.skip then 2 else 1))
    let first := h.firstUsed < 1024
    let s := if !first && h.circNext % 1024 == 0 then archiveBlock (h.circNext / 1024) archived s else s
    let addr := hwSlotAddr (if first then h.firstUsed else 1024 + h.circNext)
    let s := fabAccess .mram 0x23 addr 64 { s with mram := memWriteL s.mram addr (hwBytes w seq) }
    let s := modHw (fun h => { h with queue := rest ++ h.heldBack.take 1, heldBack := h.heldBack.drop 1, newest := seq, any := true, skip := false,
                                      oldest := if h.any then h.oldest else seq,
                                      firstUsed := if first then h.firstUsed + 1 else h.firstUsed,
                                      circNext := if first then h.circNext else (h.circNext + 1) % 15360,
                                      marker := if s.pw.pfw then some seq else h.marker }) s
    w.reports.foldl (fun s r => releaseReport r s) s

/-- Every waiting record is written, `n` at most (R441 step 3, R453). -/
def hwWriteAll : Nat → State → State
  | 0, s => s
  | n + 1, s => if s.hw.queue.isEmpty then s else hwWriteAll n (hwWrite true s)

/-- HEARTWOOD_RECORD_WRITE: R462. -/
def execHeartwoodRecordWrite (archived : Bool) (s : State) : Out := .next (whenOn (hwWrite archived) s)

/-- What HW_READ asks of its descriptor. -/
def hwReadForm (s : State) (d : Desc) : OpForm :=
  let n := d.u 28 24
  let host := bitN d.raw.toNat 248
  { idem := true, used := pm 16 64 + pm 24 32 + pm 28 25
    range := d.target == 0x0942 && 1 ≤ n && n ≤ 2048 && (host || inSram (d.u 16 64) (64 * n)) && !(host && s.host.selfHosted) &&
      s.hw.any && sub32 (d.u 24 32) s.hw.oldest ≤ sub32 s.hw.newest s.hw.oldest }

/-- HW_READ: R480. -/
def execHwRead (o : Origin) (s : State) : Out :=
  runOut o 0x3800
    hwReadForm
    (fun d uid s =>
      let l := hwOrdered s
      let heldIt := l.any fun x => x.1 == d.u 24 32
      let from' := if heldIt then l.dropWhile fun x => x.1 != d.u 24 32 else l
      let out := from'.take (d.u 28 24)
      let bytes := (out.map (·.2)).flatten
      finish uid (if heldIt then 0 else 2) (out.length + 2 ^ 32 * ((out.head?.map (·.1)).getD 0))
        (toBuffer (bitN d.raw.toNat 248) (d.u 16 64) bytes s)) s

/-- What HW_QUERY asks of its descriptor. -/
def hwQueryForm (_ : State) (d : Desc) : OpForm :=
  { idem := true, range := d.target == 0x0942 }

/-- HW_QUERY: R480. -/
def execHwQuery (o : Origin) (s : State) : Out :=
  runOut o 0x3801 hwQueryForm
    (fun _ uid s => finish uid 0 (s.hw.newest + 2 ^ 32 * s.hw.oldest) s) s

end Sys2Proof.Machine
end

