-- ==== Sys2Proof/Machine/Valve.lean ====
section
/-! DEFINITION. Valve groups, firings and their overlap, the boost converter, the charge ledger (file 07).
Readings of the spec: log entry 15, DEDUCED. -/

namespace Sys2Proof.Machine

/-! ### Configuration -/

def modVs (f : VsSt → VsSt) (s : State) : State := { s with vs := f s.vs }
def vlv (s : State) (v : Nat) : Vlv := (at? s.vs.vlv v).getD {}
def vg (s : State) (g : Nat) : Vg := (at? s.vs.vg g).getD {}
def setVlv (v : Nat) (f : Vlv → Vlv) (s : State) : State := { s with vs := { s.vs with vlv := updN s.vs.vlv v f } }
def setVg (g : Nat) (f : Vg → Vg) (s : State) : State := { s with vs := { s.vs with vg := updN s.vs.vg g f } }
/-- Fields of the boost block, a group entry and a valve entry of table 0x06 (R192). -/
def boostU (s : State) (off w : Nat) : Nat := storedU s 6 (16 + off) w
def vgU (s : State) (g off w : Nat) : Nat := storedU s 6 (32 + 8 * g + off) w
def vlvU (s : State) (v off w : Nat) : Nat := storedU s 6 (64 + 32 * v + off) w
def vlvEn (s : State) (v : Nat) : Bool := bitN (vlvU s v 0 1) 0 && bitN (vgU s (v / 6) 0 1) 0
def vlvCfg (s : State) (v : Nat) : VlvCfg :=
  let f := vlvU s v 0 1
  { useBoost := bitN f 1, offSlow := bitN f 2, diagOn := bitN f 4, iPeak := vlvU s v 2 2, iHold := vlvU s v 4 2, tBoostMin := vlvU s v 6 2
    tBoostMax := vlvU s v 8 2, tPeak := vlvU s v 10 2, decMax := vlvU s v 12 2, tHoldMax := vlvU s v 14 2, maxDefer := vgU s (v / 6) 1 1 }
/-- The entry that acts on a valve: its firing's, else the committed one (R75). -/
def vlvActs (s : State) (v : Nat) : VlvCfg := match (vlv s v).fire with | some f => f.cfg | none => vlvCfg s v
/-- OFF_SLOW of the firing in progress, or of the one that brought the present HOLD (R75, R174). -/
def relSlow (s : State) (v : Nat) : Bool := match (vlv s v).fire with | some f => f.cfg.offSlow | none => (vlv s v).offSlow
def vlvTarget (v : Nat) : Nat := 0x0400 + v
def vgTarget (g : Nat) : Nat := 0x0420 + g
def boostTarget : Nat := 0x0428
/-- V_BOOST and V_READY in mV (R182). -/
def vBoost (s : State) : Nat := boostU s 0 2
def vReady (s : State) : Nat := vBoost s * boostU s 6 1 / 100

/-- EVT_RING of a group; none before the first commit (R516). -/
def vgRing (s : State) (g : Nat) : Nat := if s.stg.inForce then vgU s g 2 1 else 0xFF
def vlvEvent (v code d1 d2 : Nat) (s : State) : State := emitOn .base (vgRing s (v / 6)) code (vlvTarget v) d1 d2 s

/-- Valves of a group. -/
def vgValves (g : Nat) : List Nat := (List.range 6).map (· + 6 * g)
/-- Condition of the common (R170): 0 OFF, 1 BATTERY, 2 BOOST, 3 CHOP. -/
def commonOf (s : State) (g : Nat) : Nat :=
  let has := fun k => (vgValves g).any fun v => (vlv s v).state == k
  if has 2 then 2 else if has 3 then 3 else if has 5 then 1 else 0
/-- Every decay is slow (R184). -/
def decaySlow (s : State) : Bool := s.vs.ovSlow || s.vs.boost == .off || s.vs.boost == .fault

/-- A current of VHS_n in 10 mA steps (R196); with the common OFF it carries none. -/
def noteVgCur (g i : Nat) (s : State) : State :=
  let i := if commonOf s g == 0 then 0 else sat 16 i
  setVg g (fun x => { x with i := i, peak := max x.peak i }) s
/-- The currents read at a valve and at its group's high-side, in 10 mA steps (R196). -/
def noteVlvCur (v i hi : Nat) (s : State) : State := noteVgCur (v / 6) hi (setVlv v (fun x => { x with i := sat 16 i, peak := max x.peak (sat 16 i) }) s)
/-- A decay in progress goes on slowly; the charge that it has returned counts (R184). -/
def slowDown (x : Vlv) : Vlv := if x.slow then x else { x with slow := true, part := true }
/-- The decay returns no charge. -/
def allSlow (x : Vlv) : Bool := x.slow && !x.part
/-- Charge added to a ledger count: 0 IN, 1 DRAW, 2 RET, 3 LOSS (R185). -/
def ledgerAdd (k : Fin 4) (q : Nat) (s : State) : State := modVs (fun x => { x with ledger := upd x.ledger k fun n => (n + q) % 2 ^ 64 }) s
def noteCap (v : Nat) (s : State) : State := modVs (fun x => { x with vCap := sat 16 v, vMin := min x.vMin (sat 16 v) }) s

/-! ### Firings -/

/-- RESULT of a firing (R194). -/
def fireResult (f : Fire) (src : Nat) : Nat := sat 16 f.deferral + putF (sat 16 f.boostUs) 16 16 + putF (sat 16 f.charge) 32 16 + putF src 48 16
/-- A firing's descriptor completes; a periodic firing that is rejected or times out writes VALVE_REJECT (R181, R194). -/
def fireEnds (f : Fire) (status src : Nat) (s : State) : State :=
  let s := if f.periodic && (status == 0x0D || status == 0x13) then vlvEvent f.valve 0x1280 (f.valve + putF status 8 8) (sat 16 f.deferral) s else s
  match f.uid with
  | some u => if status == 0x0C then finishFree u status s else finish u status (fireResult f src) s
  | none => s

/-- The slot of a valve's group comes free (R177): by its HOLD, or as it reaches OFF. -/
def freeSlot (v : Nat) (hold : Bool) (s : State) : State :=
  setVg (v / 6) (fun g => if g.owner == some v then { g with owner := none, freeDt := some s.dt, freeHold := hold } else g) s

/-- HOLD begins: the firing completes, the slot is free, the hold time runs (R171, R175, R179). -/
def enterHold (v : Nat) (s : State) : State :=
  match (vlv s v).fire with
  | none => s
  | some f =>
    let len := if f.holdMs == 0 then f.cfg.tHoldMax else f.holdMs
    let s := setVlv v (fun x => { x with state := 5, since := s.dt, fire := none, decMax := f.cfg.decMax, offSlow := f.cfg.offSlow, holdMs := len, holdEnd := if len == 0 then none else some (s.dt + ms len) }) s
    fireEnds f (if f.waited then 0x01 else 0) 0xFFFF (freeSlot v true s)

/-- DECAY begins (R171, R174). -/
def enterDecay (v : Nat) (s : State) : State := setVlv v (fun x => { x with state := 4, since := s.dt, slow := decaySlow s, part := false, comDt := some s.dt }) s
/-- PEAK begins; a T_PEAK of 0 passes straight to DECAY (R173). -/
def enterPeak (v : Nat) (s : State) : State :=
  if (vlvActs s v).tPeak == 0 then enterDecay v s else setVlv v (fun x => { x with state := 3, since := s.dt }) s

/-- The slot is granted (R178, R179). -/
def grantSlot (f : Fire) (s : State) : State :=
  let v := f.valve
  let d := (s.dt - f.start) / 80
  let s := setVg (v / 6) (fun g => { g with owner := some v, waiting := g.waiting.filter (·.order != f.order) }) s
  let s := setVlv v (fun x => { x with fire := some { f with deferral := d }, lastDefer := sat 16 d, state := 2, since := s.dt }) s
  if f.cfg.useBoost then s else enterPeak v s

/-- RELEASE begins (R171, R174); a firing in progress completes as given. -/
def enterRelease (v : Nat) (slow : Bool) (status src : Nat) (s : State) : State :=
  let x := vlv s v
  let dec := (vlvActs s v).decMax
  let s := match x.fire with | some f => fireEnds f status src s | none => s
  setVlv v (fun x => { x with state := 6, since := s.dt, fire := none, holdEnd := none, slow := slow || decaySlow s, part := false, relLate := false, decMax := if dec == 0 then x.decMax else dec
                              comDt := if x.state == 4 then x.comDt else some s.dt }) s

/-- A release cuts a boost phase or a fast decay short: its time is known, and the charge that it moved till then, for which the spec
gives no figure, is a free value (R185, R194). -/
def cutPhase (v : Nat) (s : State) : State :=
  let x := vlv s v
  if x.state == 2 then
    let (q, s) := takeFree 16 s
    ledgerAdd 1 q (setVlv v (fun x => { x with fire := x.fire.map fun f => { f with boostUs := (s.dt - x.since) / 80, charge := q } }) s)
  else if x.state == 4 && !allSlow x then
    let (q, s) := takeFree 16 s
    ledgerAdd 2 q (setVlv v (fun x => { x with lastRet := q }) s)
  else s

/-- A release that no end of the phase brings (R171, R187). -/
def releaseEarly (v : Nat) (slow : Bool) (status src : Nat) (s : State) : State := enterRelease v slow status src (cutPhase v s)

/-- A waiting firing leaves WAITING without effect (R179); a pattern's stop that waits for OFF completes (R194). -/
def dropWaiting (v status src : Nat) (s : State) : State :=
  match (vlv s v).fire with
  | some f =>
    let f := { f with deferral := (s.dt - f.start) / 80 }
    let s := setVg (v / 6) (fun g => { g with waiting := g.waiting.filter (·.order != f.order) }) s
    let u := (vlv s v).stopUid
    let s := fireEnds f status src (setVlv v (fun x => { x with state := 0, fire := none, stopUid := none, lastDefer := sat 16 f.deferral }) s)
    match u with | some u => finish u 0 0 s | none => s
  | none => s

/-- A firing takes no slot (R177). -/
def noSlot (c : VlvCfg) : Bool := !c.useBoost && c.tPeak == 0
/-- No valve of the group is in DECAY or RELEASE. -/
def vgCalm (s : State) (g : Nat) : Bool := (vgValves g).all fun v => (vlv s v).state != 4 && (vlv s v).state != 6
/-- The capacitor is ready for a firing (R178, R179). -/
def capReady (s : State) (c : VlvCfg) : Bool := !c.useBoost || (s.vs.boost == .ready && vReady s ≤ s.vs.vCap)

/-- MAX_DEFER in DT ticks (R180), the firing's own (R75). -/
def Fire.maxDefer (f : Fire) : Nat := us (100 * f.cfg.maxDefer)
/-- No off-state diagnosis holds the group's slot back: it takes 400 µs (R188). -/
def diagDone (s : State) (g : Nat) : Bool := match (vg s g).diagRun with | some t => t + us 400 ≤ s.dt | none => true

/-- The valve may not be fired (R178 row 1, R182, R187, R191): for a firing of a descriptor or of a pattern. -/
def fireBarred (f : Fire) (s : State) : Bool :=
  let x := vlv s f.valve
  x.state != 0 || x.held.isSome || !vlvEn s f.valve || (f.uid.isSome && x.perNext.isSome) || (f.cfg.useBoost && s.vs.boost != .ready) || supplyHolds s .base

/-- The slot may be granted: free, and 20 µs past the beginning of the HOLD that freed it (R176 step 7, R178). -/
def slotOpen (s : State) (g : Nat) : Bool :=
  let x := vg s g
  x.owner.isNone && diagDone s g && (match x.freeDt with
    | some t => t + us 20 ≤ s.dt || !x.freeHold
    | none => true)

/-- The requested start (R178): the first matching row. -/
def requestFire (f : Fire) (s : State) : State :=
  let v := f.valve
  let g := v / 6
  if fireBarred f s || ((f.uid.isSome || f.periodic) && safeHeld s (.vlv v)) then fireEnds f 0x0C 0xFFFF s
  else if noSlot f.cfg then enterHold v (setVlv v (fun x => { x with fire := some f, lastDefer := 0 }) s)
  else if slotOpen s g && (vg s g).waiting.isEmpty && vgCalm s g && capReady s f.cfg then grantSlot f s
  else if f.cfg.maxDefer == 0 || 8 ≤ (vg s g).waiting.length then fireEnds f 0x0D 164 (raise 164 (vlvTarget v) s)
  else
    let f := { f with waited := true }
    setVg g (fun x => { x with waiting := x.waiting ++ [f] }) (setVlv v (fun x => { x with state := 1, since := s.dt, fire := some f }) s)

/-- The next order number of arrival. -/
def takeOrder (s : State) : Nat × State := (s.vs.order, modVs (fun x => { x with order := x.order + 1 }) s)

/-- Valve operations target VS, CH 0 to 23, and need an enabled valve outside a safe state (R191, R194, R503). -/
def vlvRange (d : Desc) : Bool := d.slice == 4 && d.ch < 24
def vlvTakes (s : State) (d : Desc) : Bool := vlvEn s d.ch && !safeHeld s (.vlv d.ch) && !supplyHolds s .base
/-- R194: a start tick not in the past and at most 10 s ahead. -/
def tickOk (s : State) (t : Nat) : Bool := s.dt ≤ t && t ≤ s.dt + sec 10

/-- What VLV_FIRE asks of its descriptor. -/
def vlvFireForm (s : State) (d : Desc) : OpForm :=
  { used := pm 16 96, range := vlvRange d && (d.u 16 64 == 0 || tickOk s (d.u 16 64)), state := vlvTakes s d }

/-- VLV_FIRE: R178, R194. -/
def execVlvFire (o : Origin) (s : State) : Out :=
  runOut o 0x1200
    vlvFireForm
    (fun d uid s =>
      let t := d.u 16 64
      let (n, s) := takeOrder s
      let f : Fire := { valve := d.ch, uid := some uid, start := if t == 0 then s.dt else t, order := n, holdMs := d.u 24 32, cfg := vlvCfg s d.ch }
      if t ≤ s.dt then requestFire f s else modVs (fun x => { x with pend := x.pend ++ [f] }) s) s

/-- FIRE_REQUESTED_START: R178. -/
def execFireRequestedStart (v : Fin 24) (s : State) : Out :=
  .next (whenOn (fun s => match s.vs.pend.find? fun f => f.valve == v.val && f.start ≤ s.dt with
    | some f => requestFire f (modVs (fun x => { x with pend := x.pend.filter (·.order != f.order) }) s)
    | none => s) s)

/-- The waiting firing first in order: by requested start, then arrival (R179). -/
def firstWaiting : List Fire → Option Fire
  | [] => none
  | f :: fs => match firstWaiting fs with
    | some x => if f.start < x.start || (f.start == x.start && f.order ≤ x.order) then some f else some x
    | none => some f

/-- Conditions of R179 but the capacitor's. -/
def slotFree (s : State) (g : Nat) : Bool :=
  let x := vg s g
  x.owner.isNone && diagDone s g && (match x.freeDt with | some t => t + us 20 ≤ s.dt | none => true) && vgCalm s g

/-- SLOT_GRANT: R179. -/
def execSlotGrant (g : Fin 4) (s : State) : Out :=
  .next (whenClocked (fun s => match firstWaiting (vg s g).waiting with
    | some f => if slotFree s g && capReady s f.cfg then grantSlot f s else s
    | none => s) s)

/-- DEFER_TIMEOUT: R179. -/
def execDeferTimeout (v : Fin 24) (s : State) : Out :=
  .next (whenClocked (fun s => match (vlv s v).state, (vlv s v).fire with
    | 1, some f =>
      if s.dt < f.start + f.maxDefer then s
      else
        let first := (firstWaiting (vg s (v / 6)).waiting).any fun x => x.order == f.order
        if first && slotFree s (v / 6) && !capReady s f.cfg then dropWaiting v 0x13 173 (raise 173 (vlvTarget v) s)
        else dropWaiting v 0x0D 164 (raise 164 (vlvTarget v) s)
    | _, _ => s) s)

/-! ### Results of diagnosis -/

/-- A diagnosis result (R189): event and source where it differs from the last of its kind. -/
def vlvDiag (v res : Nat) (onState : Bool) (s : State) : State :=
  let x := vlv s v
  if (if onState then x.onRes else x.offRes) == res then s
  else
    let s := setVlv v (fun x => if onState then { x with onRes := res } else { x with offRes := res }) s
    let s := vlvEvent v 0x1283 (v + putF res 8 3 + putF (b2n onState) 11 1) 0 s
    match res with
    | 2 => raise 165 (vlvTarget v) s
    | 3 => raise 166 (vgTarget (v / 6)) s
    | 4 => raise 167 (vlvTarget v) s
    | _ => s

/-! ### Phases -/

/-- The boost phase ends with its time and charge (R185, R194). -/
def boostPhaseEnds (v q : Nat) (s : State) : State :=
  ledgerAdd 1 q (setVlv v (fun x => { x with fire := x.fire.map fun f => { f with boostUs := (s.dt - x.since) / 80, charge := q } }) s)

/-- PEAK_REACHED: R172, R189; the currents of the valve and of VHS_n in 10 mA steps, the boost-path charge of the phase in 0.1 µC. -/
def execPeakReached (v : Fin 24) (m : VlvCurs) (q : Nat) (s : State) : Out :=
  .next (whenClocked (fun s =>
    let x := vlv s v
    let c := vlvActs s v
    if x.state != 2 || m.i < c.iPeak then s
    else
      let short := (s.dt - x.since) / 80 < c.tBoostMin && c.diagOn
      let s := boostPhaseEnds v q (noteVlvCur v m.i m.hi s)
      if short then enterRelease v (relSlow s v) 0x12 167 (vlvDiag v 4 true s) else enterPeak v s) s)

/-- BOOST_TIMEOUT: R172. -/
def execBoostTimeout (v : Fin 24) (q : Nat) (s : State) : Out :=
  .next (whenClocked (fun s =>
    if (vlv s v).state == 2 && (vlv s v).since + us (vlvActs s v).tBoostMax ≤ s.dt then
      enterRelease v (relSlow s v) 0x12 171 (raise 171 (vlvTarget v) (boostPhaseEnds v q s))
    else s) s)

/-- PEAK_END: R173. -/
def execPeakEnd (v : Fin 24) (s : State) : Out :=
  .next (whenClocked (fun s => if (vlv s v).state == 3 && (vlv s v).since + us (vlvActs s v).tPeak ≤ s.dt then enterDecay v s else s) s)

/-- DECAY_END: R171, R174; the currents of the valve and of VHS_n in 10 mA steps, the charge returned in 0.1 µC. -/
def execDecayEnd (v : Fin 24) (m : VlvCurs) (q : Nat) (s : State) : Out :=
  .next (whenClocked (fun s =>
    let x := vlv s v
    let c := vlvActs s v
    if x.state != 4 || (c.iHold < m.i && s.dt < x.since + us c.decMax) then s
    else
      let s := noteVlvCur v m.i m.hi s
      let s := if allSlow x then s else ledgerAdd 2 q (setVlv v (fun x => { x with lastRet := sat 16 q }) s)
      enterHold v s) s)

/-- HOLD_END: R175. A valve stays in HOLD while SAFE = ON or HOLD applies (R191). -/
def execHoldEnd (v : Fin 24) (s : State) : Out :=
  .next (whenClocked (fun s => match (vlv s v).state, (vlv s v).holdEnd with
    | 5, some t =>
      if t ≤ s.dt && !(safeHeld s (.vlv v) && (safeKind s (.vlv v) == 1 || safeKind s (.vlv v) == 2)) then
        vlvEvent v 0x1281 v (w32 (vlv s v).holdMs) (enterRelease v (relSlow s v) 0 0xFFFF s)
      else s
    | _, _ => s) s)

/-- A valve reaches OFF: releases and a pattern's stop complete (R194). -/
def reachOff (v q : Nat) (s : State) : State :=
  let x := vlv s v
  let r := sat 16 q + putF (sat 16 ((s.dt - x.since) / 80)) 16 16
  let s := freeSlot v false (setVlv v (fun x => { x with state := 0, since := s.dt, offDt := some s.dt, relUids := [], stopUid := none, i := 0 }) s)
  let s := x.relUids.foldl (fun s u => finish u 0 r s) s
  match x.stopUid with | some u => finish u 0 0 s | none => s

/-- VALVE_OFF: R171; the current of VHS_n in 10 mA steps, the charge returned in 0.1 µC. -/
def execValveOff (v : Fin 24) (m : VlvReturn) (s : State) : Out :=
  .next (whenClocked (fun s =>
    let x := vlv s v
    if x.state != 6 then s
    else
      let q := if allSlow x then 0 else m.q
      let s := if allSlow x then s else ledgerAdd 2 q (setVlv v (fun x => { x with lastRet := sat 16 q }) s)
      noteVlvCur v 0 m.hi (reachOff v q s)) s)

/-- RELEASE_TIMEOUT: R174. -/
def execReleaseTimeout (v : Fin 24) (s : State) : Out :=
  .next (whenClocked (fun s =>
    let x := vlv s v
    if x.state == 6 && x.since + us (4 * x.decMax) ≤ s.dt && !x.relLate then raise 167 (vlvTarget v) (setVlv v (fun x => { x with relLate := true }) s) else s) s)

/-- What VLV_RELEASE asks of its descriptor. -/
def vlvReleaseForm (s : State) (d : Desc) : OpForm :=
  { idem := true, used := pm 24 1, range := vlvRange d, state := vlvTakes s d }

/-- VLV_RELEASE: R179, R194. -/
def execVlvRelease (o : Origin) (s : State) : Out :=
  runOut o 0x1201 vlvReleaseForm
    (fun d uid s =>
      let v := d.ch
      let slow := bitN (d.u 24 8) 0 || relSlow s v
      match (vlv s v).state with
      | 0 => finish uid 0 0 s
      | 1 => finish uid 0 0 (dropWaiting v 0x10 0xFFFF s)
      | 6 => setVlv v (fun x => { (if slow then slowDown x else x) with relUids := x.relUids ++ [uid] }) s
      | _ => setVlv v (fun x => { x with relUids := x.relUids ++ [uid] }) (releaseEarly v slow 0x10 0xFFFF s)) s

/-- What VLV_PERIODIC asks of its descriptor. -/
def vlvPeriodicForm (s : State) (d : Desc) : OpForm :=
  { idem := true, used := pm 16 72, range := vlvRange d && (d.u 24 8 == 0 || (d.u 24 8 == 1 && tickOk s (d.u 16 64)))
    state := vlvTakes s d && !(d.u 24 8 == 1 && ((vlv s d.ch).perNext.isSome || vlvU s d.ch 16 2 == 0)) }

/-- VLV_PERIODIC: R181, R194. -/
def execVlvPeriodic (o : Origin) (s : State) : Out :=
  runOut o 0x1202
    vlvPeriodicForm
    (fun d uid s =>
      let v := d.ch
      if d.u 24 8 == 1 then finish uid 0 0 (setVlv v (fun x => { x with perNext := some (d.u 16 64) }) s)
      else
        let x := vlv s v
        let s := setVlv v (fun x => { x with perNext := none }) s
        if x.perNext.isNone || x.state == 0 then finish uid 0 0 s else setVlv v (fun x => { x with stopUid := some uid }) s) s

/-- PERIODIC_FIRING: R181. -/
def execPeriodicFiring (v : Fin 24) (s : State) : Out :=
  .next (whenOn (fun s => match (vlv s v).perNext with
    | some t =>
      if s.dt < t then s
      else
        let (n, s) := takeOrder (setVlv v (fun x => { x with perNext := some (t + ms (vlvU s v 16 2)) }) s)
        requestFire { valve := v, uid := none, start := t, order := n, holdMs := vlvU s v 18 2, cfg := vlvCfg s v, periodic := true } s
    | none => s) s)

/-- VLV_STAT and VG_STAT (R196). -/
def vlvStat (s : State) (v : Nat) : Nat :=
  let x := vlv s v
  putF x.state 28 4 + putF (b2n x.held.isSome) 27 1 + putF (b2n x.perNext.isSome) 26 1 + putF (b2n (safeHeld s (.vlv v))) 25 1 + x.lastDefer
def vgStat (s : State) (g : Nat) : Nat :=
  putF ((vg s g).owner.getD 0xFF) 16 8 + putF (vg s g).waiting.length 12 4 + putF ((vgValves g).filter fun v => (vlv s v).state == 5).length 8 4 +
    putF (commonOf s g) 2 2 + putF (b2n (safeHeld s (.vg g))) 1 1 + b2n (bitN (vgU s g 0 1) 0)

/-- What VLV_QUERY asks of its descriptor; before the first commit no valve is enabled (R516). -/
def vlvQueryForm (s : State) (d : Desc) : OpForm :=
  { idem := true, range := vlvRange d, state := s.stg.inForce && vlvEn s d.ch }

/-- VLV_QUERY: R194. -/
def execVlvQuery (o : Origin) (s : State) : Out :=
  runOut o 0x1203 vlvQueryForm
    (fun d uid s => finish uid 0 (fld (vlvStat s d.ch) 16 16 + putF (vlv s d.ch).i 16 16 + putF (vgStat s (d.ch / 6)) 32 16) s) s

/-! ### The boost converter -/

def boostCode : Boost → Nat
  | .off => 0
  | .precharge => 1
  | .measure => 2
  | .charging => 3
  | .ready => 4
  | .suspended => 5
  | .fault => 6

/-- The converter changes its state: BOOST_STATE is written, a window that sees MEASURE, OFF or FAULT is not judged, and in
OFF and FAULT every decay is slow (R182, R184, R186, R195). -/
def boostTo (b : Boost) (s : State) : State :=
  let old := s.vs.boost
  if old == b then s
  else
    let out := b == .measure || b == .off || b == .fault
    let s := modVs (fun x => { x with boost := b, boostDt := s.dt, winOut := x.winOut || out }) s
    let s := if b == .off || b == .fault then modVs (fun x => { x with vlv := x.vlv.map fun y => if y.state == 4 || y.state == 6 then slowDown y else y }) s else s
    emitOn .base (if s.stg.inForce then boostU s 7 1 else 0xFF) 0x1282 boostTarget (boostCode b + putF (boostCode old) 4 3) (sat 16 (s.vs.vCap / 10)) s

/-- What BOOST_SET asks of its descriptor. -/
def boostSetForm (s : State) (d : Desc) : OpForm :=
  { idem := true, used := pm 24 8, range := d.target == boostTarget && d.u 24 8 < 2, state := !safeHeld s .boost && !supplyHolds s .base }

/-- BOOST_SET: R182, R194. -/
def execBoostSet (o : Origin) (s : State) : Out :=
  runOut o 0x1204
    boostSetForm
    (fun d uid s =>
      let s := if d.u 24 8 == 0 then boostTo .off s else if s.vs.boost == .off then boostTo .precharge s else s
      finish uid 0 (boostCode s.vs.boost) s) s

/-- What LEDGER_QUERY asks of its descriptor. -/
def ledgerQueryForm (_ : State) (d : Desc) : OpForm :=
  { idem := true, range := d.target == boostTarget }

/-- LEDGER_QUERY: R194. -/
def execLedgerQuery (o : Origin) (s : State) : Out :=
  runOut o 0x1205 ledgerQueryForm
    (fun _ uid s => finish uid 0 (ofSigned 32 s.vs.resid + putF s.vs.cMeas 32 16 + putF (s.vs.vCap / 10) 48 16) s) s

/-- PRECHARGE_DONE: R182; V_CAP and VBAT_B in mV. -/
def execPrechargeDone (vCap vbat : Nat) (s : State) : Out :=
  .next (whenClocked (fun s =>
    if s.vs.boost != .precharge then s
    else
      let s := noteCap vCap s
      if vbat ≤ vCap + 1700 then boostTo .measure s
      else if s.vs.boostDt + ms 50 ≤ s.dt then raise 162 boostTarget (boostTo .fault s)
      else s) s)

/-- MEASURE_DONE: R182, R183; the rise time of 10 V in µs, V_CAP in mV. -/
def execMeasureDone (rise vCap : Nat) (s : State) : Out :=
  .next (whenClocked (fun s =>
    if s.vs.boost != .measure then s
    else
      let c := 5 * rise
      let nom := 100 * boostU s 2 1
      let s := modVs (fun x => { x with cMeas := sat 16 c }) (noteCap vCap s)
      if 3 * nom ≤ 4 * c && 4 * c ≤ 5 * nom then boostTo .charging s else raise 162 boostTarget (boostTo .fault s)) s)

/-- BOOST_READY: R182. -/
def execBoostReady (vCap : Nat) (s : State) : Out :=
  .next (whenClocked (fun s => if s.vs.boost == .charging && vReady s ≤ vCap then boostTo .ready (noteCap vCap s) else s) s)

/-- VBAT_B lies outside the converter's range (R182), in mV. -/
def boostOut (s : State) (vbat : Nat) : Bool := vbat < 8000 || vBoost s < vbat + 6000

/-- BOOST_SUSPEND: R182; VBAT_B has lain there for 1 ms. -/
def execBoostSuspend (x : HeldV) (s : State) : Out :=
  .next (whenClocked (fun s =>
    if !boostOut s x.v || s.dt < x.since + ms 1 then s
    else if s.vs.boost == .ready then raise 160 boostTarget (boostTo .suspended (noteVbat x.v s))
    else if s.vs.boost == .charging then boostTo .suspended (noteVbat x.v s)
    else s) s)

/-- BOOST_RESUME: R182; VBAT_B has lain within the range for 10 ms. -/
def execBoostResume (x : HeldV) (s : State) : Out :=
  .next (whenClocked (onlyIf (s.vs.boost == .suspended && !boostOut s x.v && s.vs.boostDt ≤ x.since && x.since + ms 10 ≤ s.dt) fun s => boostTo .charging (noteVbat x.v s)) s)

/-- BOOST_CONVERTER_FAULT: R182; the switch limit was reached three times in 100 ms. -/
def execBoostConverterFault (s : State) : Out :=
  .next (whenClocked (onlyIf (s.vs.boost == .ready || s.vs.boost == .charging) fun s => raise 172 boostTarget (boostTo .fault s)) s)

/-- BOOST_OVERVOLTAGE: R184; V_CAP in mV. -/
def execBoostOvervoltage (vCap : Nat) (s : State) : Out :=
  .next (whenClocked (fun s =>
    if vCap ≤ vBoost s + 4000 then s
    else
      let s := modVs (fun x => { x with ovSlow := true }) (noteCap vCap s)
      if vBoost s + 6000 ≤ vCap then raise 161 boostTarget s else s) s)

/-- OV_SLOW_END: R184. -/
def execOvSlowEnd (vCap : Nat) (s : State) : Out :=
  .next (whenClocked (onlyIf (vCap < vBoost s + 2000) fun s => modVs (fun x => { x with ovSlow := false }) (noteCap vCap s)) s)

/-! ### The ledger -/

/-- LEDGER_WINDOW: R185, R186; what came in and was lost over the window in 0.1 µC, V_CAP in mV. -/
def execLedgerWindow (qIn qLoss vCap : Nat) (s : State) : Out :=
  .next (whenClocked (fun s =>
    if s.dt < s.vs.winDt + sec 1 then s
    else
      let s := ledgerAdd 3 qLoss (ledgerAdd 0 qIn (noteCap vCap s))
      let x := s.vs
      let draw := x.ledger[1] - x.winDraw
      let ret := x.ledger[2] - x.winRet
      let stored : Int := (x.cMeas : Int) * ((vCap : Int) - (x.winV : Int)) / 10000
      let resid : Int := (qIn : Int) + (ret : Int) - (draw : Int) - (qLoss : Int) - stored
      let tol := (qIn + ret + draw) / 50 + 50
      let bad := tol < resid.natAbs
      let run := if x.winOut then x.failRun else if bad then sat 8 (x.failRun + 1) else 0
      let s := modVs (fun x => { x with winDt := s.dt, winDraw := x.ledger[1], winRet := x.ledger[2], winV := vCap, winOut := false
                                        resid := if x.winOut then x.resid else resid, tol := sat 16 tol, failRun := run }) s
      if !x.winOut && bad && 3 ≤ run then raise 163 boostTarget s else s) s)

/-- A read of a ledger _LO register latches its _HI register (R196). -/
def latchLedger (n : Fin 4) (s : State) : State := modVs (fun x => { x with latched := x.latched.set n (x.ledger[n] / 2 ^ 32) }) s

/-- LEDGER_LO_READ: R196. -/
def execLedgerLoRead (n : Fin 4) (s : State) : Out := .next (whenOn (latchLedger n) s)

/-! ### Protection and diagnosis -/

/-- A valve is released by a trip (R187): HELD, its firing names the source; the decay is fast after the low-side's own limit,
else by OFF_SLOW (R174). -/
def tripValve (src : Nat) (fast : Bool) (v : Nat) (s : State) : State :=
  let s := setVlv v (fun x => { x with held := some s.dt }) s
  match (vlv s v).state with
  | 0 => s
  | 1 => dropWaiting v 0x12 src s
  | 6 => s
  | _ => releaseEarly v (!fast && relSlow s v) 0x12 src s

/-- VALVE_SHORT_CIRCUIT: R187, R189; the current lies at or above the least limit of R169, the temperature at the least
T_SD. -/
def execValveShortCircuit (t : VsTrip) (s : State) : Out :=
  .next (whenClocked (fun s => match t with
    | .lowSide v i =>
      let x := vlv s v
      if 2 ≤ x.state && x.state ≤ 5 && 350 ≤ i then
        let on := (vlvActs s v).diagOn
        let s := raise 169 (vlvTarget v) (setVlv v (fun x => { x with i := sat 16 i, peak := max x.peak (sat 16 i) }) s)
        tripValve 169 true v (if on then vlvDiag v 4 true s else s)
      else s
    | .highSide g i => if commonOf s g == 0 || i < 1400 then s else (vgValves g).foldl (fun s v => tripValve 168 false v s) (raise 168 (vgTarget g) (noteVgCur g i s))
    | .overTemp g k => if k < 2640 then s else (vgValves g).foldl (fun s v => tripValve 170 false v s) (raise 170 (vgTarget g) s)) s)

/-- VALVE_HELD_CLEAR: R187; the hotter switch's reading in 1/16 °C. -/
def execValveHeldClear (v : Fin 24) (t : Int) (s : State) : Out :=
  .next (whenClocked (fun s => match (vlv s v).held with
    | some t0 => if t ≤ 2400 && t0 + ms 100 ≤ s.dt then setVlv v (fun x => { x with held := none }) s else s
    | none => s) s)

/-- Result of the steps of R188 for one valve. -/
def vlvOffCode (common : Nat) (m : Nat × Nat × Nat) : Nat :=
  if 4000 < m.1 then 4 else if common < 300 then 3 else if 2 * m.2.1 < common then 2 else if m.2.2 < 300 then 3 else 1

/-- R188: the valves `l`, on which the diagnosis depends, are in OFF, and the common is in OFF, for 5 ms. -/
def vgDiagRuns (s : State) (g : Nat) (l : List Nat) : Bool :=
  let past := fun (t : Option Nat) => match t with | some t => t + ms 5 ≤ s.dt | none => true
  diagDone s g && commonOf s g == 0 && !crankRange s.pw.vbat && (vgValves g).all (fun v => past (vlv s v).comDt) && l.all fun v => (vlv s v).state == 0 && past (vlv s v).offDt
/-- The valves of a group that off-state diagnosis watches. -/
def vgDiagSet (s : State) (g : Nat) : List Nat := (vgValves g).filter fun v => vlvEn s v && bitN (vlvU s v 0 1) 3

/-- A group's off-state diagnosis (R188) with the results for the valves in a list; no slot is granted for its 400 µs. -/
def vgDiagnose (g : Nat) (m : VgDiag) (vs : List Nat) (s : State) : State :=
  vs.foldl (fun s v => vlvDiag v (vlvOffCode m.common ((at? m.lands (v % 6)).getD (0, 0, 0))) false s) (setVg g (fun x => { x with diagRun := some s.dt }) s)

/-- VALVE_OFF_STATE_DIAGNOSIS: R188. -/
def execValveOffStateDiagnosis (g : Fin 4) (m : VgDiag) (s : State) : Out :=
  .next (whenOn (fun s =>
    let l := vgDiagSet s g
    if s.stg.inForce && !l.isEmpty && vgDiagRuns s g l && (vg s g).diagDt + ms 100 ≤ s.dt then
      vgDiagnose g m l (setVg g (fun x => { x with diagDt := s.dt }) s)
    else s) s)

/-- What VLV_DIAG_RUN asks of its descriptor. -/
def vlvDiagRunForm (s : State) (d : Desc) : OpForm :=
  { idem := true, range := vlvRange d, state := vlvTakes s d && vgDiagRuns s (d.ch / 6) (d.ch :: vgDiagSet s (d.ch / 6)) }

/-- VLV_DIAG_RUN: R188, R194. -/
def execVlvDiagRun (o : Origin) (m : VgDiag) (s : State) : Out :=
  runOut o 0x1206 vlvDiagRunForm
    (fun d uid s =>
      let s := vgDiagnose (d.ch / 6) m ((vgValves (d.ch / 6)).filter fun v => vlvEn s v && (v == d.ch || (vlv s v).state == 0)) s
      finish uid 0 (vlv s d.ch).offRes s) s

/-- VALVE_ON_STATE_DIAGNOSIS: R189; currents in mA, held since DT `since`. -/
def execValveOnStateDiagnosis (f : VsFinding) (s : State) : Out :=
  .next (whenClocked (onlyIf (!crankRange s.pw.vbat) fun s => match f with
    | .openLoad v i since =>
      if (vlv s v).state == 2 && (vlvActs s v).diagOn && i < (vlvActs s v).iPeak && (vlv s v).since ≤ since && since + us 200 ≤ s.dt then
        releaseEarly v (relSlow s v) 0x12 165 (vlvDiag v 2 true s)
      else s
    | .shortGround g high lows since =>
      if commonOf s g == 0 || high ≤ lows + 300 || s.dt < since + ms 1 then s else ((vgValves g).filter fun v => vlvEn s v && bitN (vlvU s v 0 1) 4).foldl (fun s v => vlvDiag v 3 true s) s) s)

/-! ### Safe state -/

/-- A firing that has not reached its requested start ends, with a safe state or with its valve (R75, R191). -/
def dropPending (v status src : Nat) (s : State) : State :=
  let mine := s.vs.pend.filter (·.valve == v)
  mine.foldl (fun s f => fireEnds f status src s) (modVs (fun x => { x with pend := x.pend.filter (·.valve != v) }) s)

/-- A valve goes to OFF as by SAFE = OFF (R191, R503). -/
def vlvSafeOff (src v : Nat) (s : State) : State :=
  let s := setVlv v (fun x => { x with perNext := none }) (dropPending v 0x12 src s)
  match (vlv s v).state with
  | 0 => s
  | 1 => dropWaiting v 0x12 src s
  | 6 => s
  | _ => releaseEarly v false 0x12 src s

/-- A safe state is applied to a valve (R191). -/
def vlvSafe (src v : Nat) (s : State) : State :=
  let again := (vlv s v).safeAct
  let s := setVlv v (fun x => { x with safeAct := true }) s
  match (if safeKnown s .base then safeKind s (.vlv v) else 0) with
  | 1 =>
    let s := setVlv v (fun x => { x with perNext := none }) (dropPending v 0x12 src s)
    if (vlv s v).state == 0 && !again then
      let (n, s) := takeOrder s
      let c := vlvCfg s v
      requestFire { valve := v, uid := none, start := s.dt, order := n, holdMs := 0, cfg := { c with useBoost := c.useBoost && s.vs.boost == .ready } } s
    else s
  | 2 => s
  | _ => vlvSafeOff src v s

/-- A valve leaves a safe state: it is released (R422). -/
def vlvUnsafe (v : Nat) (s : State) : State :=
  if safeHeld s (.vlv v) then s else vlvSafeOff 0xFFFF v (setVlv v (fun x => { x with safeAct := false }) s)

end Sys2Proof.Machine
end

