-- ==== Sys2Proof/Machine/Wire.lean ====
section
/-! DEFINITION. The wire model and its persistence, protections and diagnostics of the load channels (file 05).
Readings of the spec: log entry 13, DEDUCED. -/

namespace Sys2Proof.Machine

/-! ### The model -/

/-- Coefficients of R118: R20 in 10 µΩ/m, RTH1 and RTH2 in 0.1 K·m/W, TAU1 and TAU2 in s. -/
def r20c (w : Wire) : Nat := [5200, 3710, 2470, 1850, 1270, 760, 471, 314].getD w.size 314
def rth1 (w : Wire) : Nat := [110, 95, 80, 70, 58, 46, 38, 32].getD w.size 32
def rth2 (w : Wire) : Nat := [70, 60, 52, 46, 40, 34, 29, 25].getD w.size 25
def tau1 (w : Wire) : Nat := [9, 11, 14, 17, 22, 30, 40, 52].getD w.size 52
def tau2 (w : Wire) : Nat := [120, 140, 170, 200, 240, 300, 380, 460].getD w.size 460

/-- 1 − exp(−x) for a small x, both scaled by 2^48: the series to its third term (log entry 21, DESIGN CHOICE). -/
def oneMinusExp (x : Nat) : Nat := x - x * x / 2 ^ 49 + x * x * x / (6 * 2 ^ 96)
/-- K1 and K2 of R119, scaled by 2^48. -/
def k1 (w : Wire) : Nat := oneMinusExp (2 ^ 48 / (1000 * tau1 w))
def k2 (w : Wire) : Nat := oneMinusExp (2 ^ 48 * 32 / (1000 * tau2 w * w.bf))

/-- exp(−num/den) scaled by 2^40: halvings by ln 2, then the series (log entry 21, DESIGN CHOICE). -/
def expNeg (num den : Nat) : Nat :=
  let ln2 : Nat := 762123384786
  let x : Nat := num * 2 ^ 40 / den
  let n : Nat := x / ln2
  let r : Nat := x % ln2
  let go := (List.range 14).foldl (fun (acc : Int × Int) k => (acc.1 + acc.2, - acc.2 * (r : Int) / (2 ^ 40 * (k + 1) : Nat))) ((0 : Int), ((2 ^ 40 : Nat) : Int))
  if 64 < n then 0 else go.1.toNat / 2 ^ n

/-- P of R119 in 1e-11 W/m, from the mean square current in mA² and T_C in 2^-32 °C. -/
def wireP (w : Wire) (q : Nat) (tC : Int) : Nat :=
  (((q * r20c w : Nat) : Int) * (((100000 * kel : Nat) : Int) + 393 * (tC - (20 * kel : Nat))) / ((100000 * kel : Nat) : Int)).toNat
/-- The rise that each pole chases: P × RTH1 and P × RTH2 × BF, in 2^-32 K. -/
def chase1 (w : Wire) (p : Nat) : Nat := p * rth1 w * kel / 1000000000000
def chase2 (w : Wire) (p : Nat) : Nat := p * rth2 w * w.bf * kel / (32 * 1000000000000)
/-- One pole's update (R119); never negative. -/
def poleStep (k th goal : Nat) : Nat := ((th : Int) + (k : Int) * ((goal : Int) - (th : Int)) / ((2 ^ 48 : Nat) : Int)).toNat

/-- T_AMB (R120) in 2^-32 °C. A group that no WIRE_AMBIENT has set since the start takes AMB_MAX at once, also in the first
10 s (log entry 13, DEDUCED). -/
def ambientOf (s : State) (n : Nat) (w : Wire) : Int :=
  let t : Int :=
    if w.ambSrc == 0 then (bank s (bankOf n)).dieT * (2 ^ 28 : Nat)
    else match at? s.ld.amb (w.ambSrc - 1) with
      | some a => (match a.value with | some v => if a.stale then w.ambMax * (kel : Int) else v * (2 ^ 28 : Nat) | none => w.ambMax * (kel : Int))
      | none => w.ambMax * (kel : Int)
  max (-40 * (kel : Int)) (min (150 * (kel : Int)) t)

/-- Sum of two sample series. -/
def sumSeries : List Int → List Int → List Int
  | [], b => b
  | a, [] => a
  | a :: as, b :: bs => (a + b) :: sumSeries as bs

/-- A reading raised by its tolerance (R119): mA, against a nominal in mA. -/
def raised (nom : Nat) (r : Int) : Nat := let a := r.natAbs; if nom < 10 * a then a * 103 / 100 else a + 3 * nom / 1000
/-- Mean of a list. -/
def meanOf (l : List Nat) : Nat := if l.isEmpty then 0 else l.foldl (· + ·) 0 / l.length

/-- Mean square current that a channel's model takes (R119): a leader's sums its members, a member's is 0 (R122). -/
def modelQ (s : State) (m : Vector ChSample 64) (n : Nat) : Nat :=
  if isMember s n then 0
  else
    let ms := membersOf s n
    let series := ms.foldl (fun l k => sumSeries l ((at? m k).elim [] (·.readings))) []
    let nom := (ms.map classNom).foldl (· + ·) 0
    meanOf ((if series.isEmpty then [0] else series).map fun r => let i := raised nom r; i * i)

/-- Last row of R125: T_C equals T_TRIP - RESTART_K, shared in the ratio RTH1 : RTH2 × BF. -/
def hotHeat (amb : Int) (c : Lch) : Lch :=
  let w := c.wire
  let rise : Int := ((tripC w : Int) - w.restartK) * (kel : Int) - amb
  let den := 32 * rth1 w + rth2 w * w.bf
  { c with theta1 := (rise * (32 * rth1 w : Nat) / (den : Nat)).toNat, theta2 := (rise * (rth2 w * w.bf : Nat) / (den : Nat)).toNat
           tAmb := amb, tC := max amb (amb + rise) }

/-- The update of R119 for one channel. -/
def wireStep (amb : Int) (q : Nat) (c : Lch) : Lch :=
  let w := c.wire
  let c := if c.hot then { hotHeat amb c with hot := false } else c
  let p := wireP w q c.tC
  let t1 := poleStep (k1 w) c.theta1 (chase1 w p)
  let t2 := poleStep (k2 w) c.theta2 (chase2 w p)
  { c with theta1 := t1, theta2 := t2, tAmb := amb, tC := amb + (t1 + t2 : Nat), q := q, pMax := max c.pMax p }

/-- Levels of R121 for every channel with a declared wire, then trips and the restart test of R133 for an enabled one. -/
def wireJudge (n : Nat) (s : State) : State :=
  let c := lch s n
  let lvl : Int := ((tripC c.wire : Int) - c.wire.warnK) * (kel : Int)
  let s :=
    if c.wire.known && lvl ≤ c.tC && !c.warn then
      raise (lsSource n 8) (lchTarget n) (lchEvent n 0x1087 1 (t16F c.tC) (setLch n (fun c => { c with warn := true }) s))
    else if c.warn && c.tC ≤ lvl - (2 * kel : Nat) then lchEvent n 0x1087 0 (t16F c.tC) (setLch n (fun c => { c with warn := false }) s)
    else s
  if !lchEn s n || isMember s n then s
  else
    let s := if c.run != 0 && (tripC c.wire : Int) * (kel : Int) ≤ c.tC then protOff n 3 c.i s else s
    tryRestart n s

/-- What one channel's sensors bring: switch temperature, on-state current in ON mode (R88), loss (R104). A reverse on-state
current counts by its size in LCH_CUR.I and as 0 in PEAK (log entry 13, DEDUCED). -/
def noteSample (n : Nat) (x : ChSample) (s : State) : State :=
  let c := lch s n
  let mean := meanOf (x.readings.map (·.natAbs))
  let sq := meanOf (x.readings.map fun r => r.natAbs * r.natAbs)
  let loss := if c.run == 0 then 0 else sq * ohmNow s n / 1000
  let s := setLch n (fun c => { c with tSw := x.tSw, tSwMax := max c.tSwMax x.tSw, lossSum := c.lossSum + loss, lossN := c.lossN + 1
                                       dieHot := match c.dieHot with | some b => if (bank s b).dieT ≤ 2240 then none else some b | none => none }) s
  let s := if c.run == 1 && c.dEff == 0xFFF then noteCurrent n mean s else s
  let s := resumeDwell n (forceLeaves n s)
  let peak := sat 16 ((x.readings.map (·.toNat)).foldl max 0 / 10)
  setLch n (fun c => if c.run == 0 then c else { c with peak := max c.peak peak }) s

/-- What a bank's sensors bring. -/
def noteBank (b : Nat) (x : BankSample) (s : State) : State :=
  let pwm := (List.range 8).any fun j => (lch s (8 * b + j)).run == 2
  setBank b (fun k => { k with dieT := x.dieT, vNow := x.v, v := if pwm || k.frozen then k.v else sat 16 x.v, vMin := min k.vMin (sat 16 x.v) }) s

/-- The mirror of R123, where the die's link is up (R127). -/
def mirrorAll (s : State) : State :=
  let f := fun (n : Fin 64) (m : Option Mirror) =>
    if dieDown s (lchDie n) || s.ld.logicReset.contains (lchDie n) then m
    else let c := lch s n; some { theta1 := c.theta1, theta2 := c.theta2, rt := s.rt }
  { s with ld := { s.ld with mirror := mapFin s.ld.mirror f } }

/-- WIRE_MODEL_UPDATE: R119 to R123, R133, R147, with what every channel's, bank's and half-bridge's sensors read over the last 1 ms. -/
def execWireModelUpdate (m : Vector ChSample 64) (b : Vector BankSample 8) (h : Vector HbSample 16) (s : State) : Out :=
  .next (whenClocked (fun s =>
    if s.dt < s.ld.updDt + ms 1 then s
    else
      let live := fun n : Nat => !s.ld.logicReset.contains (lchDie n)
      let s := (idxs 8).foldl (fun s (i : Fin 8) => noteBank i b[i] s) s
      let s := (idxs 64).foldl (fun s (i : Fin 64) => if live i then noteSample i m[i] s else s) s
      let s := (idxs 16).foldl (fun s (i : Fin 16) => noteHb i h[i] s) s
      let s0 := s
      let s := { s with ld := { s.ld with updDt := s.dt, chs := mapFin s.ld.chs fun n c => if live n then wireStep (ambientOf s0 n c.wire) (modelQ s0 m n) c else c } }
      let s := (List.range 64).foldl (fun s n => if live n then wireJudge n s else s) s
      let s := (gangs s).foldl (fun s g =>
        setLch g.1 (fun c => if imbalanced s g.1 then { c with imbSince := c.imbSince <|> some s.dt } else { c with imbSince := none, imbRaised := false }) s) s
      mirrorAll ((gangs s).foldl (fun s g => balanceGang g.1 s) s)) s)

/-- RESTART_COUNT_RESET: R133. -/
def execRestartCountReset (n : Fin 64) (s : State) : Out :=
  .next (whenClocked (fun s =>
    if (lch s n).lastProt + sec (wireU s n 8 2) ≤ s.dt && !isMember s n then setLch n (fun c => { c with count := 0 }) (tryRestart n s) else s) s)

/-- A channel's wire entry takes an ambient group (R120). -/
def takesAmb (s : State) (g : Nat) : Bool := (List.range 64).any fun n => (lch s n).wire.ambSrc == g + 1

/-- AMBIENT_STALE: R120; a group not set since the start counts from the start. -/
def execAmbientStale (g : Fin 4) (s : State) : Out :=
  .next (whenOn (fun s =>
    let a := s.ld.amb[g]
    if !a.stale && takesAmb s g && max a.setDt s.pw.releaseDt + sec 10 ≤ s.dt then
      raise 10 0xFFFF (modLd (fun l => { l with amb := upd l.amb g fun a => { a with stale := true } }) s)
    else s) s)

/-! ### Persistence -/

/-- The projected rises of R123. -/
def projected (c : Lch) : Nat × Nat :=
  let w := c.wire
  (c.theta1 + 256 * k1 w * (chase1 w c.pMax - c.theta1) / 2 ^ 48, c.theta2 + 256 * k2 w * (chase2 w c.pMax - c.theta2) / 2 ^ 48)

/-- Sequence number of the newest snapshot, and its copy. -/
def newestCopy (l : LoadSt) : Option (Fin 2) :=
  match l.snaps[0], l.snaps[1] with
  | none, none => none
  | some _, none => some 0
  | none, some _ => some 1
  | some a, some b => if b.seq ≤ a.seq then some 0 else some 1
def newestSnap (l : LoadSt) : Option Snap := match newestCopy l with | some i => l.snaps[i] | none => none

/-- Write a snapshot into the copy that is not the newest (R123, R126). -/
def writeSnap (exact : Bool) (s : State) : State :=
  let at' : Fin 2 := match newestCopy s.ld with | some i => i + 1 | none => 0
  let seq := (newestSnap s.ld).elim 1 (·.seq + 1)
  let sn : Snap := { seq := seq, exact := exact, dt := s.dt, rt := s.rt, rises := s.ld.chs.map fun c => if exact then (c.theta1, c.theta2) else projected c }
  modLd (fun l => { l with snaps := l.snaps.set at' (some sn), chs := if exact then l.chs else l.chs.map fun c => { c with pMax := 0 }
                           snapDt := if exact then l.snapDt else s.dt }) s

/-- HEAT_SNAPSHOT: R123. -/
def execHeatSnapshot (s : State) : Out := .next (whenOn (onlyIf (s.ld.snapDt + ms 256 ≤ s.dt) (writeSnap false)) s)

/-- Elapsed time of R124 in 0.1 µs of seconds: RT ticks, scaled to the oscillator's worst case, as a fraction of a second. -/
def decayBy (s : State) (tau den : Nat) (rt0 th : Nat) : Nat :=
  let f := if s.pw.xtal32 then 9998 else 9600
  th * expNeg ((s.rt - rt0) * f * den) (10000 * 16384 * tau) / 2 ^ 40

/-- The mirror with the decay of R124. -/
def decayed (s : State) (w : Wire) (m : Mirror) : Nat × Nat :=
  (decayBy s (tau1 w) 1 m.rt m.theta1, decayBy s (tau2 w * w.bf) 32 m.rt m.theta2)

/-- Every channel's poles decayed by the RT since its mirror was written (R124). -/
def decayAll (s : State) : State :=
  modLd (fun l => { l with chs := mapFin l.chs fun n c =>
    match s.ld.mirror[n] with
    | some m => let (a, b) := decayed s c.wire { m with theta1 := c.theta1, theta2 := c.theta2 }; { c with theta1 := a, theta2 := b }
    | none => c }) s

/-- Row of R125 that a channel's heat state falls under. -/
def heatRowOf (s : State) (n : Fin 64) : Nat :=
  match s.ld.mirror[n], newestSnap s.ld with
  | some m, some k => if m.rt < k.rt then 2 else 1
  | some _, none => 1
  | none, some _ => 3
  | none, none => 4
/-- The row that a start uses: the worst of the channels'. -/
def heatRow (s : State) : Nat := ((idxs 64).map (heatRowOf s)).foldl max 0

/-- One channel's heat state at a start (R125). -/
def restoreCh (s : State) (n : Fin 64) (c : Lch) : Lch :=
  let sn := (newestSnap s.ld).elim (0, 0) fun k => k.rises[n]
  match heatRowOf s n, s.ld.mirror[n] with
  | 1, some m => let (a, b) := decayed s c.wire m; { c with theta1 := a, theta2 := b }
  | 2, some m => let (a, b) := decayed s c.wire m; { c with theta1 := max a sn.1, theta2 := max b sn.2 }
  | 3, _ => { c with theta1 := sn.1, theta2 := sn.2 }
  | _, _ => { hotHeat (ambientOf s n c.wire) c with hot := true }

/-- Every channel's heat state at a start; HS_HEAT_RESTORED and its record in the last two rows (R125). -/
def heatRestore (s : State) : State :=
  let row := heatRow s
  let bad := (idxs 64).filter fun n => 3 ≤ heatRowOf s n
  let s := modLd (fun l => { l with chs := mapFin l.chs (restoreCh s), heatRow := row, updDt := s.dt, snapDt := s.dt, budDt := s.dt }) s
  if bad.isEmpty then s
  else raise 9 0xFFFF (hwPut 0x0022 (leBytes 1 row ++ leBytes 8 ((bad.map fun n => 2 ^ n.val).foldl (· + ·) 0)) [] s)

/-- A load die's wire models after its logic was reset (R503): from the mirror, decayed; none stands beyond a failed link
(R127). -/
def reloadMirror (d : Die) (s : State) : State :=
  let f := fun (n : Fin 64) (c : Lch) =>
    if lchDie n == d then
      (match if dieDown s d then none else s.ld.mirror[n] with
      | some m => let (a, b) := decayed s c.wire m; { c with theta1 := a, theta2 := b }
      | none => { hotHeat (ambientOf s n c.wire) c with hot := true })
    else c
  modLd (fun l => { l with chs := mapFin l.chs f }) s

/-! ### Short circuit, envelope, over-temperature -/

/-- SHORT_CIRCUIT_LIMIT: R128, R101, R130; `i` the current in mA, at or above the class's least I_LIM. -/
def execShortCircuitLimit (n : Fin 64) (i : Nat) (s : State) : Out :=
  .next (whenClocked (fun s =>
    if (lch s n).run == 0 || i < limMin n then s
    else
      let s := freezeBank (bankOf n) (forceLeaves n (setLch n (fun c => { c with scLim := true, peak := max c.peak (sat 16 (i / 10)) }) s))
      setLch n (fun c => { c with scLim := false }) (protOff n 1 (i / 10) s)) s)

/-- ENVELOPE_TRIP: R129; `i` the current in mA that stood for 50 µs, a gang's as a whole at its leader (R93). -/
def execEnvelopeTrip (n : Fin 64) (i : Nat) (s : State) : Out :=
  .next (whenClocked (fun s =>
    let c := lch s n
    if !isMember s n && c.run != 0 && c.inrush.isSome && c.env != 0 && c.env < i then protOff n 4 (i / 10) s else s) s)

/-- SWITCH_OVERTEMP: R131; `t` the sensor's reading in 1/16 °C, at or above the least T_SD. -/
def execSwitchOvertemp (n : Fin 64) (t : Int) (s : State) : Out :=
  .next (whenClocked (fun s =>
    if (lch s n).run == 0 || t < 2640 then s
    else protOff n 2 (lch s n).i (setLch n (fun c => { c with tSw := t, tSwMax := max c.tSwMax t }) s)) s)

/-- The part of DIE_OVERTEMP that concerns a slice's channels (R505). -/
def dieHotChs (b : Nat) (s : State) : State :=
  (List.range 16).foldl (fun s j =>
    let n := 16 * (b / 2) + j
    if (lch s n).run == 0 || isMember s n then s else setLch n (fun c => { c with dieHot := some b }) (protOff n 2 (lch s n).i s)) s

/-! ### Diagnostics -/

/-- Source of a diagnosis result (R137, R138). -/
def diagSource (r : Nat) : Option Nat := match r with | 2 => some 4 | 3 => some 5 | 4 => some 6 | _ => none

/-- A diagnosis result (R137): the event where it differs from the last of its kind; a fault raises its source each time. -/
def diagResult (n res r : Nat) (onState : Bool) (s : State) : State :=
  let c := lch s n
  let s :=
    if (if onState then c.onRes else c.offRes) == res then s
    else
      lchEvent n 0x1086 (res + 8 * b2n onState) (if onState then 0 else sat 16 r)
        (setLch n (fun c => if onState then { c with onRes := res } else { c with offRes := res }) s)
  match diagSource res with
  | some k => raise (lsSource n k) (lchTarget n) s
  | none => s

/-- Off-state diagnosis (R136): `v1` the output voltage of step 1 in mV, `v2` that of step 2 in nV. Answers the result
and R; R is free where step 1 has ended the diagnosis, since no resistance is then measured. -/
def offDiag (n v1 v2 : Nat) (s : State) : Nat × Nat × State :=
  let s := setLch n (fun c => { c with offDiagDt := s.dt }) s
  if 4000 < v1 then
    let (r, s) := takeFree 16 s
    (4, r, diagResult n 4 r false s)
  else
    let r := sat 16 (v2 / 5000)
    let lim := wireU s n 12 2
    let res := if 3500000000 ≤ v2 then 2 else if lim != 0 && v2 / 500 < 10 * lim then 3 else 1
    (res, r, diagResult n res r false (setLch n (fun c => { c with rOff := r }) s))

/-- R136: the channel is one that an off-state diagnosis may run on. -/
def offDiagRuns (s : State) (n : Nat) : Bool :=
  let c := lch s n
  c.run == 0 && c.mode == 0 && !c.held && !diagSuspended s (bankOf n) && (match c.offDt with | some t => t + ms 5 ≤ s.dt | none => true)

/-- OFF_STATE_DIAGNOSIS: R136, R137. -/
def execOffStateDiagnosis (n : Fin 64) (v1 v2 : Nat) (s : State) : Out :=
  .next (whenClocked (fun s =>
    if lchEn s n && !isMember s n && bitN (wireU s n 0 1) 4 && offDiagRuns s n && (lch s n).offDiagDt + ms (wireU s n 14 2) ≤ s.dt && entriesAct s then
      (offDiag n v1 v2 s).2.2
    else s) s)

/-- ON_STATE_DIAGNOSIS: R135, R137; `v` the lowest output voltage of the off window in mV. -/
def execOnStateDiagnosis (n : Fin 64) (v : Nat) (s : State) : Out :=
  .next (whenClocked (fun s =>
    let c := lch s n
    match c.olSince with
    | some t =>
      if t + ms 10 ≤ s.dt && onDiagActive s n c then diagResult n (if 4000 < v then 4 else 2) 0 true (setLch n (fun c => { c with olSince := none }) s) else s
    | none => s) s)

/-- REVERSE_CURRENT: R135; `i` the reverse current in mA that stood for 100 µs. -/
def execReverseCurrent (n : Fin 64) (i : Nat) (s : State) : Out :=
  .next (whenClocked (fun s => if onDiagActive s n (lch s n) && 500 ≤ i then diagResult n 4 0 true s else s) s)

/-! ### Descriptors -/

/-- What PROT_CLEAR asks of its descriptor. -/
def protClearForm (s : State) (d : Desc) : OpForm :=
  { idem := true, range := lchRange d, state := lchEn s d.lch && !isMember s d.lch }

/-- PROT_CLEAR: R134, R139. -/
def execProtClear (o : Origin) (s : State) : Out :=
  runOut o 0x1020 protClearForm
    (fun d uid s =>
      let n := d.lch
      let before := fld (protReg s n) 0 16
      let s := endTimed n 0x10 none s
      let s := setLch n (fun c => { c with count := 0, latched := false, cleared := c.held, mode := 0 }) s
      finish uid 0 before (syncGang n (applyLch n s))) s

/-- Updates of 1 ms until T_TRIP with the mean square current held (R139). -/
def tripAfter (w : Wire) (q : Nat) (amb : Int) : Nat → Nat → Nat → Nat → Option Nat
  | 0, _, _, _ => none
  | fuel + 1, t1, t2, k =>
    let tC : Int := amb + (t1 + t2 : Nat)
    if (tripC w : Int) * (kel : Int) ≤ tC then some k
    else let p := wireP w q tC; tripAfter w q amb fuel (poleStep (k1 w) t1 (chase1 w p)) (poleStep (k2 w) t2 (chase2 w p)) (k + 1)

/-- Time to trip at the present current, 100 ms steps (R139). -/
def tripTime (c : Lch) : Nat := match tripAfter c.wire c.q c.tAmb 6553500 c.theta1 c.theta2 0 with | some k => k / 100 | none => 0xFFFF

/-- What WIRE_QUERY asks of its descriptor. -/
def wireQueryForm (_ : State) (d : Desc) : OpForm :=
  { idem := true, range := lchRange d }

/-- WIRE_QUERY: R139. -/
def execWireQuery (o : Origin) (s : State) : Out :=
  runOut o 0x1021 wireQueryForm
    (fun d uid s =>
      let c := lch s d.lch
      finish uid 0 (t16F c.tC + putF (sat 16 (c.theta1 / 2 ^ 28)) 16 16 + putF (sat 16 (c.theta2 / 2 ^ 28)) 32 16 + putF (tripTime c) 48 16) s) s

/-- What WIRE_AMBIENT asks of its descriptor. -/
def wireAmbientForm (_ : State) (d : Desc) : OpForm :=
  { idem := true, used := pm 24 8 + pm 26 16
    range := d.device && d.u 24 8 < 4 && -640 ≤ toSigned 16 (d.u 26 16) && toSigned 16 (d.u 26 16) ≤ 2400 }

/-- WIRE_AMBIENT: R120, R139. -/
def execWireAmbient (o : Origin) (s : State) : Out :=
  runOut o 0x1022
    wireAmbientForm
    (fun d uid s =>
      let a : Amb := { value := some (toSigned 16 (d.u 26 16)), setDt := s.dt, stale := false }
      finish uid 0 (d.u 26 16) (modLd (fun l => { l with amb := updN l.amb (d.u 24 8) fun _ => a }) s)) s

/-- What DIAG_RUN asks of its descriptor. -/
def diagRunForm (s : State) (d : Desc) : OpForm :=
  { idem := true, range := lchRange d, state := lchTakes s d.lch && offDiagRuns s d.lch }

/-- DIAG_RUN: R136, R139, with the voltages that its steps measure (mV, nV). -/
def execDiagRun (o : Origin) (v1 v2 : Nat) (s : State) : Out :=
  runOut o 0x1023 diagRunForm
    (fun d uid s =>
      let (res, r, s) := offDiag d.lch v1 v2 s
      finish uid 0 (res + putF r 16 16 + putF (sat 16 v1) 32 16) s) s

end Sys2Proof.Machine
end

