-- ==== Sys2Proof/Machine/Hooks.lean ====
section
/-! DEFINITION. What the collector, the power controller and the start-up do to every family: safe states entered and
left (R415, R422), the entry handshake's conditions (R440), the sleep commit point (R441), what outlives the digital
die's run and its supply (R423, R442, R452), die links (R12, R412).
Readings of the spec: log entry 34, DEDUCED. -/

namespace Sys2Proof.Machine

/-! ### Safe states -/

/-- The segment's C2 state (R414): its transmission stops, CAN_TX and LIN_SCHED complete with status 0x0C, and it is
isolated. -/
def segSafe (b : Nat) (s : State) : State :=
  if b < 8 then
    let ends := fun x : TxBuf => match x.src with | .desc _ _ => true | .diag => true | _ => false
    let mine := (can s b).bufs.filter ends
    let s := setCan b (fun c => { c with bufs := c.bufs.filter fun x => !ends x
                                         attempt := none }) s
    gwDropFor b 3 (mine.foldl (fun s x => txEnds x 0x0C (txFailRes x 0) 0 s) s)
  else
    let rest := (lin s (b - 8)).pend
    rest.foldl (fun s x => finishFree x.1 0x0C s) (setLin (b - 8) (fun l => { l with pend := [] }) s)

/-- An output takes its SAFE state because of source `src` (R415, R416). -/
def safeOne (src : Nat) (o : OutId) (s : State) : State :=
  match o with
  | .lch n => lchSafe src n s
  | .hb h => hbSafe src h s
  | .vlv v => vlvSafe src v s
  | .vg _ => s
  | .boost => s
  | .fio n => fioSafe n s
  | .lf n => lfSafe src n s
  | .rel => relSafe s
  | .seg b => segSafe b s
  | .pair k => stopPair k s

/-- A list of outputs takes SAFE. -/
def safeEntry (outs : List OutId) (src : Nat) (s : State) : State := outs.foldl (fun s o => safeOne src o s) s

/-- Outputs that are in no C2 state any more take their requested mode OFF, coast or release (R422). -/
def safeRelease (outs : List OutId) (s : State) : State :=
  outs.foldl (fun s o => match o with
    | .lch n => lchUnsafe n s
    | .hb h => hbUnsafe h s
    | .vlv v => vlvUnsafe v s
    | .fio n => fioUnsafe n s
    | _ => s) s

/-! ### The entry handshake (R440): blocks LS_0 to LS_3, VS, IS, FS, NS, AS, HS, engine group -/

/-- The POWER_SET's own number. -/
def powerUid (s : State) : Nat := match s.pw.run with | some p => p.uid | none => s.nextUid
/-- Descriptors other than the POWER_SET are in flight (R43). -/
def othersInFlight (s : State) : Bool :=
  (s.started.any fun r => r.uid != powerUid s) || (s.rings.toList.any fun r => !r.pipe.isEmpty) || (s.engPipe.toList.any fun l => !l.isEmpty) || s.diagPipe.isSome

def blockDelays (k : Fin 11) (s : State) : Bool :=
  let i := k.val
  if i < 4 then
    ((List.range 4).any fun j => driven s (4 * i + j)) || ((List.range 16).any fun j => (lch s (16 * i + j)).pre.isSome)
  else match i with
    | 4 => s.vs.vlv.toList.any fun v => v.state != 0 && v.state != 5
    | 5 => 0 < cleaning s
    | 7 => !nsAllAsleep s && !nsRefuses s
    | 9 => othersInFlight s || !s.hw.queue.isEmpty
    | 10 => (s.eng.toList.any fun e => e.handler.isSome) || handoverRuns s
    | _ => false

def blockRefuses (k : Fin 11) (s : State) : Bool :=
  match k.val with
  | 4 => s.vs.vlv.toList.any fun v => v.state == 5 || v.perNext.isSome
  | 6 => fsKeepsAwake s
  | 7 => nsRefuses s
  | 8 => asRefuses s
  | 9 => commitRuns s || s.upd.state == .grafting || s.upd.state == .trial || xspiWriting s
  | _ => false

/-! ### Park -/

/-- An exact heat snapshot (R123, R126). -/
def heatExact (s : State) : State := writeSnap true s

/-- Times of the newest heat snapshot (R438). -/
def newestSnapshot (s : State) : Option (Nat × Nat) := (newestSnap s.ld).map fun k => (k.dt, k.rt)

/-- DEEP PARK is being entered. -/
def goesDeep (s : State) : Bool := match s.pw.run with | some p => p.target == .deep | none => s.pw.state == .deep

/-- What the blocks do at tc (R441): wake detection and poll groups pass to the root island, load, bridge and field
outputs turn off. -/
def sleepCommit (s : State) : State :=
  let deep := goesDeep s
  let s := nsSleepCommit deep (armPolls deep s)
  let s := (List.range 64).foldl (fun s n => applyLch n (setLch n (fun c => { c with mode := 0 }) s)) s
  let s := (List.range 16).foldl (fun s h => if driven s h then endNow h 0 0 0xFFFF s else applyHb h (setHb h (fun b => { b with mode := 0 }) s)) s
  fsPark s

/-! ### The end of the digital die's run -/

/-- What of a load channel outlives it: the wire model and its protection on the load die, not its commands (R122, R123). Of
LCH_PROT and LCH_DIAG these are HELD, LATCHED and COUNT; LAST, WARN and the diagnosis results start anew (log entry 13,
DEDUCED). -/
def lchKeep (c : Lch) : Lch :=
  { theta1 := c.theta1, theta2 := c.theta2, tAmb := c.tAmb, tC := c.tC, wire := c.wire, q := c.q, held := c.held, latched := c.latched, count := c.count,
    cleared := c.cleared, lastProt := c.lastProt, lastSc := c.lastSc, dieHot := c.dieHot, tSw := c.tSw, offDt := c.offDt }

/-- The families at the end of the digital die's run: by park entry, or by a reset. `brownout`: the dies keep
their SAFE entries and the outputs the SAFE state that they have taken by their own logic (R450). The mirror of a load die
whose link is down becomes invalid here, be the run's end a loss of power or not (R127; log entry 13, DEDUCED). -/
def familyDieOff (park brownout : Bool) (s : State) : State :=
  let s := asDieOff (nsDieOff park (swDieOff park s))
  let s := modLd (fun l => { l with mirror := mapFin l.mirror fun n m => if dieDown s (lchDie n) then none else m }) s
  let s := { s with eng := Vector.replicate 16 {}, pairs := Vector.replicate 8 {}, wbufs := Vector.replicate 16 [] }
  if brownout then { s with ld := { s.ld with chs := s.ld.chs.map fun c => { c with mode := 0, waits := [] } } }
  else
    let ld := s.ld
    let ld' : LoadSt := { chs := ld.chs.map lchKeep, banks := ld.banks, mirror := ld.mirror, snaps := ld.snaps, supplyOff := ld.supplyOff, logicReset := ld.logicReset }
    { s with ld := ld', hbs := s.hbs.map fun b => { mirror := b.mirror }, vs := {}, safeHere := []
             fs := if park then s.fs else {} }

/-- The loss of the root island's supply (R452): retention RAM, protection states and the release session are gone; the
field die goes on where its backup has 12 V (R218). -/
def familySupplyLoss (s : State) : State :=
  let s := asSupplyLoss (barrierLost s.fs.v s)
  { s with ld := { snaps := s.ld.snaps, chs := s.ld.chs.map fun c => { wire := c.wire } }, hbs := Vector.replicate 16 {}, sw := {}, ns := {} }

/-! ### Die links -/

/-- Outputs of a die beyond a failed link that the die itself puts into SAFE (R12); the field die by its own timeout. -/
def dieOuts (d : Die) : List OutId :=
  let lchs := fun (a : Nat) => (List.range 32).map fun i => OutId.lch (a + i)
  let hbs := fun (a : Nat) => (List.range 8).map fun i => OutId.hb (a + i)
  match d with
  | .loadA => lchs 0 ++ hbs 0
  | .loadB => lchs 32 ++ hbs 8
  | .base => (List.range 24).map OutId.vlv ++ (List.range 4).map OutId.lf
  | _ => []

/-- The link to a die has failed (R12, R264, R277). -/
def dieLost (d : Die) (src : Nat) (s : State) : State :=
  let s := safeEntry (dieOuts d) src s
  if d == .base then nsLinkLost src (swLinkLost s) else s

/-- The link to a die has returned (R211, R264, R277, R412). -/
def dieBack (d : Die) (s : State) : State :=
  if d == .base then nsLinkBack s else if d == .field then fsLinkBack s else mirrorAll s

end Sys2Proof.Machine
end

