-- ==== Sys2Proof/Machine/Faults.lean ====
section
/-! DEFINITION. The fault collector: classes and scopes (R413, R414, R427), raising and escalation (R411, R417), C2
and C3 states, acknowledgement, function reset, injection, watchdog, phases (file 17).
Readings of the spec: log entry 33, DEDUCED. -/

namespace Sys2Proof.Machine

/-- Sources that R427 lists. -/
def srcDefined (n : Nat) : Bool :=
  n ≤ 26 ||
  (32 ≤ n && n < 160 && (let k := n % 32; k ≤ 8 || (16 ≤ k && k ≤ 28))) ||
  (160 ≤ n && n ≤ 173) || (192 ≤ n && n ≤ 195) || (200 ≤ n && n ≤ 213) || (216 ≤ n && n ≤ 234) || (240 ≤ n && n ≤ 246) || (248 ≤ n && n ≤ 254)

/-- Own class of a source (R427 with R138, R160, R190, R211, R233, R266, R312, R333, R408); 0 for reserved ones. -/
def srcClass (n : Nat) : Nat :=
  if n < 32 then
    if n == 7 then 3
    else if [1, 4, 18, 19, 20, 21].contains n then 2
    else if [6, 8, 10, 11, 15, 16, 17, 24, 25, 26].contains n then 1 else 0
  else if n < 160 then
    let k := n % 32
    if [0, 1, 2, 3, 5, 6, 7, 17, 18, 19, 20, 21, 24, 26, 27, 28].contains k then 1 else 0
  else if n < 192 then (if [164, 171, 173].contains n then 0 else if n ≤ 173 then 1 else 0)
  else if n < 200 then (if n == 195 then 1 else 0)
  else if n < 216 then (if [201, 203, 204, 205, 208, 211].contains n then 1 else 0)
  else if n < 224 then (if n == 223 then 2 else if [218, 219].contains n then 0 else 1)
  else if n < 240 then (if n == 233 then 2 else if [226, 231, 232].contains n then 0 else if n ≤ 234 then 1 else 0)
  else if n < 248 then (if [241, 243].contains n then 2 else if [244, 246].contains n then 3 else if [240, 245].contains n then 1 else 0)
  else if n == 250 then 3 else if [251, 254].contains n then 1 else 0

/-- Scope codes of R414. -/
inductive Scope where
  | named
  | bank
  | group
  | segment
  | slice (outs : List OutId)
  | pair
  | device
  | none
deriving DecidableEq, Repr

/-- Outputs of load slice `k`. -/
def lsOuts (k : Nat) : List OutId := (List.range 16).map (fun i => OutId.lch (16 * k + i)) ++ (List.range 4).map (fun i => OutId.hb (4 * k + i))
/-- Outputs of VS, FS and AS. -/
def vsOuts : List OutId := (List.range 24).map OutId.vlv ++ (List.range 4).map OutId.vg ++ [OutId.boost]
def fsOuts : List OutId := (List.range 32).map OutId.fio
def asOuts : List OutId := (List.range 4).map OutId.lf ++ [OutId.rel]
/-- Every output of the device. -/
def allOuts : List OutId := lsOuts 0 ++ lsOuts 1 ++ lsOuts 2 ++ lsOuts 3 ++ vsOuts ++ fsOuts ++ asOuts

/-- Scope of a source (R427). -/
def srcScope (n : Nat) : Scope :=
  if n < 32 then
    match n with
    | 1 => .device
    | 4 => .device
    | 7 => .device
    | 18 => .slice (lsOuts 0 ++ lsOuts 1)
    | 19 => .slice (lsOuts 2 ++ lsOuts 3)
    | 20 => .slice (vsOuts ++ asOuts)
    | 21 => .slice fsOuts
    | _ => .none
  else if n < 160 then (if n % 32 == 17 then .bank else if n % 32 == 27 || n % 32 == 28 then .slice (lsOuts (n / 32 - 1)) else .named)
  else if n < 192 then (if [160, 161, 162, 163, 172].contains n then .slice vsOuts else if [166, 168, 170].contains n then .group else .named)
  else if n < 200 then .none
  else if n < 216 then .segment
  else if n < 224 then .slice asOuts
  else if n < 240 then (if 226 ≤ n && n ≤ 231 then .named else .slice fsOuts)
  else if n == 244 || n == 246 then .device
  else if n < 248 then .pair
  else if n == 250 then .device else .none

/-- The pair that a raise of code P names, by its own TARGET or by that of one of its engines (R10, R414). -/
def pairNamed (t : Nat) : Option Nat :=
  if t / 256 != 0xE then none else if t % 256 < 16 then some (t % 256 / 2) else if t % 256 < 24 then some (t % 256 - 16) else none

/-- Outputs in the scope of a source that names `target` (R414). -/
def scopeOuts (s : State) (n target : Nat) : List OutId :=
  match srcScope n with
  | .named => scopeN s target
  | .bank => bankOuts target
  | .group => groupOuts target
  | .segment => if fld target 8 4 == 7 && fld target 0 8 < 16 && target != 0xFFFF then [.seg (fld target 0 8)] else []
  | .slice l => l
  | .pair => match pairNamed target with | some k => .pair k :: pairOuts s k | none => []
  | .device => allOuts
  | .none => []

/-- TARGET that FAULT_STATE names for a C2 state (R430). -/
def stateTarget (n target : Nat) : Nat :=
  match srcScope n with
  | .slice _ => if n < 32 then (if n == 18 then 0x00FF else if n == 19 then 0x02FF else if n == 20 then 0x04FF else 0x06FF)
                else if n < 160 then (n / 32 - 1) * 256 + 0xFF
                else if n < 192 then 0x04FF else if n < 224 then 0x08FF else 0x06FF
  | .device => 0x0F00
  | .pair => (pairNamed target).elim target pairTarget
  | _ => target

/-- FAULT_STATE: event and heartwood record (R424, R430). -/
def faultState (entered dev : Bool) (target src : Nat) (s : State) : State :=
  let d1 := b2n entered + 2 * b2n dev + 4 * b2n s.flt.c3Latch + putF target 16 16
  hwPut 0x0021 (leBytes 8 d1 ++ leBytes 8 src) [.event (faultRing s) 0x3081 target d1 src s.dt false] s

/-- A C2 state is entered: its outputs take SAFE (R413, R415). -/
def enterC2 (src target : Nat) (s : State) : State :=
  let outs := scopeOuts s src target
  if outs.isEmpty then s
  else
    let st := stateTarget src target
    let s := modFlt (fun f => { f with c2 := f.c2 ++ [{ src := src, target := st, outs := outs }] }) s
    faultState true false st src (safeEntry outs src s)

/-- The device safe state is entered (R416, R420, R421). -/
def enterC3 (src : Nat) (s : State) : State :=
  let s := modFlt (fun f => { f with c3 := true, c3Src := src, c3Latch := f.c3Latch || f.phase != .normal }) s
  let s := hwPut 0x0003 (leBytes 1 2 ++ leBytes 1 src) [] (safeEntry allOuts src s)
  faultState true true 0x0F00 src s

/-- A POWER_SET to a lower state that has not reached tc ends with status 0x12, naming the source (R440, R455). -/
def powerAborted (src : Nat) (s : State) : State :=
  match s.pw.run with
  | none => s
  | some p =>
    if p.tc.isSome then s
    else
      let s := modPw (fun w => { w with run := none, blocker := 0xF }) s
      finish p.uid 0x12 (putF (match s.pw.state with | .run => 0 | .idle => 1 | .standby => 2 | .park => 3 | .deep => 4) 0 3 + putF 0xF 8 4 + putF src 16 16 + putF s.dt 32 32) s

/-- Another source that is sticky at the effective class equal to `own` (R417). -/
def escalates (s : State) (n own : Nat) : Bool := (idxs 256).any fun i => i.val != n && s.flt.srcs[i].sticky && s.flt.srcs[i].eff == own

/-- Sources whose rule finds a condition of R506 left: VBAT_B, VCORE, VBAT_LA and VBAT_LB, FL_PLUS, the junctions of the
power dies (R21, log entry 35). -/
def leavesConditions (n : Nat) : Bool :=
  [170, 194, 224, 225, 228, 253, 254].contains n || (32 ≤ n && n < 160 && [1, 19, 27, 28].contains (n % 32))

/-- CONDITIONS_LEFT for the operating conditions; `src` 0xFF: no source (R21, R461). -/
def conditionsLeft (src : Nat) (s : State) : State := hwPut 0x0003 (leBytes 1 1 ++ leBytes 1 src) [] s

/-- Readings of a supply, in mV: 0 is not read yet; VBAT_LA and VBAT_LB at their banks, where the sense is plausible. -/
def landReadings (s : State) (d : Die) : List Nat :=
  let l := if d == .base then [s.pw.vbat]
    else (idxs 8).filterMap fun (b : Fin 8) => if lchDie (8 * b) == d && !s.ld.banks[b].senseBad then some s.ld.banks[b].vNow else none
  l.filter (0 < ·)

/-- The conditions of R506 that present readings show left: 0 to 2 VBAT_LA, VBAT_LB and VBAT_B; 3 the difference of the two
that are read together; 4 VCORE, while no change of it runs; 5 FL_PLUS; 6 a junction of the power dies (R21, log entry 35). -/
def condsOut (s : State) : List Nat :=
  let out := fun (d : Die) => (landReadings s d).any fun v => v < 6000 || 32000 < v
  let apart := (landReadings s .loadA).any fun a => (landReadings s .loadB).any fun b => a + 1000 < b || b + 1000 < a
  let core := s.pw.vout.isNone && s.pw.vReq != 0 && s.pw.vMeas != 0 && (100 * s.pw.vMeas < 97 * s.pw.vReq || 103 * s.pw.vReq < 100 * s.pw.vMeas)
  let fl := s.fs.powered && s.fs.v != 0 && (s.fs.v < 18000 || 32000 < s.fs.v)
  let hot := (s.ld.chs.toList.any fun c => 2400 < c.tSw) || (s.hbs.toList.any fun b => 2400 < b.tSw) || (s.ld.banks.toList.any fun b => 2400 < b.dieT)
  (List.range 7).filter fun i =>
    match i with
    | 0 => out .loadA
    | 1 => out .loadB
    | 2 => out .base
    | 3 => apart
    | 4 => core
    | 5 => fl
    | _ => hot

/-- The point at which readings show a condition of R506 newly left is marked in the heartwood (R21). -/
def markConditions (s : State) : State :=
  let now := condsOut s
  if now == s.hw.condOut then s
  else
    let left := now.filter fun i => !s.hw.condOut.contains i
    left.foldl (fun s _ => conditionsLeft 0xFF s) (modHw (fun h => { h with condOut := now }) s)

/-- What a raise does when it sets the sticky bit (R413, R417, R424). Reports beyond the event and vector wait for the
same record. -/
def setSticky (n : Fin 256) (target : Nat) (injected : Bool) (time : Nat) (tsRt : Bool) (more : List Report) (s : State) : State :=
  let own := srcClass n
  let esc := own != 3 && escalates s n own
  let eff := if esc then own + 1 else own
  let setIt := fun x : Source => { x with sticky := true, esc := esc, eff := eff, reraises := 0 }
  let s := modFlt (fun f => { f with srcs := upd f.srcs n setIt, lastInjected := injected, lastEsc := esc, lastEff := eff, lastOwn := own,
                                     lastSrc := n, escalations := if esc then sat 16 (f.escalations + 1) else f.escalations }) s
  let d1 := n.val + putF own 8 2 + putF eff 10 2 + putF (b2n esc) 12 1 + putF (b2n injected) 13 1 + putF target 16 16
  let v := if eff == 3 then 64 else if eff == 2 then 65 else 66
  let ev : Report := .event (faultRing s) 0x3080 (if target == 0xFFFF then 0x0F00 else target) d1 0 time tsRt
  let s := hwPut 0x0020 (leBytes 8 d1 ++ leBytes 8 0) (ev :: .vector v :: more) s none injected (some (time, tsRt))
  let s := if 2 ≤ eff then enterC2 n target s else s
  let s := if eff == 3 then enterC3 n s else s
  if 2 ≤ eff then powerAborted n (modPw (fun w => { w with exitTrigger := w.exitTrigger || w.state == .standby }) s) else s

/-- Another pair's mismatch while source 243 is sticky: the outputs of its programs take SAFE as the first pair's do (R373; log
entry 33, DEDUCED). -/
def pairAgain (n target : Nat) (s : State) : State :=
  if n == 243 && !s.flt.c2.any (fun c => c.src == 243 && c.target == stateTarget 243 target) then enterC2 243 target s else s

/-- A raise reaches the collector (R411): sets the bit, or is a re-raise, which only counts. Either way a
condition that its rule found left is marked (R21). -/
def collect (n : Fin 256) (target : Nat) (injected : Bool) (time : Nat) (tsRt : Bool) (more : List Report) (s : State) : State :=
  let s := modFlt (fun f => { f with raises := sat 16 (f.raises + 1) }) s
  let s :=
    if s.flt.srcs[n].sticky then
      let s := modFlt (fun f => { f with srcs := upd f.srcs n fun x => { x with reraises := sat 16 (x.reraises + 1) } }) s
      if injected then s else pairAgain n target s
    else setSticky n target injected time tsRt more s
  if leavesConditions n && !injected then conditionsLeft n s else s

/-- Sources whose raise is the command's own event: the ECC sources, which no other row raises (R427). -/
def ownRaised (n : Nat) : Bool := n == 0 || n == 1 || n == 4

/-- The oldest raise of source `n` on its way to the collector arrives; an ECC source is raised by the arrival itself. -/
def arrive (n : Fin 256) (s : State) : State :=
  match s.flt.pending.find? fun r => r.src == n.val with
  | some r => collect n r.target false r.time r.tsRt [] (modFlt (fun f => { f with pending := f.pending.erase r }) s)
  | none => if ownRaised n then collect n (if n.val == 4 then 0x0941 else 0xFFFF) false s.dt false [] s else s

/-- FAULT_RAISE: the raises of these sources reach the collector in one DT tick, in ascending number (R411, R418). -/
def execFaultRaise (srcs : List (Fin 256)) (s : State) : Out :=
  .next (whenOn (fun s => ((idxs 256).filter fun n => srcs.contains n).foldl (fun s n => arrive n s) s) s)

/-- Sticky or escalation bits of a block of 32 sources (R431). -/
def srcBits (s : State) (b : Nat) (f : Source → Bool) : Nat :=
  ((List.range 32).map fun i => match at? s.flt.srcs (32 * b + i) with | some x => if f x then 2 ^ i else 0 | none => 0).foldl (· + ·) 0

/-- What FAULT_QUERY asks of its descriptor. -/
def faultQueryForm (_ : State) (d : Desc) : OpForm :=
  { idem := true, used := pm 24 8, range := d.device && d.u 24 8 < 8 }

/-- FAULT_QUERY: R429. -/
def execFaultQuery (o : Origin) (s : State) : Out :=
  runOut o 0x3000 faultQueryForm
    (fun d uid s => finish uid 0 (srcBits s (d.u 24 8) (·.sticky) + 2 ^ 32 * srcBits s (d.u 24 8) (·.esc)) s) s

/-- What FAULT_ACK asks of its descriptor. -/
def faultAckForm (_ : State) (d : Desc) : OpForm :=
  { idem := true, used := pm 24 8 + pm 28 32, range := d.device && d.u 24 8 < 8 }

/-- FAULT_ACK: R419, R429. -/
def execFaultAck (o : Origin) (s : State) : Out :=
  runOut o 0x3001 faultAckForm
    (fun d uid s =>
      let b := d.u 24 8
      let named := fun i : Fin 256 => i.val / 32 == b && bitN (d.u 28 32) (i.val % 32)
      let acked := Nat.land (srcBits s b (·.sticky)) (d.u 28 32)
      let clear := fun (i : Fin 256) (x : Source) => if named i then { x with sticky := false, esc := false, eff := 0, reraises := 0 } else x
      finish uid 0 acked (modFlt (fun f => { f with srcs := mapFin f.srcs clear }) s)) s

/-- Outputs a function reset names (R422); none where its TARGET is no such scope. -/
def resetScope (s : State) (t : Nat) : Option (List OutId) :=
  let sl := fld t 8 4
  let ch := fld t 0 8
  if sl ≤ 3 && (ch == 32 || ch == 33) then some (bankOuts t)
  else if sl ≤ 3 && ch == 255 then some (lsOuts sl)
  else if sl ≤ 3 && ch < 20 then some (scopeN s t)
  else if sl == 4 && 32 ≤ ch && ch ≤ 35 then some (groupOuts t)
  else if sl == 4 && ch == 255 then some vsOuts
  else if sl == 4 && ch < 24 then some [.vlv ch]
  else if sl == 4 && ch == 40 then some [.boost]
  else if sl == 6 && ch == 255 then some fsOuts
  else if sl == 6 && ch < 32 then some [.fio ch]
  else if sl == 7 && ch < 16 then some [.seg ch]
  else if sl == 8 && ch == 255 then some asOuts
  else if sl == 8 && ch < 4 then some [.lf ch]
  else if sl == 8 && ch == 8 then some [.rel]
  else if sl == 0xE && 16 ≤ ch && ch < 24 then some (.pair (ch - 16) :: pairOuts s (ch - 16))
  else none

/-- A source whose C2 reaction covers an output of the scope in a C2 state is still sticky (R422). -/
def stillSticky (s : State) (outs : List OutId) : Bool :=
  s.flt.c2.any fun c => c.outs.any (fun o => outs.contains o) && (match at? s.flt.srcs c.src with | some x => x.sticky | none => false)

/-- Outputs leave their C2 states; a C2 state with no output left is over (R421, R422). -/
def leaveC2 (outs : List OutId) (s : State) : State :=
  let cut := s.flt.c2.map fun c => { c with outs := c.outs.filter fun o => !outs.contains o }
  let beyond := cut.filter fun c => c.outs.isEmpty
  let s := modFlt (fun f => { f with c2 := cut.filter fun c => !c.outs.isEmpty }) s
  beyond.foldl (fun s c => faultState false false c.target c.src s) s

/-- What FAULT_RESET counts as an output: a segment and a pair are scopes, not outputs (R10, R429). -/
def isOutput : OutId → Bool
  | .seg _ => false
  | .pair _ => false
  | _ => true

/-- A pair's comparators have failed their test at a function reset: it serves again only after a start-up (R422). -/
def testedBad (s : State) (k : Nat) : Bool := (pair s k).testBad

/-- What FAULT_RESET asks of its descriptor; one that names a gang member is refused (R93). -/
def faultResetForm (s : State) (d : Desc) : OpForm :=
  let sc := (resetScope s d.target).getD []
  { range := d.device || (resetScope s d.target).isSome
    state := if d.device then !s.flt.c3Latch else !(d.slice ≤ 3 && d.ch < 16 && isMember s (16 * d.slice + d.ch)) && sc.any (fun x => inC2 s x) && !stillSticky s sc && !s.flt.c3 }

/-- FAULT_RESET: R421 to R423, R429. `failed`: the expectations of a pair's comparator self-test that do not hold (R374). -/
def execFaultReset (o : Origin) (failed : List (Fin 203)) (s : State) : Out :=
  runOut o 0x3002
    faultResetForm
    (fun d uid s =>
      if d.device then finish uid 0 0 (modFlt (fun f => { f with resetDue := some (s.dt + ms 1, .faultReset) }) s)
      else
        let sc := (resetScope s d.target).getD []
        let k := d.ch - 16
        if d.slice == 0xE && (!failed.isEmpty || testedBad s k) then finish uid 0x12 245 (pairTestFailed k s)
        else
          let rel := sc.filter fun x => inC2 s x
          let s := safeRelease rel (leaveC2 rel s)
          let s := if d.slice == 0xE then restartPair k s else s
          finish uid 0 (rel.filter isOutput).length s) s

/-- TARGET rule of FAULT_INJECT (R429). -/
def injectTargetOk (s : State) (n t : Nat) : Bool :=
  if t == 0xFFFF then true
  else
    let ownSlice := if n < 160 then n / 32 - 1 else if n < 192 then 4 else 6
    match srcScope n with
    | .named => !(scopeN s t).isEmpty && fld t 8 4 == ownSlice && scopeN s t != [.boost]
    | .bank => t < 0x1000 && !(bankOuts t).isEmpty && fld t 8 4 == ownSlice
    | .group => t < 0x1000 && !(groupOuts t).isEmpty
    | .segment => t / 256 == 7 && t % 256 < 16
    | .pair => t / 256 == 0xE && 16 ≤ t % 256 && t % 256 < 24
    | _ => false

/-- What FAULT_INJECT asks of its descriptor. -/
def faultInjectForm (s : State) (d : Desc) : OpForm :=
  { used := pm 24 8 + pm 26 16, range := d.device && srcDefined (d.u 24 8) && injectTargetOk s (d.u 24 8) (d.u 26 16) }

/-- FAULT_INJECT: R429. -/
def execFaultInject (o : Origin) (s : State) : Out :=
  runOut o 0x3003
    faultInjectForm
    (fun d uid s =>
      match fin? 256 (d.u 24 8) with
      | none => s
      | some n =>
        let was := s.flt.srcs[n].sticky
        let s := collect n (d.u 26 16) true s.dt false (if was then [] else [.completion uid]) s
        let x := s.flt.srcs[n]
        let res := putF x.eff 0 2 + 4 * b2n x.esc
        if was then finish uid 0 res s else finishGated uid 0 res s) s

/-! ### Watchdog and phases -/

/-- HEARTBEAT: the first after a start arms the watch (R426). -/
def execHeartbeat (s : State) : Out := .next (whenOn (modFlt fun f => { f with wdArmed := true, lastBeat := s.dt }) s)

/-- RUNTIME_WATCHDOG: 100 ms without a heartbeat while armed (R426): source 7, and the device safe state by the root
island's own logic. -/
def execRuntimeWatchdog (s : State) : Out :=
  .next (whenOn (onlyIf (s.flt.wdArmed && s.flt.wdFired.isNone && s.flt.lastBeat + ms 100 ≤ s.dt) fun s =>
    let s := raise 7 0xFFFF (modFlt (fun f => { f with wdFired := some s.dt, wdArmed := false }) s)
    safeEntry allOuts 7 (modFlt (fun f => { f with c3 := true, c3Src := 7, c3Latch := f.c3Latch || f.phase != .normal }) s)) s)

/-- RECOVERY_END: R420. -/
def execRecoveryEnd (s : State) : Out :=
  .next (onlyIf (s.flt.recoveryStart + sec 10 ≤ s.dt) (modFlt fun f =>
    { f with phase := if f.phase == .recovery then .normal else f.phase
             interrupted := if f.interrupted == .recovery then .normal else f.interrupted }) s)

end Sys2Proof.Machine
end

