-- ==== Sys2Proof/Machine/Power.lean ====
section
/-! DEFINITION. Power states: POWER_SET, the park entry handshake, the regulator, wakes, supply and crystal events
(file 18).
Readings of the spec: log entry 34, DEDUCED. -/

namespace Sys2Proof.Machine

/-- Code of a power state (R455). -/
def pcode : PState → Nat
  | .run => 0
  | .idle => 1
  | .standby => 2
  | .park => 3
  | .deep => 4

/-- The power state of a code. -/
def pstateOf : Nat → PState
  | 0 => .run
  | 1 => .idle
  | 2 => .standby
  | 3 => .park
  | _ => .deep

/-- VCORE of a state in mV (R432). -/
def vcoreOf : PState → Nat
  | .run => 800
  | .idle => 750
  | .standby => 700
  | _ => 0

/-- SLICE code of handshake block `k` (R440). -/
def blockCode (k : Nat) : Nat := if k < 10 then k else 0xE

/-- RESULT of POWER_SET (R455). -/
def powerResult (s : State) (blk cause src dt : Nat) : Nat :=
  putF (pcode s.pw.state) 0 3 + putF blk 8 4 + putF cause 12 4 + putF src 16 16 + putF dt 32 32

/-- POWER_STATE and vector 67 (R456, R58). -/
def powerEvent (new old : PState) (cause dt : Nat) (s : State) : State :=
  sendVector 67 (emit s.pw.evtRing 0x3180 0x0F00 (putF (pcode new) 0 3 + putF (pcode old) 4 3 + putF cause 8 4) (w32 dt) s)

/-- A request for a VCORE level (R445). -/
def requestVcore (mv : Nat) (rise : Bool) (uid : Option Nat) (target : PState) (s : State) : State :=
  modPw (fun w => { w with vReq := mv, vout := some { mv := mv, rise := rise, tries := 0, sentDt := s.dt, uid := uid, target := target, old := w.state } }) s

/-- A change among RUN, IDLE and STANDBY (R439, R443): a rise waits for its voltage; a fall lowers the clocks first,
and its POWER_STATE tells how it ended (log entry 34). -/
def changeState (uid : Option Nat) (target : PState) (s : State) : State :=
  let rise := vcoreOf s.pw.state < vcoreOf target
  if rise then requestVcore (vcoreOf target) true uid target s
  else
    modPw (fun w => { w with state := target, enginePll := target != .standby, exitTrigger := false }) (requestVcore (vcoreOf target) false uid target s)

/-- The sleep commit point (R441, R442, R446). -/
def sleepCommitPoint (p : PowerRun) (s : State) : State :=
  let early := s.pw.alarmEn && s.pw.alarm ≤ s.rt
  sleepCommit (modPw (fun w =>
    { w with dtC := s.dt, rtC := s.rt, saved := some s.flt, run := some { p with tc := some s.dt }
             latched := if early then some (3, s.rt, true) else w.latched
             alarmEn := w.alarmEn && !early }) (modFlt (fun f => { f with wdArmed := false }) s))

/-- Every block has granted (R440): tc for a park, the change for STANDBY. -/
def handshakeDone (p : PowerRun) (s : State) : State :=
  if p.target == .standby then changeState (some p.uid) .standby (modPw (fun w => { w with run := none, blocker := 0xF }) s)
  else sleepCommitPoint p s

/-- POWER_SET ends before tc (R440): every block resumes, fetching and stall times among them (R439, R49). -/
def endEntry (uid status blk cause src : Nat) (s : State) : State :=
  finish uid status (powerResult s blk cause src s.dt) (watchStalls (modPw (fun w => { w with run := none, blocker := blk }) (watchStalls s)))

/-- Another POWER_SET runs: an entry, or a change that waits for its voltage (R455). A STANDBY exit is none. -/
def powerSetRuns (s : State) : Bool := s.pw.run.isSome || (match s.pw.vout with | some r => r.uid.isSome | none => false)

/-- What POWER_SET asks of its descriptor. -/
def powerSetForm (s : State) (d : Desc) : OpForm :=
  { idem := d.u 24 8 ≤ 2, used := pm 24 8, range := d.device && d.u 24 8 ≤ 4, state := !powerSetRuns s }

/-- POWER_SET: R433, R439, R440, R455. One to RUN takes over a STANDBY exit that waits for its voltage; one to IDLE asks for
its own voltage instead (log entry 34, DEDUCED). -/
def execPowerSet (o : Origin) (s : State) : Out :=
  runOut o 0x3100
    powerSetForm
    (fun d uid s =>
      let t := pstateOf (d.u 24 8)
      if t == s.pw.state then finish uid 0 (powerResult s 0xF 0 0xFFFF s.dt) s
      else if t == .run && s.pw.vout.isSome then modPw (fun w => { w with vout := w.vout.map fun r => { r with uid := some uid } }) s
      else if t == .run || t == .idle then changeState (some uid) t s
      else
        let ask := fun k : Fin 11 => if t == .standby && k.val != 10 then Answer.granted else Answer.asked
        watchStalls (modPw (fun w => { w with run := some { uid := uid, target := t, t0 := s.dt, answers := Vector.ofFn ask } }) s)) s

/-- What POWER_QUERY asks of its descriptor. -/
def powerQueryForm (_ : State) (d : Desc) : OpForm :=
  { idem := true, range := d.device }

/-- POWER_QUERY: R455. -/
def execPowerQuery (o : Origin) (s : State) : Out :=
  runOut o 0x3101 powerQueryForm
    (fun _ uid s => finish uid 0 (pcode s.pw.state + putF s.pw.wakeSrc 8 4 + putF s.pw.vbat 16 16 + putF s.pw.vMeas 32 16) s) s

/-- What ALARM_SET asks of its descriptor. -/
def alarmSetForm (s : State) (d : Desc) : OpForm :=
  { idem := true, used := pm 16 48 + pm 24 8, range := d.device && d.u 24 8 ≤ 1 && (d.u 24 8 == 0 || s.rt < d.u 16 48) }

/-- ALARM_SET: R455. -/
def execAlarmSet (o : Origin) (s : State) : Out :=
  runOut o 0x3102
    alarmSetForm
    (fun d uid s =>
      let arm := d.u 24 8 == 1
      let s := modPw (fun w => { w with alarmEn := arm, alarm := if arm then d.u 16 48 else w.alarm }) s
      finish uid 0 (putF s.pw.alarm 0 48 + putF (b2n arm) 48 1) s) s

/-- ENTRY_HANDSHAKE_ANSWER: R440; an answer counts when the block's condition in the table of R440 allows it. -/
def execEntryHandshakeAnswer (block : Fin 11) (a : BlockAnswer) (s : State) : Out :=
  .next (match s.pw.run with
    | none => s
    | some p =>
      if p.tc.isSome then s
      else match a with
        | .grant =>
          if blockDelays block s || blockRefuses block s || !(p.answers[block] == .asked || p.answers[block] == .delayed) then s
          else
            let p' := { p with answers := p.answers.set block .granted }
            let s := modPw (fun w => { w with run := some p', blocker := if w.blocker == blockCode block then 0xF else w.blocker }) s
            if p'.answers.toList.all fun x => x == .granted then handshakeDone p' s else s
        | .delay =>
          if blockDelays block s && (p.answers[block] == .asked || p.answers[block] == .delayed) then
            modPw (fun w => { w with run := some { p with answers := p.answers.set block .delayed }, blocker := blockCode block }) s
          else s
        | .refuse => if blockRefuses block s && (p.answers[block] == .asked || p.answers[block] == .delayed) then endEntry p.uid 0x0C (blockCode block) 0 0xFFFF s else s
        | .withdraw => match p.answers[block] with | .withdrawn cause => endEntry p.uid 0x10 0xF cause 0xFFFF s | _ => s)

/-- ENTRY_TIMEOUT: R440. -/
def execEntryTimeout (s : State) : Out :=
  .next (match s.pw.run with
    | none => s
    | some p =>
      match (idxs 11).find? fun k => p.answers[k] == .delayed with
      | none => s
      | some k => if p.tc.isNone && p.t0 + ms (10 * s.pw.entryTo) ≤ s.dt then endEntry p.uid 0x13 (blockCode k) 0 0xFFFF s else s)

/-- REG_WAKE rises for a wake from park, and WAKE_N with it (R441, R447). -/
def riseForWake (s : State) : State :=
  modPw (fun w => { w with regWake := true, regWakeRt := s.rt, tries := 0
                           wakeN := w.wakenEn && !s.host.selfHosted }) s

/-- What the end of the digital die's run leaves: MRAM, xSPI memory and the root island; every volatile block is at
its reset value (R423, R442, R458). Sessions that are open close at the next start (R83); in a brownout the dies keep the
entries that they hold (R450). What a die holds behind its failed link outlives a park and a brownout (R412, R442). -/
def dieOff (park brownout : Bool) (s : State) : State :=
  let h := s.host
  let host' : HostSt := { xspi := h.xspi.map fun x => { mem := x.mem }, selfHosted := h.selfHosted }
  let g := s.stg
  let stg' : StageSt :=
    if brownout then { copies := g.copies, marked := g.marked, tables := g.tables, storedOk := g.storedOk || g.inForce, kept := g.kept || g.inForce } else { copies := g.copies, marked := g.marked }
  let ses' := s.ses.map fun x => { isOpen := x.isOpen, fails := x.fails, lockEnd := x.lockEnd : Ses }
  let keeps := park || brownout
  let flt' : FaultSt := { c3Latch := s.flt.c3Latch, riHeld := s.flt.riHeld, leftC3 := s.flt.leftC3, ended := s.flt.ended, rstCause := s.flt.rstCause,
                           held := if keeps then s.flt.held else [] }
  let s := familyDieOff park brownout s
  { s with sram := [], rings := Vector.replicate 64 {}, nextHigh := 0, nextNormal := 0, started := [],
           engPipe := Vector.replicate 16 [], diagPipe := none, diagBusy := false, diagAnswer := none, transit := [],
           heldEvents := if keeps then s.heldEvents else [], host := host', stg := stg', ses := ses', flt := flt', perf := {},
           engInts := Vector.replicate 16 0,
           pw := { s.pw with dieOn := false, ready := false, startDue := none, run := none, vout := none, enginePll := false, exitTrigger := false,
                             pfw := false, crank := false, blocker := 0xF, cfgIgn := false },
           hw := { s.hw with queue := [], heldBack := [], wrDenied := 0, archMiss := 0 }, upd := { s.upd with evtRing := 0xFF, graftOn := false } }

/-- Steps 2 to 4 of R441: exact snapshot, pending records, clean-stop marker (R464), completion and vector. -/
def entryStep4 (p : PowerRun) (s : State) : State :=
  let s := hwWriteAll (s.hw.queue.length + s.hw.heldBack.length + 1) (heatExact (mirrorAll s))
  let s := modHw (fun h => { h with marker := some h.newest }) s
  let old := s.pw.state
  let s := modPw (fun w => { w with state := p.target, run := some { p with step4 := some s.dt } }) s
  powerEvent p.target old 0 s.pw.dtC (finish p.uid 0 (powerResult s 0xF 0 0xFFFF s.pw.dtC) s)

/-- They come 0.31 ms after tc, their least time: no command names them (R441). -/
def entryTick (s : State) : State :=
  match s.pw.run with
  | some p => (match p.tc with | some t => if p.step4.isNone && t + us 310 ≤ s.dt then entryStep4 p s else s | none => s)
  | none => s

/-- Step 5 of R441: REG_WAKE low, clocks off. A wake latched since tc lets REG_WAKE rise again. -/
def entryComplete (s : State) : State :=
  let s := modPw (fun w => { w with regWake := false, clocks := false, retention := true }) (dieOff true false s)
  if s.pw.latched.isSome then riseForWake s else s

/-- ENTRY_COMPLETE: te, at the earliest 1.0 ms after step 4 (R441). -/
def execEntryComplete (s : State) : Out :=
  .next (match s.pw.run with
    | some p => (match p.step4 with | some t => if t + ms 1 ≤ s.dt then entryComplete s else s | none => s)
    | none => s)

/-- STANDBY_EXIT: R433, R445. -/
def execStandbyExit (s : State) : Out :=
  .next (onlyIf (s.pw.state == .standby && s.pw.exitTrigger && s.pw.vout.isNone && s.pw.run.isNone)
    (fun s => requestVcore 800 true none .run (modPw (fun w => { w with exitTrigger := false }) s)) s)

/-- A voltage request is acknowledged (R445): READ_VOUT within 2 %, no fault bit in STATUS_WORD. -/
def voutAcked (r : VoutReq) (vout status : Nat) : Bool := status == 0 && 98 * r.mv ≤ 100 * vout && 100 * vout ≤ 102 * r.mv

/-- The least time of a change among RUN, IDLE and STANDBY (R443); that of the first reading, at the start-up's request (R445,
R448). -/
def changeMin (s : State) (r : VoutReq) : Nat := if s.pw.startDue.isSome then us 50 else if !r.rise then us 60 else if r.old == .standby then us 90 else us 80

/-- VOUT_ACKNOWLEDGE: R439, R443, R445, R448. Every reading is the measured VCORE; one within the request's 2 ms may
acknowledge it. -/
def execVoutAcknowledge (vout status : Nat) (s : State) : Out :=
  .next (match s.pw.vout with
    | none => s
    | some r =>
      if s.dt < r.sentDt + changeMin s r || r.sentDt + ms 2 < s.dt then s
      else
      let s := modPw (fun w => { w with vMeas := sat 16 vout }) s
      if !voutAcked r vout status then s
      else
        let s := modPw (fun w => { w with vout := none }) s
        if s.pw.startDue.isSome then s
        else
        let s := if r.rise then modPw (fun w => { w with state := r.target, enginePll := true, exitTrigger := false }) s else s
        let s := powerEvent r.target r.old (if r.uid.isSome then 0 else 1) s.dt s
        match r.uid with
        | some u => finish u 0 (powerResult s 0xF 0 0xFFFF s.dt) s
        | none => s)

/-- PMBUS_NO_ACK: the request is repeated once; then source 251 and the fall-back (R445). A start-up goes on (log entry 34,
DESIGN CHOICE). -/
def execPmbusNoAck (s : State) : Out :=
  .next (match s.pw.vout with
    | none => s
    | some r =>
      if s.dt < r.sentDt + ms 2 then s
      else if r.tries == 0 then modPw (fun w => { w with vout := some { r with tries := 1, sentDt := s.dt } }) s
      else
        let s := raise 251 0xFFFF (modPw (fun w => { w with vout := none }) s)
        if r.rise then
          match r.uid with
          | some u => finish u 0x12 (powerResult s 0xF 0 251 s.dt) s
          | none => s
        else
          let s := powerEvent r.target r.old 3 s.dt s
          match r.uid with
          | some u => finish u 2 (powerResult s 0xF 0 0xFFFF s.dt) s
          | none => s)

/-- STATUS_WORD shows an output-voltage fault (PMBus bits 15 and 5, log entry 10, PRESUMED). -/
def voutFault (status : Nat) : Bool := bitN status 15 || bitN status 5

/-- PM_ALERT: R445. -/
def execPmAlert (status : Nat) (s : State) : Out :=
  .next (whenOn (fun s =>
    let s := hwPut 0x0032 (leBytes 2 status) [] s
    if voutFault status then raise 254 0xFFFF s else s) s)

/-! ### Wakes -/

/-- Wakes are latched (R446). -/
def wakeWatch (s : State) : Bool := s.pw.rootOn && parkWatch s

/-- Latch a wake with RT; between tc and te it is replayed, after te REG_WAKE rises (R441, R446). -/
def latchWake (src detail : Nat) (s : State) : State :=
  if s.pw.latched.isSome then s
  else
    let early := s.pw.run.isSome
    let s := modPw (fun w => { w with latched := some (src, s.rt, early), wakeDetail := detail }) s
    if early then s else riseForWake s

/-- WAKE_LATCH: R297, R446. -/
def execWakeLatch (w : WakeKind) (s : State) : Out :=
  .next (onlyIf (wakeWatch s) (fun s =>
    match w with
    | .network b wuf => if netArmed b wuf s then latchWake 1 b (netLatch b wuf s.pw.run.isSome s) else s
    | .switchPoll g i => if (pollWakes s g i).isSome then (if s.pw.latched.isSome then s else latchWake 2 i (pollLatch g i s)) else s
    | .resetPin => latchWake 5 0 s) s)

/-- ROOT_TIMER_WAKE: R446. -/
def execRootTimerWake (s : State) : Out :=
  .next (onlyIf (wakeWatch s && s.pw.alarmEn && s.pw.alarm ≤ s.rt) (fun s => latchWake 3 0 (modPw (fun w => { w with alarmEn := false }) s)) s)

/-- PERST_N_WAKE: R446. -/
def execPerstNWake (s : State) : Out :=
  .next (onlyIf (wakeWatch s && s.pw.hostWakeEn) (latchWake 4 0) s)

/-- WAKE_N_RELEASE: PERST_N rises, or 1 s of RT has passed: which of the two the command does not say (R447). -/
def execWakeNRelease (s : State) : Out :=
  .next (onlyIf s.pw.wakeN (modPw fun w => { w with wakeN := false }) s)

/-- The fast clocks stop, and DT with them (R437). -/
def stopClocks (s : State) : State := if s.pw.clocks then modPw (fun w => { w with clocks := false, dtC := s.dt, rtC := s.rt }) s else s

/-- REG_WAKE rises when its RT has come (R448, R450). -/
def regTick (s : State) : State :=
  match s.pw.regRise with
  | some t => if t ≤ s.rt then modPw (fun w => { w with regWake := true, regWakeRt := s.rt, regRise := none }) s else s
  | none => s

/-- REGULATOR_RETRY: VCORE or VIO is not in limits 50 ms (820 RT ticks) after REG_WAKE; after three failed tries
source 254, and the device stays parked (R450). REG_WAKE is low for 100 ms (1639 RT ticks) before the next try; with
VCORE gone the fast clocks stand. -/
def execRegulatorRetry (s : State) : Out :=
  .next (onlyIf (s.pw.rootOn && !s.pw.dieOn && s.pw.regWake && s.pw.regWakeRt + 820 ≤ s.rt) (fun s =>
    let s := stopClocks s
    if s.pw.tries + 1 < 3 then modPw (fun w => { w with tries := w.tries + 1, regWake := false, regRise := some (s.rt + 1639) }) s
    else raise 254 0xFFFF (modPw (fun w => { w with tries := 0, regWake := false, latched := none, state := if w.state == .deep then .deep else .park }) s)) s)

/-! ### Crystals and supplies -/

/-- XTAL32_START: the crystal oscillates within 2 s of the root island's power-on (R436). -/
def execXtal32Start (s : State) : Out :=
  .next (onlyIf (s.pw.rootOn && !s.pw.xtal32 && s.rt ≤ s.pw.xtalEnd) (modPw fun w => { w with xtal32 := true }) s)

/-- XTAL32_FAIL: R436. -/
def execXtal32Fail (s : State) : Out :=
  .next (onlyIf s.pw.xtal32 (fun s => raise 249 0xFFFF (modPw (fun w => { w with xtal32 := false }) s)) s)

/-- The 40 MHz crystal fails (R436, R450): source 250; its first retry is due 1 s later. It feeds both PLLs, so the fast
clocks stop with it and DT with them; what the digital die then still does is not stated, and the model lets it take
its commands (log entry 34, DESIGN CHOICE). Every load channel goes off (R124). -/
def xtal40Failed (s : State) : State :=
  let s := (List.range 64).foldl (fun s n => applyLch n s) (stopClocks s)
  raise 250 0xFFFF (modPw (fun w => { w with xtal40Bad := true, xtal40RetryRt := s.rt }) s)

/-- XTAL40_FAIL: it stops while it runs (R436). -/
def execXtal40Fail (s : State) : Out := .next (onlyIf (s.pw.clocks && !s.pw.xtal40Bad) xtal40Failed s)

/-- DT where the fast clocks start again: as many ticks later as RT tells (R437). -/
def dtAgain (s : State) : Nat := max s.dt (s.pw.dtC + (s.rt - s.pw.rtC) * 78125 / 16) % 2 ^ 64

/-- XTAL40_RETRY: every 1 s of RT (R450). While the digital die runs, a crystal that runs again brings the fast clocks
back, DT by R437, and the wire models decayed by the RT since their last update (R124). -/
def execXtal40Retry (runs : Bool) (s : State) : Out :=
  .next (onlyIf (s.pw.xtal40Bad && s.pw.xtal40RetryRt + 16384 ≤ s.rt) (fun s =>
    let s := modPw (fun w => { w with xtal40Bad := !runs, xtal40RetryRt := s.rt }) s
    if runs && s.pw.dieOn && !s.pw.clocks then
      let s := { s with dt := dtAgain s }
      let s := modPw (fun w => { w with clocks := true, pairDt := s.dt, pairRt := s.rt }) (decayAll s)
      (List.range 64).foldl (fun s n => applyLch n s) s
    else s) s)

/-- POWER_FAIL (R456). -/
def powerFailEvent (fell : Bool) (vbat : Nat) (s : State) : State :=
  emit s.pw.evtRing 0x3182 0x0F00 (b2n fell) (putF vbat 0 16) s

/-- RUN, IDLE or STANDBY with the digital die running. -/
def awake (s : State) : Bool := s.pw.dieOn && (s.pw.state == .run || s.pw.state == .idle || s.pw.state == .standby)

/-- PFW_FALL: R453. -/
def execPfwFall (vbat : Nat) (s : State) : Out :=
  .next (onlyIf (awake s && !s.pw.pfw) (fun s =>
    let s := heatExact (modPw (fun w => { w with pfw := true, vbat := vbat }) s)
    let s := hwWriteAll (s.hw.queue.length + s.hw.heldBack.length + 1) s
    sendVector 67 (powerFailEvent true vbat (raise 252 0xFFFF s))) s)

/-- PFW_RISE: R453, R456. -/
def execPfwRise (vbat : Nat) (s : State) : Out :=
  .next (onlyIf (awake s && s.pw.pfw) (fun s => powerFailEvent false vbat (modPw (fun w => { w with pfw := false, vbat := vbat }) s)) s)

/-- CRANK: below 6.0 V for 1 ms (R454). -/
def execCrank (x : HeldV) (s : State) : Out :=
  .next (onlyIf (awake s && x.v < 6000 && x.since + ms 1 ≤ s.dt && !s.pw.crank)
    (fun s => raise 253 0xFFFF (modPw (fun w => { w with crank := true, vbat := x.v }) s)) s)

end Sys2Proof.Machine
end

