-- ==== Sys2Proof/Machine/Update.lean ====
section
/-! DEFINITION. Nursery, image checks, grafting, trial (R468 to R482).
Readings of the spec: log entry 35, DEDUCED. -/

namespace Sys2Proof.Machine

/-- Copy size of a part in bytes (R474). -/
def partSize (p : Nat) : Nat := [0, 131072, 262144, 131072, 1572864, 65536].getD p 0

/-- xSPI address of a nursery slot (R468). -/
def slotAddr (s : State) (slot : Nat) : Nat := s.host.nursery * 65536 + 0x400000 * slot

/-- `n` bytes at offset `off` of a nursery slot. -/
def slotBytes (s : State) (slot off n : Nat) : List Byte :=
  let a := slotAddr s slot
  memBytes s.host.xspi[xspiCs a].mem (xspiOff a + off) n

/-- Little-endian value in a nursery slot. -/
def slotU (s : State) (slot off n : Nat) : Nat := ofLe (slotBytes s slot off n)

/-- The image offsets of a slot's manifest, unused ones left out (R469). -/
def imageOffsets (s : State) (slot : Nat) : List Nat := ((List.range 5).map fun i => slotU s slot (12 + 4 * i) 4).filter (· != 0)

/-- The manifest obeys R469. -/
def manifestOk (s : State) (slot : Nat) : Bool :=
  slotU s slot 0 4 == 0x54534E4D && slotU s slot 4 1 == 1 && 1 ≤ slotU s slot 5 1 && slotU s slot 5 1 ≤ 5 &&
  (slotBytes s slot 6 2 ++ slotBytes s slot 32 28).all (· == 0) && slotU s slot 60 4 == crc32 (slotBytes s slot 0 60) &&
  (imageOffsets s slot).length == slotU s slot 5 1 && (imageOffsets s slot).all (· % 4096 == 0)

/-- What R471 checks of one image: MAGIC, FORMAT, place within the slot. -/
def imageStructOk (s : State) (slot off : Nat) : Bool :=
  slotU s slot off 4 == 0x54465247 && slotU s slot (off + 4) 1 == 1 && off + 256 + slotU s slot (off + 28) 4 ≤ 0x400000

/-- Parts of a slot's images, in the order of the manifest. -/
def imageParts (s : State) (slot : Nat) : List Nat := (imageOffsets s slot).map fun o => slotU s slot (o + 5) 1

/-- A list rises strictly. -/
def rising : List Nat → Bool
  | a :: b :: l => a < b && rising (b :: l)
  | _ => true

/-- The first image that breaks R471, if any: MAGIC, FORMAT, place, ascending PART. -/
def badImage (s : State) (slot : Nat) : Option Nat :=
  let offs := imageOffsets s slot
  (List.range offs.length).find? fun i =>
    !imageStructOk s slot (offs.getD i 0) || (0 < i && (imageParts s slot).getD i 0 ≤ (imageParts s slot).getD (i - 1) 0)

/-- Header ranges of R470 beyond R471. -/
def imageHeaderOk (s : State) (slot off : Nat) : Bool :=
  let p := slotU s slot (off + 5) 1
  let size := slotU s slot (off + 28) 4
  1 ≤ p && p ≤ 5 && slotU s slot (off + 6) 1 ≤ 1 && slotU s slot (off + 7) 1 < 4 && size % 16 == 0 && size ≤ partSize p &&
    (slotBytes s slot (off + 32) 4 ++ slotBytes s slot (off + 104) 88).all (· == 0)

/-- The signature of an image verifies under the key its part needs (R472 check 2). -/
def imageSigned (s : State) (slot off : Nat) : Bool :=
  let p := slotU s slot (off + 5) 1
  let signer := slotU s slot (off + 6) 1
  let size := slotU s slot (off + 28) 4
  let e := sha256 (slotBytes s slot off 192 ++ slotBytes s slot (off + 256) size)
  let r := ofBe (slotBytes s slot (off + 192) 32)
  let t := ofBe (slotBytes s slot (off + 224) 32)
  if p ≤ 4 then signer == 0 && ecdsaOk (Config.romKey.toNat / 2 ^ 256) (Config.romKey.toNat % 2 ^ 256) e r t
  else signer == 1 && (match s.upd.key with | some k => ecdsaOk (ofBe (k.take 32)) (ofBe (k.drop 32)) e r t | none => false)

/-- Offset of the slot's image for a part, if it has one. -/
def imageFor (s : State) (slot p : Nat) : Option Nat := (imageOffsets s slot).find? fun o => slotU s slot (o + 5) 1 == p

/-- IFACE and REQ_MIN entry of part `p` as the graft would leave them (R472 check 5). -/
def newIface (s : State) (slot p : Nat) : Nat :=
  match imageFor s slot p with | some o => slotU s slot (o + 16) 2 | none => (at? s.upd.parts (p - 1)).elim 0 (·.iface)
def newReqMin (s : State) (slot p q : Nat) : Nat :=
  match imageFor s slot p with | some o => slotU s slot (o + 18 + 2 * (q - 1)) 2 | none => (at? s.upd.parts (p - 1)).elim 0 fun x => x.reqMin.getD (q - 1) 0

/-- The content key of an image (R470): unwrapped under key slot 4. -/
def contentKey (s : State) (slot off : Nat) : Option Nat :=
  let w := slotBytes s slot (off + 48) 24
  match (at? s.keys 4).join with
  | none => none
  | some k => (keyUnwrap k (ofBe (w.take 8)) [ofBe ((w.drop 8).take 8), ofBe (w.drop 16)]).map fun l => l.getD 0 0 * 2 ^ 64 + l.getD 1 0

/-- The first check of R472 that a slot fails. -/
def imageCheck (s : State) (slot : Nat) : Option Nat :=
  let offs := imageOffsets s slot
  let lvl := memLe (s.stg.copies[s.stg.marked]).tables[0] 16 1
  if !manifestOk s slot || (badImage s slot).isSome || !offs.all (imageHeaderOk s slot) then some 1
  else if !offs.all (imageSigned s slot) then some 2
  else if offs.any (fun o => slotU s slot (o + 12) 4 < (at? s.upd.parts (slotU s slot (o + 5) 1 - 1)).elim 0 (·.floor)) then some 3
  else if offs.any (fun o => !bitN (slotU s slot (o + 7) 1) (lvl - 1)) then some 4
  else if (List.range 5).any (fun p => (List.range 5).any fun q => p != q && newIface s slot (q + 1) < newReqMin s slot (p + 1) (q + 1)) then some 5
  else if offs.any (fun o => (contentKey s slot o).isNone) then some 6
  else none

/-- UPDATE record (R461, log entry 9, DESIGN CHOICE), with the reports that wait for it (R462). -/
def updRecord (kind setId part old new chk : Nat) (reports : List Report) (s : State) : State :=
  hwPut 0x0050 (leBytes 1 kind ++ leBytes 4 setId ++ leBytes 1 part ++ leBytes 4 old ++ leBytes 4 new ++ leBytes 1 chk) reports s

/-- Code of UPD_STAT.STATE (R482). -/
def updCode : UpdState → Nat
  | .idle => 0
  | .armed => 1
  | .grafting => 2
  | .trial => 3
  | .fellBack => 4

/-- UPD_OUTCOME with vector 70 behind it (R481). -/
def updOutcome (outcome chk ver : Nat) (s : State) : List Report :=
  [.event s.upd.evtRing 0x3881 0x0F00 (outcome + putF chk 4 4 + putF s.upd.setId 32 32) ver s.dt false, .vector 70]

/-- UPD_PROGRESS with vector 70 behind it (R481). -/
def updProgress (total : Nat) (s : State) : List Report :=
  [.event s.upd.evtRing 0x3880 0x0F00 (putF s.upd.part 0 3 + putF (updCode s.upd.state) 4 3 + putF s.upd.blocks 16 16) (putF total 0 16) s.dt false, .vector 70]

/-- Reports that no record holds back (R462). -/
def reportNow (l : List Report) (s : State) : State := l.foldl (fun s r => releaseReport r s) s

/-- The checks of a start reject the armed slot; `ver` is the new VERSION of the last part that its graft has flipped, 0 where
it has flipped none (R472, R476, R481). -/
def rejectSet (chk ver : Nat) (s : State) : State :=
  raise 24 0x0F00 (updRecord 3 s.upd.setId 0 0 0 chk (updOutcome 1 chk ver s) s)

/-- Change one part. -/
def setPart (p : Nat) (f : Part → Part) (s : State) : State := modUpd (fun u => { u with parts := updN u.parts (p - 1) f }) s

/-- A part's selector flips to its other copy. -/
def flipSel (a : Fin 2) : Fin 2 := if a.val == 0 then 1 else 0

/-- A selector flips to the newly written copy of `total` blocks (R475, R481). -/
def flipPart (slot p off total : Nat) (s : State) : State :=
  let old := (at? s.upd.parts (p - 1)).elim 0 (·.version)
  let ver := slotU s slot (off + 8) 4
  let reqs := (List.range 5).map fun q => slotU s slot (off + 18 + 2 * q) 2
  let f := fun x : Part =>
    { x with active := flipSel x.active, version := ver, iface := slotU s slot (off + 16) 2, reqMin := reqs,
             prevVersion := x.version, prevIface := x.iface, prevReqMin := x.reqMin }
  updRecord 4 s.upd.setId p old ver 0 (updProgress total s) (setPart p f (modUpd (fun u => { u with flipped := u.flipped ++ [p] }) s))

/-- New VERSION of the last part that this graft has flipped; 0 where it has flipped none (R481). -/
def lastFlipped (s : State) : Nat := (s.upd.flipped.getLast?.bind fun p => at? s.upd.parts (p - 1)).elim 0 (·.version)

/-- The graft or trial falls back (R477, R478). -/
def fallBack (s : State) : State :=
  let back := fun x : Part => { x with active := flipSel x.active, version := x.prevVersion, iface := x.prevIface, reqMin := x.prevReqMin }
  let ver := lastFlipped s
  let s := s.upd.flipped.foldl (fun s p => setPart p back s) s
  let s := modUpd (fun u => { u with state := .fellBack, flipped := [], progress := none, part := 0, blocks := 0 }) s
  raise 25 0x0F00 (updRecord 5 s.upd.setId 0 0 0 0 (updOutcome 2 0 ver s) s)

/-- Part to graft after `p`: the next image in PART order. -/
def nextPart (s : State) (p : Nat) : Option Nat := (imageParts s s.upd.armedSlot).find? fun q => p < q

/-- One 4 KiB block is decrypted into the inactive copy, with its progress record; after the last block the digest is
compared and the selector flips, or the graft falls back (R475 to R477). True: the graft has ended. -/
def graftBlock (writeOk : Bool) (s : State) : Bool × State :=
  let u := s.upd
  let slot := u.armedSlot
  match imageFor s slot u.part, (at? u.parts (u.part - 1)) with
  | some off, some part =>
    if !writeOk then (true, fallBack s)
    else
      let size := slotU s slot (off + 28) 4
      let total := (size + 4095) / 4096
      let n := min 4096 (size - 4096 * u.blocks)
      let key := (contentKey s slot off).getD 0
      let plain := aesCtr key (ofBe (slotBytes s slot (off + 36) 12)) 256 (256 * u.blocks) (slotBytes s slot (off + 256 + 4096 * u.blocks) n)
      let tgt := flipSel part.active
      let s := setPart u.part (fun x => { x with copies := upd x.copies tgt fun m => memWriteL m (4096 * u.blocks) plain }) s
      let s := modUpd (fun u => { u with blocks := u.blocks + 1, progress := some (u.setId, u.part, u.blocks + 1) }) s
      let s := if s.upd.blocks % 64 == 0 then reportNow (updProgress total s) s else s
      if s.upd.blocks < total then (false, s)
      else
        let copy := match at? s.upd.parts (u.part - 1) with | some x => memBytes x.copies[tgt] 0 size | none => []
        if sha256 copy != ofBe (slotBytes s slot (off + 72) 32) then (true, fallBack s)
        else
          let s := flipPart slot u.part off total s
          match nextPart s u.part with
          | some q => (false, modUpd (fun u => { u with part := q, blocks := 0, progress := some (u.setId, q, 0) }) s)
          | none =>
            let s := modUpd (fun u => { u with state := .trial, progress := none, trialStart := s.dt, part := 0, blocks := 0 }) s
            (true, reportNow (updOutcome 3 0 (slotU s slot (off + 8) 4) s) s)
  | _, _ => (true, fallBack s)

/-- A graft is in progress for R73, R378, R440 and R480: grafting or on trial. -/
def graftRuns (s : State) : Bool := s.upd.state == .grafting || s.upd.state == .trial

/-- A slot is armed. -/
def slotArmed (s : State) (slot : Nat) : Bool := s.upd.state == .armed && s.upd.armedSlot == slot

/-- UPD_STAT (R482). -/
def updStat (s : State) : Nat :=
  putF (updCode s.upd.state) 29 3 + putF s.upd.part 26 3 + putF s.upd.armedSlot 25 1 + putF (b2n s.upd.key.isSome) 24 1 + putF s.upd.blocks 0 16

/-- What UPD_WRITE asks of its descriptor. -/
def updWriteForm (s : State) (d : Desc) : OpForm :=
  { idem := true, used := pm 16 64 + pm 24 8 + pm 28 32, plenOk := fun p => 4 ≤ p && p % 4 == 0, form := d.u 28 32 % 4 == 0,
    range := d.device && d.u 24 8 < 2 && d.u 28 32 + d.plen ≤ 0x400000 && (hostAddressed s d || inSram (d.u 16 64) d.plen),
    state := !s.upd.nurseryFail && !graftRuns s && !slotArmed s (d.u 24 8) }

/-- UPD_WRITE: R468, R480. -/
def execUpdWrite (o : Origin) (b : BlockStep) (s : State) : Out :=
  runBlock o 0x3810 b
    updWriteForm
    (fun d uid bs s =>
      let a := slotAddr s (d.u 24 8) + d.u 28 32
      finish uid 0 d.plen (xspiMem (xspiCs a) (fun m => memWriteL m (xspiOff a) bs) s)) s

/-- What UPD_ARM asks of its descriptor. -/
def updArmForm (s : State) (d : Desc) : OpForm :=
  { idem := true, used := pm 24 8, range := d.device && d.u 24 8 < 2,
    state := !s.upd.nurseryFail && !graftRuns s && !slotArmed s (d.u 24 8) }

/-- UPD_ARM: R471, R480. -/
def execUpdArm (o : Origin) (s : State) : Out :=
  runOut o 0x3811
    updArmForm
    (fun d uid s =>
      let slot := d.u 24 8
      if slotU s slot 60 4 != crc32 (slotBytes s slot 0 60) then finishFree uid 0x0A s
      else match badImage s slot with
        | some i => finish uid 0x0A (slotU s slot 8 4 + putF i 32 3) s
        | none =>
          let id := slotU s slot 8 4
          let s := modUpd (fun u => { u with state := .armed, armedSlot := slot, setId := id, flipped := [], part := 0, blocks := 0 }) s
          let n := (imageOffsets s slot).length
          finishRecorded 0x0050 (leBytes 1 1 ++ leBytes 4 id) (some d.session) uid 0 (id + putF n 32 3) s) s

/-- What UPD_DISARM asks of its descriptor. -/
def updDisarmForm (s : State) (d : Desc) : OpForm :=
  { idem := true, used := pm 24 8, range := d.device && d.u 24 8 < 2, state := !s.upd.nurseryFail && !graftRuns s }

/-- UPD_DISARM: R471, R480. -/
def execUpdDisarm (o : Origin) (s : State) : Out :=
  runOut o 0x3812
    updDisarmForm
    (fun d uid s =>
      if slotArmed s (d.u 24 8) then
        finishRecorded 0x0050 (leBytes 1 2 ++ leBytes 4 s.upd.setId) (some d.session) uid 0 0 (modUpd (fun u => { u with state := .idle }) s)
      else finish uid 0 0 s) s

/-- What UPD_QUERY asks of its descriptor. -/
def updQueryForm (_ : State) (d : Desc) : OpForm :=
  { idem := true, range := d.device }

/-- UPD_QUERY: R480. -/
def execUpdQuery (o : Origin) (s : State) : Out :=
  runOut o 0x3813 updQueryForm (fun _ uid s => finish uid 0 (updStat s + 2 ^ 32 * s.upd.lastSetId) s) s

/-- A set on trial is confirmed (R478). -/
def confirmSet (session : Nat) (reports : List Report) (s : State) : State :=
  let slot := s.upd.armedSlot
  let ver := lastFlipped s
  let floors := fun (i : Fin 5) (x : Part) => match imageFor s slot (i.val + 1) with | some o => { x with floor := max x.floor (slotU s slot (o + 12) 4) } | none => x
  let s := modUpd (fun u => { u with state := .idle, parts := mapFin u.parts floors, flipped := [], spent := slot :: u.spent.filter (· != slot) }) s
  hwPut 0x0050 (leBytes 1 6 ++ leBytes 4 s.upd.setId) (updOutcome 0 0 ver s ++ reports) s (some session)

/-- What UPD_CONFIRM asks of its descriptor. -/
def updConfirmForm (s : State) (d : Desc) : OpForm :=
  { idem := true, range := d.device, state := !s.upd.nurseryFail && s.upd.state == .trial }

/-- UPD_CONFIRM: R478, R480. -/
def execUpdConfirm (o : Origin) (s : State) : Out :=
  runOut o 0x3814 updConfirmForm
    (fun d uid s => finishGated uid 0 s.upd.setId (confirmSet d.session [.completion uid] s)) s

/-- What UPD_REJECT asks of its descriptor. -/
def updRejectForm (s : State) (d : Desc) : OpForm :=
  { idem := true, range := d.device, state := !s.upd.nurseryFail && s.upd.state == .trial }

/-- UPD_REJECT: R478, R480. -/
def execUpdReject (o : Origin) (s : State) : Out :=
  runOut o 0x3815 updRejectForm
    (fun _ uid s => finish uid 0 s.upd.setId (modFlt (fun f => { f with resetDue := some (s.dt + ms 1, .trialTimeout) }) s)) s

/-- What UPD_KEY_SET asks of its descriptor. -/
def updKeySetForm (s : State) (d : Desc) : OpForm :=
  { used := pm 16 64, plenOk := fun p => p == 64 || p == 128,
    range := d.device && (hostAddressed s d || inSram (d.u 16 64) d.plen), state := !s.upd.nurseryFail }

/-- UPD_KEY_SET: R473, R480. -/
def execUpdKeySet (o : Origin) (b : BlockStep) (s : State) : Out :=
  runBlock o 0x3816 b
    updKeySetForm
    (fun d uid bs s =>
      let key := bs.take 64
      let h := sha256 key
      let ok := match s.upd.key with
        | none => true
        | some k => d.plen == 128 && ecdsaOk (ofBe (k.take 32)) (ofBe (k.drop 32)) h (ofBe ((bs.drop 64).take 32)) (ofBe (bs.drop 96))
      if ok then
        finishRecorded 0x0050 (leBytes 1 7) (some d.session) uid 0 (ofLe ((beBytes 32 h).take 3)) (modUpd (fun u => { u with key := some key }) s)
      else finishFree uid 0x08 s) s

/-- TRIAL_TIMEOUT: 600 s of DT without confirmation; the device reset is due (R478). -/
def execTrialTimeout (s : State) : Out :=
  .next (whenOn (onlyIf (s.upd.state == .trial && s.upd.trialStart + sec 600 ≤ s.dt && s.flt.resetDue.isNone)
    (modFlt fun f => { f with resetDue := some (s.dt, .trialTimeout) })) s)

end Sys2Proof.Machine
end

