-- ==== Sys2Proof/Machine/Commit.lean ====
section
/-! DEFINITION. How a commit or check is asked for: COMMIT, COMMIT_CHECK, STG_CTRL, the runtime's own commit (R66, R67,
R71 to R73, R449).
Readings of the spec: log entry 12, DEDUCED. -/

namespace Sys2Proof.Machine

/-- The device is in no condition to check or commit (R73). -/
def commitBarred (s : State) : Bool :=
  !(s.pw.state == .run || s.pw.state == .idle) || s.flt.c3 || handoverRuns s || graftRuns s

/-- A commit or check is accepted (R66): the staged tables in the committed set are the new set (R68). -/
def acceptCommit (who : CommitWho) (session : Nat) (checkOnly : Bool) (tick : Nat) (s : State) : State :=
  let old := if (committedSet s).valid then (committedSet s).tables else Vector.replicate 16 []
  let new := mapFin old fun i m => match s.stg.staged[i] with | some x => x.bytes | none => m
  let wrote := fun n => s.stg.staged.toList.any fun x => match x with | some y => y.writer == some n | none => false
  modStg (fun g => { g with run := some { who := who, session := session, checkOnly := checkOnly, t0 := s.dt, stepAt := s.dt, reqTick := tick,
                                           newSet := new, tableMap := stagedMap s,
                                           writers := ((List.range 4).map fun n => if wrote n then 2 ^ n else 0).foldl (· + ·) 0 } }) s

/-- What COMMIT_CHECK asks of its descriptor. -/
def commitCheckForm (s : State) (d : Desc) : OpForm :=
  { idem := true, range := d.device, state := !stgLocked s && !commitBarred s }

/-- COMMIT_CHECK: R66, R69, R71, R73. One that R40 refuses is no check with a result and writes no COMMIT record (log entry
12, DESIGN CHOICE). -/
def execCommitCheck (o : Origin) (s : State) : Out :=
  runOut o 0x0200 commitCheckForm
    (fun d uid => acceptCommit (.desc uid) d.session true 0) s

/-- What COMMIT asks of its descriptor. -/
def commitForm (s : State) (d : Desc) : OpForm :=
  { used := pm 16 64 + pm 24 32, range := d.device && (d.u 16 64 == 0 || d.u 16 64 ≤ s.dt + sec 10)
    state := !stgLocked s && !commitBarred s && d.u 24 32 == s.stg.seq }

/-- COMMIT: R66, R71 to R73. One that R40 refuses is no commit with a result and writes no COMMIT record (log entry 12,
DESIGN CHOICE). -/
def execCommit (o : Origin) (s : State) : Out :=
  runOut o 0x0201
    commitForm
    (fun d uid => acceptCommit (.desc uid) d.session false (d.u 16 64)) s

/-- A register commit or check (R67): refused, its status shows in STG_STAT. -/
def regCommit (checkOnly : Bool) (s : State) : State :=
  if commitBarred s then modStg (fun g => { g with statCheck := 0, statTable := 0, statStatus := 0x0C }) s
  else acceptCommit .regs s.stg.ctrlSession checkOnly 0 s

/-- DISCARD of STG_CTRL (R64, R67, R85). -/
def regDiscard (s : State) : State :=
  let l := namedTables s.stg.ctrlTable 0xFF
  if l.isEmpty then s
  else hwPut 0x0010 (stagePayload 0x0102 (if s.stg.ctrlTable == 0xFF then 0xFFFF else s.stg.ctrlTable) 0 0) [] (discardTables l s) (some s.stg.ctrlSession)

/-- A write of STG_CTRL (R67). -/
def stgCtrlWrite (v : Nat) (s : State) : State :=
  let s := modStg (fun g => { g with ctrlSession := fld v 24 2, ctrlTable := fld v 0 8 }) s
  let commit := bitN v 31
  let check := bitN v 30
  let discard := bitN v 29
  if !(commit || check || discard) then s
  else
  let s := if sessionOpen s s.stg.ctrlSession then touchSession s.stg.ctrlSession s else s
  if stgLocked s || !sessionOpen s s.stg.ctrlSession then
    modStg (fun g => { g with lockIgn := g.lockIgn || stgLocked s, noSes := g.noSes || !sessionOpen s g.ctrlSession }) s
  else
    let s := if discard then regDiscard s else s
    if commit || check then regCommit (!commit) s else s

/-- STG_CTRL_COMMIT: R67. -/
def execStgCtrlCommit (v : Word) (s : State) : Out := .next (whenOn (onlyIf (bitN v.toNat 31) fun s => stgCtrlWrite v.toNat (hostAccess 0x40092000 4 s)) s)

/-- STG_CTRL_CHECK: R67. -/
def execStgCtrlCheck (v : Word) (s : State) : Out := .next (whenOn (onlyIf (bitN v.toNat 30) fun s => stgCtrlWrite v.toNat (hostAccess 0x40092000 4 s)) s)

/-- STG_CTRL_DISCARD: R67. -/
def execStgCtrlDiscard (v : Word) (s : State) : Out := .next (whenOn (onlyIf (bitN v.toNat 29) fun s => stgCtrlWrite v.toNat (hostAccess 0x40092000 4 s)) s)

/-- The runtime is to commit the stored set of itself and has not yet tried to (R449). -/
def autoDue (s : State) : Bool := s.pw.autoCommit && s.pw.ready && !s.stg.inForce && !s.stg.autoTried && sessionOpen s 2

/-- With a set on trial the runtime first confirms it, unless a source of effective class C2 or C3 is sticky: then it
leaves it to host software, and commits nothing (R479). -/
def autoConfirm (s : State) : State :=
  if !(autoDue s && s.upd.state == .trial) then s
  else if s.flt.srcs.toList.any (fun x => x.sticky && 2 ≤ x.eff) then modStg (fun g => { g with autoTried := true }) s
  else confirmSet 2 [] s

/-- The auto-commit is accepted: the staging area holds the stored set, nothing bars a commit, and a host's link is up. -/
def autoAccepts (s : State) : Bool :=
  autoDue s && s.stg.storedOk && !stgLocked s && !commitBarred s && (s.host.selfHosted || (s.host.linkUp && !s.host.l0Late))

/-- AUTO_COMMIT: the stored set is committed in session 2 with apply tick 0, once per start (R449, R479). -/
def execAutoCommit (s : State) : Out :=
  .next (whenOn (fun s =>
    let s := autoConfirm s
    onlyIf (autoAccepts s) (fun s => acceptCommit .auto 2 false 0 (modStg (fun g => { g with autoTried := true }) s)) s) s)

end Sys2Proof.Machine
end

