-- ==== Sys2Proof/Machine/Checks.lean ====
section
/-! DEFINITION. The consistency check of a set, checks 1 to 7 and 9 (R68, R517, R518) with the rules of the chapters that own the
tables. Entries are numbered within their kind; a block is the table as a whole.
Readings of the spec: log entry 12, DEDUCED. -/

namespace Sys2Proof.Machine

/-- `n` bytes at offset `off` of table `t` of a set. -/
def tu (ts : Vector Mem 16) (t off n : Nat) : Nat := memLe ((at? ts (t - 1)).getD []) off n

/-- `lo ≤ x ≤ hi`. -/
def within (x lo hi : Nat) : Bool := lo ≤ x && x ≤ hi
/-- A ring field: 0 to 63, or 0xFF. -/
def ringOk (x : Nat) : Bool := x < 64 || x == 0xFF
/-- A field that is a number below `n`, or 0xFF. -/
def noneOr (x n : Nat) : Bool := x < n || x == 0xFF

/-- The table as a whole (R70). -/
def wholeTable : Nat := 0xFFFF

/-- Entries of `n` that break a rule. -/
def badOf (n : Nat) (bad : Nat → Bool) : List Nat := (List.range n).filter bad
/-- The table as a whole breaks one. -/
def badWhole (bad : Bool) : List Nat := if bad then [wholeTable] else []

/-- The first failure among tables in order of their ID, with its lowest entry (R68). -/
def firstBad (check detail : Nat) : List (Nat × List Nat) → Option CheckFail
  | [] => none
  | (t, l) :: r =>
    match l with
    | [] => firstBad check detail r
    | x :: xs => some { check := check, table := t, entry := xs.foldl min x, detail := detail }

/-! ### Check 1 -/

/-- Length of a table by its fields, where it is not fixed (R517). -/
def lengthOk (ts : Vector Mem 16) (t len : Nat) : Bool :=
  match t with
  | 0x01 => len == 32
  | 0x02 => len == 2064
  | 0x03 => (len - 16) % 4 == 0 && within len 16 (16 + 4 * 24)
  | 0x04 => len == 2064
  | 0x05 => len == 656
  | 0x06 => len == 832
  | 0x07 => len == 1168
  | 0x08 => len == 544
  | 0x09 => len == 288
  | 0x0A => len == 48 + 8 * ((List.range 8).map fun c => tu ts 0x0A (16 + 4 * c) 4).foldl (· + ·) 0
  | 0x0B => len == 2592 + 8 * tu ts 0x0B 2576 4
  | 0x0C => len == 32 + 32 * tu ts 0x0C 28 4
  | 0x0D => len == 1056
  | 0x0E => len == 320
  | 0x0F => len == 4128
  | _ => len == 192

/-- A table's header: ID, version, length, CRC-32 (R60, R517). -/
def headerOk (ts : Vector Mem 16) (t : Nat) : Bool :=
  let len := tu ts t 4 4
  tu ts t 0 2 == t && tu ts t 2 2 == 1 && len ≤ tableMax t && lengthOk ts t len &&
    tu ts t 8 4 == crc32 (memBytes ((at? ts (t - 1)).getD []) 16 (len - 16))

def check1 (ts : Vector Mem 16) : Option CheckFail :=
  firstBad 1 0 ((List.range 16).map fun i => (i + 1, badWhole (!headerOk ts (i + 1))))

/-! ### Check 2 -/

def check2 (ts : Vector Mem 16) : Option CheckFail :=
  firstBad 2 0 [(1, badWhole (!within (tu ts 1 16 1) 1 2 || tu ts 1 17 1 != 0 || tu ts 1 20 12 != 0))]

/-! ### What several checks ask -/

/-- Gangs of a set: entry, leader, members (R92). -/
def gangsOf (ts : Vector Mem 16) : List (Nat × Nat × Nat) :=
  ((List.range ((tu ts 3 4 4 - 16) / 4)).map fun i => (i, tu ts 3 (16 + 4 * i) 1, tu ts 3 (17 + 4 * i) 1)).filter fun g => g.2.2 != 0
/-- A gang member that is not the leader. -/
def memberIn (ts : Vector Mem 16) (n : Nat) : Bool := (gangsOf ts).any fun g => g.2.1 < n && n < g.2.1 + g.2.2
def lchOn (ts : Vector Mem 16) (n : Nat) : Bool := bitN (tu ts 2 (16 + 32 * n) 1) 0
/-- A channel whose entries are judged in full (R518). -/
def lchJudged (ts : Vector Mem 16) (n : Nat) : Bool := lchOn ts n && !memberIn ts n
/-- Nominal current that a channel or gang may declare, 10 mA steps (R110). -/
def nomOf (ts : Vector Mem 16) (n : Nat) : Nat := classNom n / 10 * ((gangsOf ts).find? fun g => g.2.1 == n).elim 1 (·.2.2)
def canOn (ts : Vector Mem 16) (c : Nat) : Bool := c < 8 && bitN (tu ts 9 (16 + 32 * c) 1) 0
def linOn (ts : Vector Mem 16) (n : Nat) : Bool := n < 8 && bitN (tu ts 0x0B (16 + 32 * n) 1) 0
/-- An enabled input that is not a ladder. -/
def plainInput (ts : Vector Mem 16) (n : Nat) : Bool := n < 48 && fld (tu ts 7 (16 + 16 * n) 1) 0 1 == 1 && !bitN (tu ts 7 (16 + 16 * n) 1) 2
/-- A base-format identifier with bits above [10:0]. -/
def badBase (w : Nat) : Bool := !bitN w 29 && fld w 11 18 != 0

/-! ### Check 3 -/

/-- Table 0x03: a member beyond the channels. -/
def bad3Gangs (ts : Vector Mem 16) : List Nat := ((gangsOf ts).filter fun g => 64 < g.2.1 + g.2.2).map (·.1)

/-- Table 0x05: half-bridge entries (R161, R162). -/
def badHb (ts : Vector Mem 16) (h : Nat) : Bool :=
  let u := fun o n => tu ts 5 (16 + 8 * h + o) n
  let f := u 0 1
  let inUse := fld f 1 2
  let used := (List.range 16).any fun j => let b := 144 + 32 * j; tu ts 5 (b + 2) 1 != 0 && (tu ts 5 b 1 == h || tu ts 5 (b + 1) 1 == h)
  fld f 5 3 != 0 || fld (u 6 2) 12 4 != 0 ||
    (bitN f 0 && (inUse == 3 || !ringOk (u 1 1) || (inUse < 2 && (1200 < u 2 2 || !(u 4 2 == 0 || within (u 4 2) 1000 25000))) || (inUse == 2 && !used)))
/-- Bridges among whose legs a half-bridge stands. -/
def legCount (ts : Vector Mem 16) (h side : Nat) : Nat :=
  ((List.range 16).filter fun j => tu ts 5 (146 + 32 * j) 1 != 0 && tu ts 5 (144 + 32 * j + side) 1 == h).length
/-- Table 0x05: bridge entries (R144, R161, R162). -/
def badBridge (ts : Vector Mem 16) (j : Nat) : Bool :=
  let u := fun o n => tu ts 5 (144 + 32 * j + o) n
  let a := u 0 1
  let b := u 1 1
  let kind := u 2 1
  let f := u 3 1
  let freq := u 4 2
  let leg := fun h => h < 16 && fld (tu ts 5 (16 + 8 * h) 1) 0 3 == 5
  fld f 3 5 != 0 || fld (u 26 2) 12 3 != 0 || u 29 3 != 0 ||
    (kind != 0 &&
      (5 < kind || !leg a || !leg b || a == b || a / 8 != b / 8 ||
       1 < legCount ts a 0 || 0 < legCount ts a 1 || 3 < legCount ts b 1 || 0 < legCount ts b 0 ||
       !(freq == 0 || within freq 1000 25000) || 1200 < u 6 2 || !within (u 8 2) 50 3000 || !within (u 10 2) 10 2000 || u 12 2 == 0 ||
       !within (u 18 2) 20 1000 || u 20 2 == 0 || !noneOr (u 22 1) 48 || !within (u 23 1) 10 250 || !within (u 24 2) 10 2000 || !ringOk (u 28 1) ||
       (kind == 3 && u 22 1 == 0xFF) || (bitN f 1 && (kind != 2 || !bitN f 0)) || u 14 2 ≤ u 16 2 || u 12 2 < u 14 2 || (bitN f 0 && within freq 1000 15999)))

/-- Table 0x07: inputs (R212, R213). -/
def badInput (ts : Vector Mem 16) (n : Nat) : Bool :=
  let u := fun o k => tu ts 7 (16 + 16 * n + o) k
  let f := u 0 1
  fld f 6 2 != 0 || fld (u 1 1) 2 6 != 0 || u 10 6 != 0 ||
    (bitN f 0 &&
      (!within (u 2 1) 16 240 || 32 < u 3 1 || !within (u 5 1) 1 50 || !ringOk (u 6 1) || !noneOr (u 7 1) 8 || 3600 < u 8 2 ||
       (bitN f 2 && (bitN f 1 || 1 < u 1 1 || bitN f 3 || u 7 1 == 0xFF))))
/-- Mask of an enabled poll group, 0 of another. -/
def pollMask (ts : Vector Mem 16) (g : Nat) : Nat := if bitN (tu ts 7 (784 + 16 * g + 10) 1) 0 then tu ts 7 (784 + 16 * g) 6 else 0
/-- Table 0x07: poll groups. -/
def badPoll (ts : Vector Mem 16) (g : Nat) : Bool :=
  let u := fun o k => tu ts 7 (784 + 16 * g + o) k
  let m := pollMask ts g
  fld (u 10 1) 2 6 != 0 || u 11 5 != 0 ||
    (bitN (u 10 1) 0 &&
      (u 6 2 < 16 || !within (u 8 1) 1 8 || !within (u 9 1) 1 4 || ((List.range 48).any fun i => bitN m i && !plainInput ts i) ||
       ((List.range 8).any fun h => h != g && Nat.land (pollMask ts h) m != 0)))
/-- Table 0x07: a band set (R213). -/
def badBands (ts : Vector Mem 16) (b : Nat) : Bool :=
  let lo := fun i => tu ts 7 (912 + 32 * b + 4 * i) 2
  let hi := fun i => tu ts 7 (914 + 32 * b + 4 * i) 2
  let used := fun i => lo i ≤ hi i
  (List.range 8).any fun i => fld (lo i) 12 4 != 0 || fld (hi i) 12 4 != 0 ||
    (used i && (List.range i).any fun j => used j && lo i ≤ hi j && lo j ≤ hi i)
/-- Wetting currents of the enabled inputs, in mA (R198, R213). -/
def wetSum (ts : Vector Mem 16) : Nat :=
  ((List.range 48).map fun n => if bitN (tu ts 7 (16 + 16 * n) 1) 0 then [1, 2, 10, 15].getD (fld (tu ts 7 (17 + 16 * n) 1) 0 2) 0 else 0).foldl (· + ·) 0

/-- Table 0x08: channels (R234, R235). -/
def badField (ts : Vector Mem 16) (c : Nat) : Bool :=
  let u := fun o k => tu ts 8 (32 + 16 * c + o) k
  let f := u 0 1
  let func := fld f 2 2
  bitN f 7 || fld (u 1 1) 2 6 != 0 || u 15 1 != 0 ||
    (bitN f 0 &&
      (func == 3 || !ringOk (u 3 1) ||
       (if bitN f 1 then func != 0 || !within (u 10 2) 1 50 || u 10 2 ≤ u 12 2 || 15 < u 14 1
        else bitN f 5 || bitN f 6 || (func == 2 && 10000 < u 4 2) || (func == 1 && (!within (u 6 2) 5 100 || !within (u 8 2) 10 1000)))))
/-- Table 0x08: the block and the sum of the outputs. -/
def badFieldBlock (ts : Vector Mem 16) : Bool :=
  tu ts 8 16 2 == 0 || !ringOk (tu ts 8 18 1) || tu ts 8 19 13 != 0 ||
    1000 < ((List.range 32).map fun c => if fld (tu ts 8 (32 + 16 * c) 1) 0 2 == 3 then tu ts 8 (42 + 16 * c) 2 else 0).foldl (· + ·) 0

/-- Nominal and data bit time of a controller in clock cycles (R240). -/
def nomCycles (ts : Vector Mem 16) (c : Nat) : Nat := tu ts 9 (20 + 32 * c) 1 * (1 + tu ts 9 (21 + 32 * c) 1 + tu ts 9 (22 + 32 * c) 1)
def dataCycles (ts : Vector Mem 16) (c : Nat) : Nat := tu ts 9 (24 + 32 * c) 1 * (1 + tu ts 9 (25 + 32 * c) 1 + tu ts 9 (26 + 32 * c) 1)
/-- Table 0x09: controllers (R240, R267, R268). -/
def badCan (ts : Vector Mem 16) (c : Nat) : Bool :=
  let u := fun o k => tu ts 9 (16 + 32 * c + o) k
  let f := u 0 1
  u 17 15 != 0 ||
    (bitN f 0 &&
      (!ringOk (u 1 1) || !ringOk (u 2 1) || !ringOk (u 3 1) || !within (u 4 1) 1 32 || u 5 1 < 2 || !within (u 6 1) 1 128 || !within (u 7 1) 1 (min 128 (u 6 1)) ||
       !within (1 + u 5 1 + u 6 1) 8 384 || nomCycles ts c < 80 ||
       !within (u 8 1) 1 (if bitN f 3 then 2 else 32) || !within (u 9 1) 1 32 || !within (u 10 1) 1 16 || !within (u 11 1) 1 (min 16 (u 10 1)) ||
       !within (1 + u 9 1 + u 10 1) 5 49 || dataCycles ts c < 10 || nomCycles ts c < dataCycles ts c ||
       127 < u 12 1 || 126 < u 13 1 || 10000 < u 14 2 || u 16 1 == 0 || (bitN f 2 && !bitN f 1) || (dataCycles ts c < 40 && !bitN f 3)))
/-- Table 0x09: the diagnostic block; its identifiers are judged where it names a controller. -/
def badDiag (ts : Vector Mem 16) : Bool :=
  let d := tu ts 9 272 1
  tu ts 9 273 3 != 0 || tu ts 9 284 4 != 0 || fld (tu ts 9 276 4) 30 2 != 0 || fld (tu ts 9 280 4) 30 2 != 0 ||
    tu ts 9 276 4 == tu ts 9 280 4 || (d != 0xFF && (!canOn ts d || !bitN (tu ts 9 (16 + 32 * d) 1) 1))

/-- Entries of a controller's list: index in the table, first word, mask word (R242). -/
def listCount (ts : Vector Mem 16) (c : Nat) : Nat := tu ts 0x0A (16 + 4 * c) 4
def listFirst (ts : Vector Mem 16) (c : Nat) : Nat := ((List.range c).map (listCount ts)).foldl (· + ·) 0
/-- Table 0x0A: a list entry `i` of controller `c`. -/
def badListed (ts : Vector Mem 16) (c i : Nat) : Bool :=
  let w := tu ts 0x0A (48 + 8 * i) 4
  let m := tu ts 0x0A (52 + 8 * i) 4
  bitN w 31 || fld m 29 3 != 0 || (!bitN w 29 && (fld w 11 18 != 0 || fld m 11 18 != 0)) || tu ts 9 (18 + 32 * c + fld w 30 1) 1 == 0xFF
def badLists (ts : Vector Mem 16) : List Nat :=
  ((List.range 8).map fun c => ((List.range (listCount ts c)).map (· + listFirst ts c)).filter (badListed ts c)).flatten ++
    badWhole ((List.range 8).any fun c => 4096 < listCount ts c)

/-! #### Table 0x0B (R284, R285) -/

def linIn (ts : Vector Mem 16) (n o k : Nat) : Nat := tu ts 0x0B (16 + 32 * n + o) k
def schedAt (ts : Vector Mem 16) (h : Nat) : Nat := tu ts 0x0B (272 + 4 * h) 2
def schedLen (ts : Vector Mem 16) (h : Nat) : Nat := tu ts 0x0B (274 + 4 * h) 2
/-- DIR and LEN of a frame of a commander; frames 0x3C and 0x3D are fixed (R284). -/
def frameDir (ts : Vector Mem 16) (n id : Nat) : Nat := if id < 60 then tu ts 0x0B (528 + 4 * (64 * n + id)) 1 else if id == 0x3C then 1 else if id == 0x3D then 2 else 0
def frameLen (ts : Vector Mem 16) (n id : Nat) : Nat := if id < 60 then tu ts 0x0B (529 + 4 * (64 * n + id)) 1 else 8
def linSlotIn (ts : Vector Mem 16) (i o k : Nat) : Nat := tu ts 0x0B (2592 + 8 * i + o) k
def slotCount (ts : Vector Mem 16) : Nat := tu ts 0x0B 2576 4

def badCommander (ts : Vector Mem 16) (n : Nat) : Bool :=
  let f := linIn ts n 0 1
  fld f 2 6 != 0 || linIn ts n 1 1 != 0 || linIn ts n 9 23 != 0 ||
    (bitN f 0 && (!within (linIn ts n 2 2) 1000 20000 || !ringOk (linIn ts n 4 1) || !ringOk (linIn ts n 5 1) || !noneOr (linIn ts n 6 1) 8 || linIn ts n 7 1 == 0 || !within (linIn ts n 8 1) 13 26))
def badSched (ts : Vector Mem 16) (h : Nat) : Bool := schedLen ts h != 0 && slotCount ts < schedAt ts h + schedLen ts h
def badFrame (ts : Vector Mem 16) (d : Nat) : Bool :=
  let u := fun o k => tu ts 0x0B (528 + 4 * d + o) k
  d % 64 < 60 && (fld (u 2 1) 1 7 != 0 || u 3 1 != 0 || 2 < u 0 1 || (u 0 1 != 0 && !within (u 1 1) 1 8))
/-- Identifiers that a sporadic slot names. -/
def sporadicIds (ts : Vector Mem 16) (i : Nat) : List Nat := ((List.range 4).map fun j => linSlotIn ts i (4 + j) 1).filter (· != 0xFF)
/-- Commanders whose schedules hold a slot. -/
def slotUsers (ts : Vector Mem 16) (i : Nat) : List Nat :=
  (List.range 8).filter fun n => (List.range 8).any fun k => let h := 8 * n + k; schedAt ts h ≤ i && i < schedAt ts h + schedLen ts h
/-- The slot's KIND cannot use its frame on commander `n`, its SLOT_MS is too short, or its collision schedule will not do. -/
def badSlotOn (ts : Vector Mem 16) (i n : Nat) : Bool :=
  let fid := linSlotIn ts i 0 1
  let kind := linSlotIn ts i 1 1
  let frames := match kind with
    | 0 => frameDir ts n fid != 0
    | 1 => frameDir ts n fid == 2
    | 2 => (sporadicIds ts i).all fun x => frameDir ts n x == 1
    | 3 => fid == 0x3C
    | 4 => fid == 0x3D
    | _ => false
  let len := if kind == 2 then (sporadicIds ts i).foldl (fun m x => max m (frameLen ts n x)) 0 else frameLen ts n fid
  let rate := linIn ts n 2 2
  let tight := linOn ts n && rate != 0 && linSlotIn ts i 2 2 < (1400 * (linIn ts n 8 1 + 21 + 10 * (len + 1)) + rate - 1) / rate
  let c := linSlotIn ts i 4 1
  let coll := kind == 1 && c != 0xFF &&
    (7 < c || schedLen ts (8 * n + c) == 0 || (List.range (schedLen ts (8 * n + c))).any fun j => linSlotIn ts (schedAt ts (8 * n + c) + j) 1 1 == 1)
  !frames || tight || coll
/-- A slot, in a schedule or not (R518): FID, KIND and ARG against their ranges and each other, then each commander that uses it. -/
def badSlot (ts : Vector Mem 16) (i : Nat) : Bool :=
  let fid := linSlotIn ts i 0 1
  let kind := linSlotIn ts i 1 1
  0x3D < fid || 4 < kind || !within (linSlotIn ts i 2 2) 1 1000 || (kind == 3 && fid != 0x3C) || (kind == 4 && fid != 0x3D) ||
    (kind == 1 && !noneOr (linSlotIn ts i 4 1) 8) || (kind == 2 && (sporadicIds ts i).any (0x3D < ·)) || (slotUsers ts i).any (badSlotOn ts i)
def badLinBlock (ts : Vector Mem 16) : Bool := 4096 < slotCount ts || tu ts 0x0B 2580 12 != 0

/-! #### Table 0x0C (R285, R286) -/

def badRoute (ts : Vector Mem 16) (r : Nat) : Bool :=
  let u := fun o k => tu ts 0x0C (32 + 32 * r + o) k
  let f := u 0 1
  let sl := bitN f 1
  let dl := bitN f 2
  let sb := u 1 1
  let db := u 2 1
  let len := u 17 1
  let sId := fld (u 4 4) 0 6
  let dId := fld (u 12 4) 0 6
  let fd := fun c => bitN (tu ts 9 (16 + 32 * c) 1) 1
  let srcLen := if sl then frameLen ts sb sId else if fd sb then 64 else 8
  let dlc := u 19 1
  let dstLen := if dl then frameLen ts db dId else if dlc == 0xFF then 64 else dlcLen (bitN f 5) dlc
  let win := u 18 1 + len
  bitN f 7 || u 3 1 != 0 || u 23 9 != 0 || fld (u 4 4) 29 3 != 0 || fld (u 12 4) 29 2 != 0 ||
    (bitN f 0 &&
      (7 < sb || 7 < db || 63 < u 16 1 || 64 < len || 63 < u 18 1 || !noneOr dlc 16 || !within (u 20 2) 1 1000 ||
       !(if sl then linOn ts sb && frameDir ts sb sId == 2 else canOn ts sb) || !(if dl then linOn ts db && frameDir ts db dId == 1 else canOn ts db) ||
       (sl == dl && sb == db) || (bitN (u 12 4) 31 && (sl || dl)) || srcLen < u 16 1 + len || dstLen < win || (len == 0 && (u 16 1 != 0 || u 18 1 != 0)) ||
       (!dl && !bitN f 5 && 8 < win) || (!dl && bitN f 6 && !bitN (tu ts 9 (16 + 32 * db) 1) 2)))
def badGateway (ts : Vector Mem 16) : Bool :=
  ((List.range 8).any fun c => 16 < tu ts 0x0C (16 + c) 1) || !ringOk (tu ts 0x0C 24 1) || tu ts 0x0C 25 3 != 0 || 2048 < tu ts 0x0C 28 4

/-! #### Tables 0x0D and 0x0E (R308, R309, R334) -/

def segIn (ts : Vector Mem 16) (b o k : Nat) : Nat := tu ts 0x0D (32 + 64 * b + o) k
/-- A CAN segment with DEEP and WAKE_EN. -/
def deepSeg (ts : Vector Mem 16) (b : Nat) : Bool := b < 8 && fld (segIn ts b 0 1) 0 1 == 1 && bitN (segIn ts b 0 1) 2
def badSegment (ts : Vector Mem 16) (b : Nat) : Bool :=
  let u := segIn ts b
  let f := u 0 1
  let wuf := u 8 4
  let ann := u 32 4
  fld f 4 4 != 0 || u 6 2 != 0 || u 17 7 != 0 || u 37 3 != 0 || u 48 16 != 0 || fld wuf 30 2 != 0 || fld ann 30 2 != 0 ||
    !within (u 2 2) 10 10000 || 3 < u 1 1 || 8 < u 16 1 || 8 < u 36 1 || (u 4 2 != 0 && u 4 2 * 1000 ≤ tu ts 0x0D 16 2) ||
    (if b < 8 then
      (deepSeg ts b && 2 ≤ ((List.range b).filter (deepSeg ts)).length) ||
      (bitN f 1 && nomCycles ts b * [125, 250, 500, 1000].getD (u 1 1) 0 != 80000) ||
      (bitN f 3 && !canOn ts b) || badBase wuf || (!bitN wuf 29 && fld (u 12 4) 11 18 != 0) || badBase ann
     else fld f 1 3 != 0 || u 1 1 != 0 || u 8 4 != 0 || u 12 4 != 0 || u 16 1 != 0 || u 24 8 != 0 || u 32 4 != 0 || u 36 1 != 0 || u 40 8 != 0)
def badNet (ts : Vector Mem 16) : Bool :=
  !within (tu ts 0x0D 16 2) 100 60000 || !ringOk (tu ts 0x0D 18 1) || tu ts 0x0D 19 1 != 0 || !within (tu ts 0x0D 20 2) 100 250 || tu ts 0x0D 22 10 != 0

def badCoil (ts : Vector Mem 16) (i : Nat) : Bool :=
  let u := fun o k => tu ts 0x0E (32 + 8 * i + o) k
  fld (u 0 1) 1 7 != 0 || u 5 3 != 0 || (bitN (u 0 1) 0 && (!within (u 1 1) 10 50 || !within (u 2 2) 100 1500 || !within (u 4 1) 1 50))
def badToken (ts : Vector Mem 16) (i : Nat) : Bool :=
  let u := fun i o k => tu ts 0x0E (64 + 16 * i + o) k
  fld (u i 0 1) 2 6 != 0 || u i 1 3 != 0 || u i 8 8 != 0 ||
    (bitN (u i 0 1) 0 && (!within (u i 4 4) 1 0xFFFFFFFE || (List.range 16).any fun j => j != i && bitN (u j 0 1) 0 && u j 4 4 == u i 4 4))
def badAccess (ts : Vector Mem 16) : Bool :=
  let f := tu ts 0x0E 16 1
  let id := tu ts 0x0E 20 4
  fld f 2 6 != 0 || 7 < tu ts 0x0E 17 1 || !ringOk (tu ts 0x0E 18 1) || !within (tu ts 0x0E 19 1) 1 4 || fld id 30 2 != 0 || badBase id || 60 < tu ts 0x0E 24 2 ||
    (bitN f 0 && !canOn ts (tu ts 0x0E 17 1)) || (List.range 48).any fun i => bitN (tu ts 0x0E 26 6) i && !plainInput ts i

def check3 (ts : Vector Mem 16) : Option CheckFail :=
  firstBad 3 0
    [(0x03, bad3Gangs ts),
     (0x05, badOf 16 (badHb ts) ++ badOf 16 (badBridge ts)),
     (0x07, badOf 48 (badInput ts) ++ badOf 8 (badPoll ts) ++ badOf 8 (badBands ts) ++ badWhole (160 < wetSum ts)),
     (0x08, badOf 32 (badField ts) ++ badWhole (badFieldBlock ts)),
     (0x09, badOf 8 (badCan ts) ++ badWhole (badDiag ts)),
     (0x0A, badLists ts),
     (0x0B, badOf 8 (badCommander ts) ++ badOf 64 (badSched ts) ++ badOf 512 (badFrame ts) ++ badOf (slotCount ts) (badSlot ts) ++ badWhole (badLinBlock ts)),
     (0x0C, badOf (tu ts 0x0C 28 4) (badRoute ts) ++ badWhole (badGateway ts)),
     (0x0D, badOf 16 (badSegment ts) ++ badWhole (badNet ts)),
     (0x0E, badOf 4 (badCoil ts) ++ badOf 16 (badToken ts) ++ badWhole (badAccess ts))]

/-! ### Checks 4 to 7 -/

/-- Table 0x03 (R92). Of two gangs that share a channel the later entry is the one named (log entry 12, DESIGN CHOICE). -/
def badGang (ts : Vector Mem 16) (i : Nat) : Bool :=
  let a := tu ts 3 (16 + 4 * i) 1
  let k := tu ts 3 (17 + 4 * i) 1
  let cls := (List.range k).map fun j => lchClass (a + j)
  tu ts 3 (18 + 4 * i) 2 != 0 ||
    (k != 0 && (!within k 2 4 || cls.contains 0 || (cls.any fun c => c != lchClass a) || a / 8 != (a + k - 1) / 8 ||
      (gangsOf ts).any fun g => g.1 < i && g.2.1 < a + k && a < g.2.1 + g.2.2))
def check4 (ts : Vector Mem 16) : Option CheckFail := firstBad 4 0 [(3, badOf ((tu ts 3 4 4 - 16) / 4) (badGang ts))]

/-- The wire entry of a set as the model keeps it (R116). -/
def wireIn (ts : Vector Mem 16) (n : Nat) : Wire :=
  let u := fun o k => tu ts 4 (16 + 32 * n + o) k
  { size := u 1 1, bf := u 2 1, ambSrc := u 3 1, ins := fld (u 0 1) 1 2, ambMax := toSigned 8 (u 4 1), warnK := u 16 1, restartK := u 17 1, known := true }
/-- I_SS is below I_NOM (R117), in exact integers: R20 in 1e-5 Ω/m, RTH in 0.1 K·m/W. -/
def wireTooThin (w : Wire) (iNom : Nat) : Bool :=
  let rise := ((tripC w : Int) - w.ambMax).toNat
  rise * 32000000000000000 < iNom * iNom * (32 * rth1 w + rth2 w * w.bf) * r20c w * (100000 + 393 * (tripC w - 20))
/-- Table 0x04 (R116, R117). -/
def badWire (ts : Vector Mem 16) (n : Nat) : Bool :=
  let u := fun o k => tu ts 4 (16 + 32 * n + o) k
  let w := wireIn ts n
  fld (u 0 1) 6 2 != 0 || u 18 14 != 0 ||
    (lchJudged ts n &&
      (!bitN (u 0 1) 0 || 7 < w.size || w.ins == 3 || !within w.bf 32 128 || 4 < w.ambSrc || w.ambMax < -40 || 125 < w.ambMax || 15 < u 5 1 ||
       !within (u 6 2) 10 1000 || !within (u 8 2) 1 3600 || 10000 < u 12 2 || !within (u 14 2) 10 1000 || 30 < w.warnK || !within w.restartK 5 60 ||
       (tripC w : Int) ≤ w.ambMax || wireTooThin w (tu ts 2 (20 + 32 * n) 2)))
def check5 (ts : Vector Mem 16) : Option CheckFail := firstBad 5 0 [(4, badOf 64 (badWire ts))]

/-- The declared total of R105, 10 mW steps. -/
def worstTotal (ts : Vector Mem 16) : Nat :=
  ((List.range 64).map fun n => if lchJudged ts n && !bitN (tu ts 2 (16 + 32 * n) 1) 3 then tu ts 2 (26 + 32 * n) 2 else 0).foldl (· + ·) 0
/-- Table 0x02 (R110). -/
def badChannel (ts : Vector Mem 16) (n : Nat) : Bool :=
  let u := fun o k => tu ts 2 (16 + 32 * n + o) k
  let f := u 0 1
  let load := fld f 4 2
  fld f 6 2 != 0 || fld (u 1 1) 4 4 != 0 || fld (u 14 2) 12 4 != 0 || fld (u 18 2) 12 4 != 0 || fld (u 20 2) 12 4 != 0 || u 23 9 != 0 ||
    (lchJudged ts n &&
      (!(u 2 2 == 0 || within (u 2 2) 20 2000) || 2000 < u 8 2 || !within (u 12 2) 6000 32000 || !within (u 16 2) 1 500 || !ringOk (u 22 1) ||
       (bitN f 1 && (load == 0 || load == 3 || u 2 2 == 0)) || (bitN f 2 && load != 1) || nomOf ts n < u 4 2))
def check6 (ts : Vector Mem 16) : Option CheckFail := firstBad 6 (worstTotal ts) [(2, badOf 64 (badChannel ts) ++ badWhole (2800 < worstTotal ts))]

def vlvIn (ts : Vector Mem 16) (v o k : Nat) : Nat := tu ts 6 (64 + 32 * v + o) k
def vlvOn (ts : Vector Mem 16) (v : Nat) : Bool := bitN (vlvIn ts v 0 1) 0
/-- Enabled valves of a group, and those that are periodic. -/
def groupValves (ts : Vector Mem 16) (g : Nat) : List Nat := ((List.range 6).map (· + 6 * g)).filter (vlvOn ts)
def periodics (ts : Vector Mem 16) (g : Nat) : List Nat := (groupValves ts g).filter fun v => vlvIn ts v 16 2 != 0
/-- X_u of R193 in µs. -/
def slotTime (ts : Vector Mem 16) (v : Nat) : Nat := (if bitN (vlvIn ts v 0 1) 1 then vlvIn ts v 8 2 else 0) + vlvIn ts v 10 2 + vlvIn ts v 12 2 + 20
/-- The condition for a periodic valve (R193). -/
def badPeriod (ts : Vector Mem 16) (v : Nat) : Bool :=
  let g := v / 6
  let d := (groupValves ts g).foldl (fun m u => max m (vlvIn ts u 12 2)) 0
  let sum := fun l : List Nat => (l.map (slotTime ts)).foldl (· + ·) 0
  let least := (periodics ts g).foldl (fun m u => min m (vlvIn ts u 16 2)) 65535
  100 * tu ts 6 (33 + 8 * g) 1 < sum ((periodics ts g).filter (· != v)) + d || 1000 * least < sum (periodics ts g)
/-- Table 0x06 (R192, R193). -/
def badValve (ts : Vector Mem 16) (v : Nat) : Bool :=
  let u := vlvIn ts v
  let f := u 0 1
  let per := u 16 2
  fld f 5 3 != 0 || u 20 12 != 0 ||
    (bitN f 0 &&
      (!within (u 1 1) 1 25 || !within (u 2 2) 10 300 || !within (u 4 2) 5 150 || 2000 < u 6 2 || !within (u 8 2) 50 5000 || 50000 < u 10 2 || !within (u 12 2) 50 2000 ||
       !(per == 0 || within per 10 60000) || (per != 0 && !within (u 18 2) 1 (per - 1)) || u 2 2 < u 4 2 || u 8 2 ≤ u 6 2 ||
       !bitN (tu ts 6 (32 + 8 * (v / 6)) 1) 0 || (bitN f 1 && !bitN (tu ts 6 19 1) 0) || (per != 0 && badPeriod ts v)))
def badVg (ts : Vector Mem 16) (g : Nat) : Bool :=
  let u := fun o k => tu ts 6 (32 + 8 * g + o) k
  let vs := groupValves ts g
  fld (u 0 1) 1 7 != 0 || u 3 5 != 0 ||
    (bitN (u 0 1) 0 && ((if tu ts 1 16 1 == 1 then 20 else 50) < u 1 1 || !ringOk (u 2 1))) ||
    1000 < (vs.map fun v => vlvIn ts v 4 2).foldl (· + ·) 0 + vs.foldl (fun m v => max m (vlvIn ts v 2 2)) 0
def badBoost (ts : Vector Mem 16) : Bool :=
  let u := fun o k => tu ts 6 (16 + o) k
  !within (u 0 2) 24000 60000 || !within (u 2 1) 22 100 || fld (u 3 1) 1 7 != 0 || !within (u 4 2) 50 200 || !within (u 6 1) 70 100 || !ringOk (u 7 1) || u 8 8 != 0
def check7 (ts : Vector Mem 16) : Option CheckFail :=
  firstBad 7 0 [(6, badOf 4 (badVg ts) ++ badOf 24 (badValve ts) ++ badWhole (badBoost ts))]

/-! ### Check 9 -/

/-- A half-bridge whose SAFE byte is ignored: LEG_B of a bridge (R158). -/
def isLegB (ts : Vector Mem 16) (h : Nat) : Bool := 0 < legCount ts h 1
/-- The SAFE byte of index `i` is that of an output that is enabled. -/
def outputOn (ts : Vector Mem 16) (i : Nat) : Bool :=
  if i < 64 then lchJudged ts i
  else if i < 80 then bitN (tu ts 5 (16 + 8 * (i - 64)) 1) 0 && !isLegB ts (i - 64)
  else if i < 104 then vlvOn ts (i - 80)
  else if i < 108 then bitN (tu ts 6 (32 + 8 * (i - 104)) 1) 0
  else if i == 108 then bitN (tu ts 6 19 1) 0
  else if within i 112 143 then bitN (tu ts 8 (32 + 16 * (i - 112)) 1) 0
  else if within i 144 147 then bitN (tu ts 0x0E (32 + 8 * (i - 144)) 1) 0
  else i == 148 && bitN (tu ts 0x0E 16 1) 0
/-- SAFE is not allowed for the output of index `i` (R108, R158, R191, R232, R332). -/
def badKind (ts : Vector Mem 16) (i k : Nat) : Bool :=
  if i < 64 then k == 3 && tu ts 2 (18 + 32 * i) 2 == 0 && !memberIn ts i
  else if i < 80 then k == 3 && fld (tu ts 5 (16 + 8 * (i - 64)) 1) 0 1 == 1 && fld (tu ts 5 (16 + 8 * (i - 64)) 1) 1 2 < 2 && tu ts 5 (20 + 8 * (i - 64)) 2 == 0
  else if i < 104 then k == 3
  else if i < 109 then k != 0
  else if within i 112 143 then k == 3 || (k != 0 && fld (tu ts 8 (32 + 16 * (i - 112)) 1) 0 2 == 1)
  else if within i 144 147 then k != 0
  else i == 148 && (k == 1 || k == 3)
/-- Table 0x10 (R428). -/
def badSafe (ts : Vector Mem 16) (i : Nat) : Bool :=
  let b := tu ts 0x10 (32 + i) 1
  if within i 109 111 || 149 ≤ i then b != 0
  else fld b 2 5 != 0 || (outputOn ts i && !bitN b 7) || badKind ts i (b % 4)
def check9 (ts : Vector Mem 16) : Option CheckFail :=
  firstBad 9 0 [(0x10, badOf 160 (badSafe ts) ++ badWhole (!ringOk (tu ts 0x10 16 1) || tu ts 0x10 17 15 != 0))]

end Sys2Proof.Machine
end

