-- ==== Sys2Proof/Machine/Filters.lean ====
section
/-! DEFINITION. The placement of identifier lists in filter pairs, with check 8 (R242, R244, R245). -/

namespace Sys2Proof.Machine

/-- Order of lists of numbers, place by place. -/
def lexLt : List Nat → List Nat → Bool
  | a :: as, b :: bs => a < b || (a == b && lexLt as bs)
  | [], _ :: _ => true
  | _, [] => false

/-- Insertion in order of a key, after equals; the sort made of it. -/
def insertBy {α : Type} (key : α → List Nat) (x : α) : List α → List α
  | [] => [x]
  | y :: ys => if lexLt (key x) (key y) then x :: y :: ys else y :: insertBy key x ys
def sortBy {α : Type} (key : α → List Nat) (l : List α) : List α := l.foldl (fun acc x => insertBy key x acc) []

/-- A cover: queue, IDE, identifier as its entry gives it (its bits outside the mask order covers and number the pairs), care
mask, index of its first entry. -/
structure Cover where
  queue : Nat
  ide : Bool
  ident : Nat
  mask : Nat
  first : Nat
deriving DecidableEq, Repr

/-- Bits of an identifier. -/
def idWidth (ide : Bool) : Nat := if ide then 29 else 11
/-- Number of set bits below `w`. -/
def popcount (w x : Nat) : Nat := ((List.range w).filter (bitN x)).length

/-- Two covers of one list. -/
def sameList (a b : Cover) : Bool := a.queue == b.queue && a.ide == b.ide
/-- `a` admits every identifier that `b` admits. -/
def contains (a b : Cover) : Bool := sameList a b && Nat.land a.mask b.mask == a.mask && Nat.land b.ident a.mask == Nat.land a.ident a.mask
/-- Some identifier is admitted by both, whatever their queues. -/
def coversMeet (a b : Cover) : Bool := a.ide == b.ide && Nat.land (Nat.xor a.ident b.ident) (Nat.land a.mask b.mask) == 0
/-- MASK' and ID' of R245. -/
def mergeCover (a b : Cover) : Cover :=
  let both := Nat.land a.mask b.mask
  let m := Nat.xor both (Nat.land both (Nat.xor a.ident b.ident))
  { a with ident := Nat.land a.ident m, mask := m, first := min a.first b.first }

/-- The part of a set of identifiers (identifier, mask) outside `e`, as disjoint sets. -/
def outside (w : Nat) (e c : Nat × Nat) : List (Nat × Nat) :=
  ((List.range w).foldl (fun (acc : List (Nat × Nat) × (Nat × Nat)) i =>
    let (l, x) := acc
    if bitN e.2 i && !bitN x.2 i then
      let other := if bitN e.1 i then x.1 else x.1 + 2 ^ i
      let same := if bitN e.1 i then x.1 + 2 ^ i else x.1
      (l ++ [(other, x.2 + 2 ^ i)], (same, x.2 + 2 ^ i))
    else acc) ([], c)).1
/-- Identifiers of a set that no set of a list holds. -/
def uncovered (w : Nat) : List (Nat × Nat) → Nat × Nat → Nat
  | [], c => 2 ^ (w - popcount w c.2)
  | e :: es, c =>
    if Nat.land (Nat.xor e.1 c.1) (Nat.land e.2 c.2) != 0 then uncovered w es c
    else ((outside w e c).map (uncovered w es)).foldl (· + ·) 0
/-- Identifiers that a cover admits and no entry of its queue (R244, R245). -/
def added (entries : List Cover) (c : Cover) : Nat :=
  let set := fun e : Cover => (Nat.land e.ident e.mask, e.mask)
  uncovered (idWidth c.ide) ((entries.filter (sameList c)).map set) (set c)

/-- The list of a controller (R242). -/
def listOf (ts : Vector Mem 16) (c : Nat) : List Cover :=
  (List.range (listCount ts c)).map fun j =>
    let i := listFirst ts c + j
    let w := tu ts 0x0A (48 + 8 * i) 4
    let m := fld (tu ts 0x0A (52 + 8 * i) 4) 0 29
    { queue := fld w 30 1, ide := bitN w 29, ident := fld w 0 29, mask := m, first := i }

/-- Covers that no other contains; of equal ones the first stays. -/
def dropContained (l : List Cover) : List Cover :=
  (l.zipIdx.filter fun x => !(l.zipIdx.any fun y => y.2 != x.2 && contains y.1 x.1 && (y.2 < x.2 || !contains x.1 y.1))).map (·.1)

/-- Allowed merges, each with its rank by R245. -/
def merges (entries covers : List Cover) : List (List Nat × Cover × Cover × Cover) :=
  (covers.map fun a => covers.filterMap fun b =>
    if a.first != b.first && sameList a b && lexLt [a.ident, a.mask, a.first] [b.ident, b.mask, b.first] then
      let m := mergeCover a b
      if entries.any fun e => e.queue != m.queue && coversMeet e m then none
      else some ([added entries m, b2n m.ide, m.ident, 2 ^ 29 - m.mask, a.ident, b.ident], m, a, b)
    else none).flatten
/-- The merge of the lowest rank. -/
def bestMerge : List (List Nat × Cover × Cover × Cover) → Option (List Nat × Cover × Cover × Cover)
  | [] => none
  | x :: xs => match bestMerge xs with | some y => if lexLt y.1 x.1 then some y else some x | none => some x

/-- Merging until 64 covers are left; the count where no merge is allowed (R245). -/
def mergeDown (entries : List Cover) : Nat → List Cover → Except Nat (List Cover)
  | 0, l => .ok l
  | n + 1, l =>
    if l.length ≤ 64 then .ok l
    else match bestMerge (merges entries l) with
      | none => .error l.length
      | some (_, m, a, b) => mergeDown entries n (m :: (l.filter fun c => c != a && c != b && !contains m c))

/-- A cover as a filter pair, with its rate in ppm (R244). -/
def asPair (entries : List Cover) (c : Cover) : Pair :=
  let first := ((entries.filter (contains c)).map (·.first)).foldl min c.first
  let den := 2 ^ idWidth c.ide
  { queue := c.queue, ide := c.ide, ident := c.ident, mask := c.mask, first := first, ppm := (added entries c * 1000000 + den - 1) / den }

/-- Behaviour level 2. -/
def pairsB1 (entries : List Cover) : Except Nat (List Pair) :=
  match mergeDown entries entries.length (dropContained entries) with
  | .error n => .error n
  | .ok l => .ok ((sortBy (fun c => [c.queue, b2n c.ide, c.ident, c.mask]) l).map (asPair entries))

/-- A list cut into `k` consecutive runs, the earlier ones taking one more. -/
def cutRuns {α : Type} : Nat → List α → List (List α)
  | 0, _ => []
  | k + 1, l =>
    let n := (l.length + k) / (k + 1)
    l.take n :: cutRuns k (l.drop n)
/-- The smallest cover of a run; none where the run mixes formats or is empty. -/
def runCover : List Cover → Option Cover
  | [] => none
  | a :: l => if l.all fun b => b.ide == a.ide then some (l.foldl mergeCover a) else none

/-- Behaviour level 1: the algorithm of A1. A run that mixes both formats has no cover and counts as one that fails; a queue
with a list has at least one run. -/
def pairsA1 (entries : List Cover) : Except Nat (List Pair) :=
  let q := fun k => sortBy (fun c => [b2n c.ide, c.ident]) (entries.filter fun e => e.queue == k)
  let n1 := if (q 1).isEmpty then 0 else max 1 (64 * (q 1).length / entries.length)
  let runs := ((cutRuns (64 - n1) (q 0)) ++ cutRuns n1 (q 1)).filter fun r => !r.isEmpty
  let bad := runs.filter fun r => match runCover r with | some c => entries.any fun e => e.queue != c.queue && coversMeet e c | none => true
  if bad.isEmpty then .ok (runs.filterMap fun r => (runCover r).map (asPair entries)) else .error (64 + bad.length)

/-- The pairs of a controller at the behaviour level of a set (R245). -/
def pairsOf (ts : Vector Mem 16) (c : Nat) : Except Nat (List Pair) :=
  if tu ts 1 16 1 == 1 then pairsA1 (listOf ts c) else pairsB1 (listOf ts c)

/-- Check 8: the first controller that cannot be placed (R70, R245). -/
def check8 (ts : Vector Mem 16) : Option CheckFail :=
  (List.range 8).findSome? fun c => match pairsOf ts c with
    | .error n => some { check := 8, table := 0x0A, entry := wholeTable, detail := n }
    | .ok _ => none

end Sys2Proof.Machine
end

