-- ==== Sys2Proof/Machine/Perf.lean ====
section
/-! DEFINITION. Performance counters: counting of engine slots and occurrences, sampling, and family 0x3C (file 20). -/

namespace Sys2Proof.Machine

/-- Event codes of programmable counters (R485). -/
def pmcEvents : List Nat := [0, 1, 2, 3, 4, 5, 0x10, 0x11, 0x12, 0x13, 0x14, 0x15, 0x16, 0x17, 0x18, 0x19, 0x1A, 0x1B, 0x1C, 0x1D, 0x1E]

/-- Events filtered by class and range: the access events (R485). -/
def accessEvent (e : Nat) : Bool := e == 0x10 || e == 0x11 || e == 0x12

/-- A counter's filters pass (R485). -/
def pmcPasses (p : Pmc) (x : Occur) : Bool :=
  p.event == x.event && bitN p.priv (if x.task then 0 else 1) && (p.prog == 0xFF || (x.task && p.prog == x.prog)) &&
  (!accessEvent x.event || (bitN p.cls x.cls && p.addrLo ≤ x.addr && x.addr ≤ p.addrHi))

/-- Count `k` on one counter; with SAMPLE it reloads its start value at each overflow (R486). The second part is the
number of overflows. -/
def pmcAdd (p : Pmc) (k : Nat) : Pmc × Nat :=
  let v := p.count + k
  if v < 2 ^ 32 then ({ p with count := v }, 0)
  else if p.sample then
    let period := 2 ^ 32 - p.startVal
    let beyond := v - 2 ^ 32
    ({ p with count := p.startVal + beyond % period }, 1 + beyond / period)
  else ({ p with count := v % 2 ^ 32 }, 1)

/-- What occurs in one cycle of an engine reaches its counters, in counter order (R485, R487). `main`: it is not the shadow of
a redundant pair, which never samples (R487). -/
def pmcCycle (e : Fin 16) (main : Bool) (xs : List Occur) (s : State) : State :=
  (idxs 4).foldl (fun s (i : Fin 4) =>
    let ep := s.perf.engines[e]
    match xs.filter (fun x => x.n != 0 && pmcPasses ep.pmc[i] x) with
    | [] => s
    | x :: more =>
      let (p, k) := pmcAdd ep.pmc[i] (x.n + (more.map (·.n)).foldl (· + ·) 0)
      let sampled := if p.sample && main then k else 0
      let smp : Sample := { engine := e, counter := i, task := x.task, skid := x.skid, prog := if x.task then x.prog else 0xFF, la := x.la, repa := x.repa, pc := x.pc, cycles := ep.cycles, wait := x.wait }
      let ep := { ep with pmc := ep.pmc.set i p, samples := sat 16 (ep.samples + sampled), ovf := if k == 0 then ep.ovf else Nat.lor ep.ovf (2 ^ i.val) }
      { s with perf := { s.perf with engines := s.perf.engines.set e ep, samples := s.perf.samples ++ List.replicate sampled smp } }) s

/-- Event codes of the slots (R485). -/
def slotEvent : Slot → Nat
  | .retired => 1
  | .wasted => 2
  | .front => 3
  | .back => 4
  | .quiet => 5

/-- A cycle of one slot: PC_CYCLES and the slot's counter rise (R483). -/
def slotRise (sl : Slot) (p : EngPerf) : EngPerf :=
  let p := { p with cycles := (p.cycles + 1) % 2 ^ 64 }
  match sl with
  | .retired => { p with ret := (p.ret + 1) % 2 ^ 64 }
  | .wasted => { p with waste := (p.waste + 1) % 2 ^ 64 }
  | .front => { p with front := (p.front + 1) % 2 ^ 64 }
  | .back => { p with back := (p.back + 1) % 2 ^ 64 }
  | .quiet => { p with quiet := (p.quiet + 1) % 2 ^ 64 }

/-- One cycle of an engine: its slot, the cycle events and what else occurs in it (R483, R485). -/
def slotCycle (e : Fin 16) (main : Bool) (c : Cycles) (s : State) : State :=
  let s := { s with perf := { s.perf with engines := upd s.perf.engines e (slotRise c.slot) } }
  pmcCycle e main ({ c.o with event := 0, n := 1 } :: { c.o with event := slotEvent c.slot, n := 1 } :: c.evs) s

/-- `n` such cycles, one after another. -/
def slotCycles (e : Fin 16) (main : Bool) (c : Cycles) : Nat → State → State
  | 0, s => s
  | n + 1, s => slotCycles e main c n (slotCycle e main c s)

/-- Cycles of an engine in order. -/
def runCycles (e : Fin 16) (main : Bool) (l : List Cycles) (s : State) : State := l.foldl (fun s c => slotCycles e main c c.n s) s

/-- How many cycles a list has. -/
def cyclesIn (l : List Cycles) : Nat := (l.map (·.n)).foldl (· + ·) 0

/-- What PERF_SET asks of its descriptor. -/
def perfSetForm (s : State) (d : Desc) : OpForm :=
  let sample := fld (d.u 26 8) 2 1 == 1
  { idem := true, used := pm 16 128
    range := d.slice == 0xE && d.ch < 16 && d.u 24 8 < 4 && pmcEvents.contains (d.u 25 8) && d.u 16 32 ≤ d.u 20 32 && !(sample && 0xFFFFFC18 < d.u 28 32)
    state := !(sample && s.perf.sampleRing == 0xFF) }

/-- PERF_SET: R485, R486, R491. -/
def execPerfSet (o : Origin) (s : State) : Out :=
  runOut o 0x3C00
    perfSetForm
    (fun d uid s =>
      let p : Pmc := { count := d.u 28 32, event := d.u 25 8, priv := fld (d.u 26 8) 0 2, sample := fld (d.u 26 8) 2 1 == 1, cls := fld (d.u 26 8) 3 5,
                       prog := d.u 27 8, addrLo := d.u 16 32, addrHi := d.u 20 32, startVal := d.u 28 32 }
      match at? s.perf.engines d.ch with
      | none => s
      | some ep =>
        let old := (at? ep.pmc (d.u 24 8)).elim 0 (·.count)
        finish uid 0 old { s with perf := { s.perf with engines := updN s.perf.engines d.ch fun ep => { ep with pmc := updN ep.pmc (d.u 24 8) fun _ => p } } }) s

/-- MASTER codes of R489. -/
def fabMaster (m : Nat) : Bool := m < 16 || (0x20 ≤ m && m ≤ 0x23) || m == 0xFF

/-- What FAB_SET asks of its descriptor. -/
def fabSetForm (_ : State) (d : Desc) : OpForm :=
  { idem := true, used := pm 16 64 + pm 24 16 + pm 26 4 + pm 27 8,
    range := d.device && d.u 24 8 < 4 && d.u 25 8 < 4 && fabMaster (d.u 27 8) && d.u 16 32 ≤ d.u 20 32 }

/-- FAB_SET: R489, R491. -/
def execFabSet (o : Origin) (s : State) : Out :=
  runOut o 0x3C01
    fabSetForm
    (fun d uid s =>
      let old := (at? s.perf.fabs (d.u 24 8)).elim 0 (·.count)
      let f : Fab := { event := d.u 25 8, ports := fld (d.u 26 8) 0 4, master := d.u 27 8, lo := d.u 16 32, hi := d.u 20 32 }
      finish uid 0 old { s with perf := { s.perf with fabs := updN s.perf.fabs (d.u 24 8) fun g => { f with latchedHi := g.latchedHi } } }) s

/-- What PERF_RING asks of its descriptor. -/
def perfRingForm (_ : State) (d : Desc) : OpForm :=
  { idem := true, used := pm 24 8, range := d.device && (d.u 24 8 < 64 || d.u 24 8 == 0xFF) }

/-- PERF_RING: R491. -/
def execPerfRing (o : Origin) (s : State) : Out :=
  runOut o 0x3C02 perfRingForm
    (fun d uid s => finish uid 0 0 { s with perf := { s.perf with sampleRing := d.u 24 8 } }) s

/-- RPC_WAIT of a ring in microseconds (R490). -/
def rpcWaitUs (r : Ring) : Nat := w32 (r.rpcWait / 80)

/-- The 96 bytes of an engine's snapshot (R491). -/
def engineSnap (s : State) (e : Fin 16) : List Byte :=
  let p := s.perf.engines[e]
  leBytes 8 s.dt ++ leBytes 8 p.cycles ++ leBytes 8 p.ret ++ leBytes 8 p.waste ++ leBytes 8 p.front ++ leBytes 8 p.back ++ leBytes 8 p.quiet ++
    (p.pmc.toList.map fun c => leBytes 4 c.count).flatten ++ List.replicate 24 0

/-- The 576 bytes of the device's snapshot (R491). -/
def deviceSnap (s : State) : List Byte :=
  leBytes 8 s.dt ++ (s.perf.fabs.toList.map fun f => leBytes 8 f.count).flatten ++ List.replicate 24 0 ++
    (s.rings.toList.map fun r => leBytes 4 r.rpcCount ++ leBytes 4 (rpcWaitUs r)).flatten

/-- What PERF_SNAP asks of its descriptor. -/
def perfSnapForm (s : State) (d : Desc) : OpForm :=
  let host := bitN d.raw.toNat 192
  { idem := true, used := pm 16 64 + pm 24 1, form := d.u 16 64 % 8 == 0
    range := (d.device || (d.slice == 0xE && d.ch < 16)) && (host || inSram (d.u 16 64) (if d.device then 576 else 96)) && !(host && s.host.selfHosted) }

/-- PERF_SNAP: R491. -/
def execPerfSnap (o : Origin) (s : State) : Out :=
  runOut o 0x3C03
    perfSnapForm
    (fun d uid s =>
      let bytes := if d.device then deviceSnap s else (fin? 16 d.ch).elim [] (engineSnap s)
      finish uid 0 bytes.length (toBuffer (bitN d.raw.toNat 192) (d.u 16 64) bytes s)) s

/-- The oldest recorded sample that may be written: those of one engine go in their order (R487, R488). -/
def nextSample : List Nat → List Sample → Option Sample
  | _, [] => none
  | held, x :: xs => if x.wait || held.contains x.engine then nextSample (x.engine :: held) xs else some x

/-- PERF_SAMPLE: that sample is written to the sample ring, then vector 71 (R487, R488, R491). -/
def execPerfSample (s : State) : Out :=
  .next (whenOn (fun s => match nextSample [] s.perf.samples with
    | none => s
    | some x =>
      let rest := s.perf.samples.erase x
      let d1 := putF x.engine 0 4 + putF x.counter 4 2 + putF (b2n x.task) 6 1 + putF (b2n x.skid) 7 1 + putF x.prog 8 8 + putF x.la 16 3 + putF (b2n x.repa) 19 1 + putF x.pc 32 32
      sendVector 71 (emit s.perf.sampleRing 0x3C80 (0x0E00 + x.engine) d1 x.cycles { s with perf := { s.perf with samples := rest } })) s)

/-- A read of PC_CYCLES_LO latches the six fixed counters (R492). -/
def latchFixed (e : Fin 16) (s : State) : State :=
  { s with perf := { s.perf with engines := upd s.perf.engines e fun p => { p with latched := #v[p.cycles, p.ret, p.waste, p.front, p.back, p.quiet] } } }

/-- A read of FAB_n_LO latches FAB_n_HI (R492). -/
def latchFab (n : Fin 4) (s : State) : State :=
  { s with perf := { s.perf with fabs := upd s.perf.fabs n fun f => { f with latchedHi := f.count / 2 ^ 32 } } }

/-- PC_CYCLES_LO_READ: R492. -/
def execPcCyclesLoRead (e : Fin 16) (s : State) : Out := .next (whenOn (fun s => latchFixed e (hostAccess (0x401A0000 + 0x100 * e) 4 s)) s)

/-- FAB_LO_READ: R492. -/
def execFabLoRead (n : Fin 4) (s : State) : Out := .next (whenOn (fun s => latchFab n (hostAccess (0x401A1000 + 8 * n) 4 s)) s)

end Sys2Proof.Machine
end

