-- ==== Sys2Proof/Machine/Sessions.lean ====
section
/-! DEFINITION. Sessions: challenge, opening, closing, expiry, locks (R79 to R85).
Readings of the spec: log entry 12, DEDUCED. -/

namespace Sys2Proof.Machine

/-- Kinds of a SESSION record, in the order in which R461 lists them (log entry 9, DESIGN CHOICE). -/
def sesOpening : Nat := 0
def sesClosing : Nat := 1
def sesExpiry : Nat := 2
def sesFailed : Nat := 3

/-- Payload of a SESSION record (R85, R461, log entry 9, DESIGN CHOICE). -/
def sessionPayload (kind n op : Nat) : List Byte := leBytes 1 kind ++ leBytes 1 n ++ leBytes 2 op

/-- RT ticks in `n` seconds (R8). -/
def rtSec (n : Nat) : Nat := 16384 * n

/-- The challenge lock of a session number holds (R82). -/
def sesLocked (s : State) (n : Nat) : Bool :=
  match at? s.ses n with | some x => (match x.lockEnd with | some e => s.rt < e | none => false) | none => false

/-- The challenge of a session number, while it is valid (R81). -/
def validChallenge (s : State) (n : Nat) : Option Nat :=
  match at? s.ses n with
  | some x => (match x.challenge with | some (c, t) => if s.dt < t + sec 10 then some c else none | none => none)
  | none => none

/-- The response that opens session `n` against challenge `c` (R81): the first 8 bytes of the CMAC, as the
little-endian number that bytes 16-23 spell. -/
def sessionResponse (key c n : Nat) : Nat :=
  ofLe ((beBytes 16 (cmac key (leBytes 8 c ++ leBytes 1 n ++ List.replicate 7 0))).take 8)

/-- Change one session number. -/
def setSes (n : Nat) (f : Ses → Ses) (s : State) : State := { s with ses := updN s.ses n f }

/-- Length in seconds of the lock that the `k`-th failure in a row causes (R82). -/
def lockSeconds (k : Nat) : Nat := if k < 3 then 0 else min 64 (2 ^ (k - 3))

/-- A failed opening with a valid challenge (R82). -/
def sessionFailure (n : Nat) (s : State) : State :=
  setSes n (fun x => { x with challenge := none, fails := x.fails + 1,
                              lockEnd := if 3 ≤ x.fails + 1 then some (s.rt + rtSec (lockSeconds (x.fails + 1))) else x.lockEnd }) s

/-- A session opens (R82, R83). -/
def sessionOpened (n : Nat) (s : State) : State :=
  setSes n (fun x => { x with isOpen := true, challenge := none, fails := 0, lockEnd := none, lastNamed := s.dt }) s

/-- A session closes: the record, and vector 69 behind it (R83, R85). -/
def sessionClosed (n kind op : Nat) (reports : List Report) (s : State) : State :=
  hwPut 0x0012 (sessionPayload kind n op) (.vector 69 :: reports) (setSes n (fun x => { x with isOpen := false }) s) (some n)

/-- A session closes at a start-up: recorded, and not signalled (R83, R85). -/
def sessionClosedQuietly (n : Nat) (s : State) : State :=
  hwPut 0x0012 (sessionPayload sesClosing n 0) [] (setSes n (fun x => { x with isOpen := false }) s) (some n)

/-- What SESSION_CHALLENGE asks of its descriptor. -/
def sessionChallengeForm (s : State) (d : Desc) : OpForm :=
  { session := false, diagFree := d.u 24 8 == 1, used := pm 24 8, range := d.device && d.u 24 8 < 4,
    state := !sessionOpen s (d.u 24 8) && !sesLocked s (d.u 24 8) }

/-- SESSION_CHALLENGE: R81, R82. -/
def execSessionChallenge (o : Origin) (s : State) : Out :=
  runOut o 0x0210
    sessionChallengeForm
    (fun d uid s =>
      let (c, s) := takeFree 64 s
      finish uid 0 c (setSes (d.u 24 8) (fun x => { x with challenge := some (c, s.dt) }) s)) s

/-- What SESSION_OPEN asks of its descriptor. -/
def sessionOpenForm (s : State) (d : Desc) : OpForm :=
  { session := false, diagFree := d.u 24 8 == 1, used := pm 16 64 + pm 24 8, range := d.device && d.u 24 8 < 4,
    state := !sessionOpen s (d.u 24 8) }

/-- SESSION_OPEN: R81, R82, R85. -/
def execSessionOpen (o : Origin) (s : State) : Out :=
  runOut o 0x0211
    sessionOpenForm
    (fun d uid s =>
      let n := d.u 24 8
      let key := ((at? s.keys n).join).getD 0
      let refuse := fun s : State =>
        let (v, s) := takeFree 64 s
        finishRecorded 0x0012 (sessionPayload sesFailed n 0x0211) (some n) uid 0x0F v (raise 5 0xFFFF s)
      match validChallenge s n with
      | none => refuse s
      | some c =>
        if sessionResponse key c n == d.u 16 64 then
          finishGated uid 0 0 (hwPut 0x0012 (sessionPayload sesOpening n 0x0211) [.vector 69, .completion uid] (sessionOpened n s) (some n))
        else refuse (sessionFailure n s)) s

/-- What SESSION_CLOSE asks of its descriptor. -/
def sessionCloseForm (_ : State) (d : Desc) : OpForm :=
  { idem := true, used := pm 24 8, range := d.device && d.u 24 8 < 4 }

/-- SESSION_CLOSE: R81, R83, R85. -/
def execSessionClose (o : Origin) (s : State) : Out :=
  runOut o 0x0212
    sessionCloseForm
    (fun d uid s =>
      if sessionOpen s (d.u 24 8) then finishGated uid 0 0 (sessionClosed (d.u 24 8) sesClosing 0x0212 [.completion uid] s)
      else finish uid 0 0 s) s

/-- A challenge is 10 s old (R81); a lock's time is over (R82). -/
def challengeOver (x : Ses) (dt : Nat) : Bool := match x.challenge with | some (_, t) => t + sec 10 ≤ dt | none => false
def lockOver (x : Ses) (rt : Nat) : Bool := match x.lockEnd with | some e => e ≤ rt | none => false

/-- CHALLENGE_EXPIRY: R81. -/
def execChallengeExpiry (n : Fin 4) (s : State) : Out :=
  .next (onlyIf (challengeOver s.ses[n] s.dt) (setSes n fun x => { x with challenge := none }) s)

/-- SESSION_LOCK_EXPIRY: R82. -/
def execSessionLockExpiry (n : Fin 4) (s : State) : Out :=
  .next (onlyIf (lockOver s.ses[n] s.rt) (setSes n fun x => { x with lockEnd := none }) s)

/-- SESSION_EXPIRY: R61, R83; session 2 never expires. -/
def execSessionExpiry (n : Fin 4) (s : State) : Out :=
  .next (whenOn (onlyIf (s.ses[n].isOpen && n.val != 2 && idleTime s != 0 && s.ses[n].lastNamed + sec (idleTime s) ≤ s.dt)
    (sessionClosed n sesExpiry 0 [])) s)

/-- The runtime opens session 2 under its slot key (R84). -/
def openRuntimeSession (s : State) : State :=
  hwPut 0x0012 (sessionPayload sesOpening 2 0) [.vector 69] (sessionOpened 2 s) (some 2)

/-- RUNTIME_SESSION_OPEN: R84. -/
def execRuntimeSessionOpen (s : State) : Out := .next (whenOn (onlyIf (!sessionOpen s 2) openRuntimeSession) s)

end Sys2Proof.Machine
end

