-- ==== Sys2Proof/Machine/Startup.lean ====
section
/-! DEFINITION. Power-on, the start-up sequence, grafting blocks, die links, device reset, brownout and supply loss
(R12, R16, R412, R423, R438, R448 to R452, R463, R464, R472, R475).
Readings of the spec: log entry 34, DEDUCED. -/

namespace Sys2Proof.Machine

/-- Newest DT and RT that MRAM still tells: heat snapshots and heartwood records (R438); a START record carries the RT
of its pair. -/
def newestTimes (s : State) : Option (Nat × Nat) :=
  let recs := (hwHeld s.mram).map (·.2)
  let dts := recs.filterMap fun b => if bitN (ofLe ((b.drop 6).take 1)) 0 then none else some (ofLe ((b.drop 8).take 8))
  let rts := recs.filterMap fun b =>
    if bitN (ofLe ((b.drop 6).take 1)) 0 then some (ofLe ((b.drop 8).take 8))
    else if ofLe ((b.drop 4).take 2) == 2 then some (ofLe ((b.drop 30).take 8)) else none
  let sn := newestSnapshot s
  let dts := dts ++ (sn.map (·.1)).toList
  let rts := rts ++ (sn.map (·.2)).toList
  if dts.isEmpty && rts.isEmpty then none else some (dts.foldl max 0, rts.foldl max 0)

/-- DT at a start (R437, R438): as it counts; across a park by RT; after a loss of the root island supply from the
newest pair in MRAM plus 1, with source 248. -/
def setTime (s : State) : State :=
  if s.pw.dtLost then
    let s := match newestTimes s with
      | some (d, r) => { s with dt := (d + 1) % 2 ^ 64, rt := (r + 1) % 2 ^ 48, pw := { s.pw with xtalEnd := r + 1 + (s.pw.xtalEnd - s.rt) } }
      | none => { s with dt := 0, rt := 0, pw := { s.pw with xtalEnd := s.pw.xtalEnd - s.rt } }
    raise 248 0xFFFF s
  else if s.pw.clocks then s
  else { s with dt := dtAgain s }

/-- The heartwood scan (R463, R464): newest and oldest record, discarded records, clean or unclean stop. -/
def heartwoodScan (s : State) : State :=
  let held := hwHeld s.mram
  let bad := (hwSlotsOf s.mram).length != held.length
  let oldest := (held.head?.map (·.1)).getD 0
  let newest := held.foldl (fun n x => if sub32 n oldest ≤ sub32 x.1 oldest then x.1 else n) oldest
  let slots := hwSlotsOf s.mram
  let valid := slots.filter fun i => hwValid (memBytes s.mram (hwSlotAddr i) 64)
  let firstUsed := ((valid.filter (· < 1024)).getLast?.elim 0 (· + 1))
  let newestSlot := valid.find? fun i => memLe s.mram (hwSlotAddr i) 4 == newest
  let circ := match newestSlot with | some i => if 1024 ≤ i then (i - 1024 + 1) % 15360 else 0 | none => 0
  let clean := held.isEmpty || s.hw.marker == some newest
  let s := modHw (fun h => { h with newest := newest, oldest := oldest, any := !held.isEmpty, firstUsed := firstUsed, circNext := circ,
                                    skip := !clean, marker := none, queue := [], heldBack := [] }) s
  let s := if bad then raise 22 0x0942 s else s
  if clean then s
  else raise 23 0x0942 (hwPut 0x0001 (leBytes 4 newest ++ leBytes 4 (w32 (newest + 1)) ++ leBytes 1 (heatRow s)) [] s)

/-- The START record (R461). -/
def startRecord (s : State) : State :=
  hwPut 0x0002 (leBytes 1 s.flt.rstCause ++ leBytes 1 s.pw.wakeSrc ++ leBytes 8 s.pw.pairDt ++ leBytes 8 s.pw.pairRt) [] s

/-- SFDP discovery of the xSPI devices and the nursery's place (R405, R406, R468). -/
def discoverXspi (found : StartFindings) (s : State) : State :=
  let put := fun (g : Option XspiGeometry) (x : XspiDev) => { x with geometry := g, failed := g.isNone }
  let s := modHost (fun h => { h with xspi := upd (upd h.xspi 0 (put found.xspi0)) 1 (put found.xspi1)
                                      archive := Config.archiveStart.toNat, nursery := Config.nurseryStart.toNat
                                      selfHosted := Config.selfHosted }) s
  let s := if found.xspi0.isNone || found.xspi1.isNone then raise 16 0x0940 s else s
  let a := s.host.nursery * 65536
  let ok := xspiAnswers s (xspiCs a) && xspiWithin s a 0x800000
  let s := modUpd (fun u => { u with nurseryFail := !ok }) s
  if ok then s else raise 26 0x0940 s

/-- The boot code's work on an armed or interrupted slot, or on a set still on trial (R472, R476, R478). None of it
while C3_LATCH = 1: no block is then grafted either. STATE no longer shows the fall-back of an earlier start (R482). -/
def bootChecks (s : State) : State :=
  let s := modUpd (fun u => { u with state := if u.state == .fellBack then .idle else u.state }) s
  if s.flt.c3Latch then s
  else match s.upd.state with
    | .trial => fallBack s
    | .armed =>
      (match imageCheck s s.upd.armedSlot with
      | some c =>
        let s := modUpd (fun u => { u with state := .idle }) s
        rejectSet c 0 s
      | none =>
        let p := (nextPart s 0).getD 0
        modUpd (fun u => { u with state := .grafting, graftOn := true, part := p, blocks := 0, flipped := [], progress := some (u.setId, p, 0), lastSetId := u.setId }) s)
    | .grafting =>
      (match imageCheck s s.upd.armedSlot, s.upd.progress with
      | none, some (_, p, b) => modUpd (fun u => { u with graftOn := true, part := p, blocks := b }) s
      | c, _ =>
        let ver := lastFlipped s
        let s := s.upd.flipped.foldl (fun s p => setPart p (fun x => { x with active := flipSel x.active, version := x.prevVersion, iface := x.prevIface, reqMin := x.prevReqMin }) s) s
        let s := modUpd (fun u => { u with state := .idle, progress := none, flipped := [], part := 0, blocks := 0 }) s
        rejectSet (c.getD 0) ver s)
    | _ => s

/-- The stored set is staged whole, or the staging area starts empty (R63, R516). -/
def stageStored (s : State) : State :=
  let c := s.stg.copies[s.stg.marked]
  if c.valid then
    modStg (fun g => { g with autoTried := false, kept := false, storedOk := true, tables := c.tables, seq := c.seq, staged := c.tables.map fun t => some { bytes := t } }) s
  else raise 6 0x0941 (modStg (fun g => { g with autoTried := false, kept := false, storedOk := false, seq := 0, staged := Vector.replicate 16 none }) s)

/-- The fault state of a park returns (R442); START begins (R420). -/
def restoreFaults (s : State) : State :=
  let held := s.flt.riHeld
  let s := match s.pw.saved with
    | some f => { s with flt := { s.flt with srcs := f.srcs, c2 := f.c2, c3 := f.c3, c3Src := f.c3Src, rstCause := f.rstCause, leftC3 := false },
                         pw := { s.pw with saved := none } }
    | none => s
  modFlt (fun f => { f with phase := .start, interrupted := .start, c3 := f.c3 || f.c3Latch, riHeld := [], pending := f.pending ++ held }) s

/-- Modes of the pairs at a start (R367): those of the stored set; a shadow starts DELAY cycles behind (R368). -/
def pairModes (s : State) : State :=
  { s with pairs := mapFin s.pairs fun k p => { p with split := 2 ≤ k.val && storedU s 15 (16 + k.val) 1 == 1, lag := pairDelay s } }

/-- Raises and events held on dies are delivered once their links are up (R412). -/
def deliverHeld (d : Die → Bool) (s : State) : State :=
  let mine := (s.flt.held.filter fun h => d h.1).map (·.2)
  let evs := (s.heldEvents.filter fun h => d h.1).map (·.2)
  let s := { s with heldEvents := s.heldEvents.filter fun h => !d h.1 }
  let s := modFlt (fun f => { f with held := f.held.filter fun h => !d h.1, pending := f.pending ++ mine }) s
  evs.foldl (fun s r => releaseReport r s) s

/-- The exits from the states that a device reset has ended are reported (R424). -/
def reportEnded (s : State) : State :=
  s.flt.ended.foldl (fun s x => faultState false x.1 x.2.1 x.2.2 s) (modFlt (fun f => { f with ended := [] }) s)

/-- Step 7 of R448 lies ahead: it comes 6 ms after the reset release at the earliest, 1 ms later where the base die is to be
configured. -/
def step7Delay (s : State) : Nat := if s.pw.retention && s.pw.state != .deep then ms 6 else ms 7

/-- Step 7 of R448: links, heat state (R125), fault state, stored set, session 2 (R84), the power events (R456). -/
def startStep7 (s : State) : State :=
  let lost := s.pw.posLost
  let s := heatRestore { s with linkDown := [] }
  let s := pairModes (reportEnded (stageStored (restoreFaults s)))
  let s := nsStart (fsStart (modPw (fun w => { w with posLost := false }) s))
  let s := deliverHeld (fun _ => true) (hbStart lost s)
  let s := asReportLost (if sessionOpen s 2 then s else openRuntimeSession s)
  let s := netReplay (modPw (fun w => { w with ready := true, startDue := none }) s)
  let s := powerEvent .run s.pw.state 2 s.dt (modPw (fun w => { w with state := .run }) s)
  match s.pw.latched with
  | none => s
  | some (src, rt, rep) =>
    let s := modPw (fun w => { w with latched := none }) s
    if src == 0 then s else emitAt s.pw.evtRing 0x3181 0x0F00 (src + 16 * b2n rep) rt rt true s

/-- What a start finds damaged by their CRC (R63, R123, R125): the stored set, mirrors, snapshot copies. -/
def dropDamaged (found : StartFindings) (s : State) : State :=
  let s := if found.setOk then s else modStg (fun g => { g with copies := upd g.copies g.marked fun c => { c with valid := false } }) s
  modLd (fun l => { l with mirror := mapFin l.mirror fun n m => if found.badMirrors.contains n then none else m
                           snaps := mapFin l.snaps fun i x => if found.badSnaps.contains i then none else x }) s

/-- Sessions close at a start-up, with a record and without vector 69 (R83, R85). -/
def closeSessions (s : State) : State :=
  ((idxs 4).filter fun n => s.ses[n].isOpen).foldl (fun s (n : Fin 4) => sessionClosedQuietly n s) s

/-- Step 7 comes in its time, once the voltage of step 6 is acknowledged or given up and no graft runs: no command names it
(R448). -/
def startTick (s : State) : State :=
  match s.pw.startDue with
  | some t => if t ≤ s.dt && s.pw.vout.isNone && !(s.upd.graftOn && s.upd.state == .grafting) then startStep7 s else s
  | none => s

/-- DIGITAL_DIE_START: steps 3 to 6 of R448, once REG_WAKE is high and the supplies are within limits. With C3_LATCH = 1 the
device safe state stands from here on (R421). -/
def digitalDieStart (found : StartFindings) (s : State) : State :=
  if !found.xtalRuns then
    let s := xtal40Failed s
    modFlt (fun f => { f with c3Latch := true }) s
  else
    let src := (s.pw.latched.map (·.1)).getD 0
    let lost := s.pw.dtLost
    let due := step7Delay s
    let s := modFlt (fun f => { f with c3 := f.c3 || f.c3Latch }) (setTime (dropDamaged found s))
    let s := modPw (fun w =>
      { w with dieOn := true, clocks := true, dtLost := false, enginePll := true, vbat := found.vbat, vMeas := found.vcore, startDue := some (s.dt + due)
               wakeSrc := if w.latched.isSome || !w.retention then src else w.wakeSrc
               wakeReplayed := (w.latched.map (·.2.2)).getD false
               wakes := if w.latched.isSome then sat 16 (w.wakes + 1) else w.wakes
               pairDt := s.dt, pairRt := s.rt, releaseDt := s.dt, retention := true, posLost := lost }) s
    let s := closeSessions (startRecord (heartwoodScan (requestVcore 800 true none .run s)))
    let s := asStart found.counterOk (discoverXspi found s)
    let s := found.failedPairs.foldl (fun s x => pairSelfTestFailed x.1 x.2 s) s
    bootChecks s

/-- DIGITAL_DIE_START: R448, at the earliest 0.61 ms (10 RT ticks) after REG_WAKE. -/
def execDigitalDieStart (found : StartFindings) (s : State) : Out :=
  .next (onlyIf (s.pw.rootOn && !s.pw.dieOn && s.pw.regWake && s.pw.regWakeRt + 10 ≤ s.rt && !s.pw.xtal40Bad) (digitalDieStart found) s)

/-- ROOT_ISLAND_POWER_ON: the root island starts from its own reset, and REG_WAKE rises 0.8 ms (14 RT ticks) later (R421, R436,
R448, R452, R457). -/
def execRootIslandPowerOn (vbat : Nat) (s : State) : Out :=
  .next (onlyIf (!s.pw.rootOn) (fun s =>
    { s with rt := 0, rtPhase := 0, flt := { s.flt with c3Latch := false, rstCause := 0, leftC3 := false, ended := [], riHeld := [] }
             ses := s.ses.map fun x => { x with fails := 0, lockEnd := none }
             pw := { rootOn := true, regRise := some 14, vbat := vbat } }) s)

/-- ROOT_ISLAND_SUPPLY_LOSS: RT, retention RAM, latches and the release session are lost and every die stops (R452), but for a
field die that its backup keeps alive, with what it holds (R218). Sessions that were open close at the next start-up (R83). -/
def execRootIslandSupplyLoss (s : State) : Out :=
  .next (onlyIf s.pw.rootOn (fun s =>
    let old := s
    let s := familySupplyLoss { dieOff false false s with fs := old.fs }
    let ofField := fun l : List (Die × Raise) => l.filter fun h => h.1 == .field
    let held := if s.fs.powered then ofField old.flt.held ++ ofField s.flt.held else []
    let evs := if s.fs.powered then old.heldEvents.filter (fun h => h.1 == .field) ++ s.heldEvents else []
    { s with flt := { held := held }, heldEvents := evs, pw := { rootOn := false }, ses := s.ses.map fun x => { isOpen := x.isOpen : Ses } }) s)

/-- GRAFT_BLOCK: R475 to R477; step 7 of the start waits for the last block. -/
def execGraftBlock (writeOk : Bool) (s : State) : Out :=
  .next (onlyIf (s.pw.dieOn && s.upd.graftOn && s.upd.state == .grafting) (fun s => (graftBlock writeOk s).2) s)

/-- A die that has its SAFE entries applies them to its outputs (R16, R231). -/
def safeDelivered (d : Die) (s : State) : State := if d == .field then fsSafeEntries s else safeEntry (dieOuts d) 0xFFFF s

/-- SAFE_ENTRIES_DELIVERED: R16, R516. -/
def execSafeEntriesDelivered (die : Die) (s : State) : Out :=
  .next (onlyIf (s.pw.ready && die != .digital && !dieDown s die && !s.safeHere.contains die)
    (fun s => safeDelivered die { s with safeHere := s.safeHere ++ [die] }) s)

/-- Link source of a die (R427). -/
def linkSource : Die → Nat
  | .loadA => 18
  | .loadB => 19
  | .base => 20
  | .field => 21
  | .digital => 0

/-- LINK_FAILURE: R12, R76. -/
def execLinkFailure (die : Die) (s : State) : Out :=
  .next (whenOn (onlyIf (die != .digital && !dieDown s die) fun s =>
    commitLinkLost (linkSource die) (dieLost die (linkSource die) (raise (linkSource die) 0xFFFF { s with linkDown := s.linkDown ++ [die] }))) s)

/-- LINK_RETURN: held raises, the heat mirror and events are delivered (R412). -/
def execLinkReturn (die : Die) (s : State) : Out :=
  .next (whenOn (onlyIf (dieDown s die) fun s =>
    dieBack die (deliverHeld (· == die) { s with linkDown := s.linkDown.filter (· != die) })) s)

/-- The C2 and C3 states that a device reset ends (R421, R423). -/
def statesEnded (f : FaultSt) : List (Bool × Nat × Nat) :=
  (f.c2.map fun c => (false, c.target, c.src)) ++ (if f.c3 && !f.c3Latch then [(true, 0x0F00, f.c3Src)] else [])

/-- A device reset by its cause (R423): all but the root island. -/
def deviceReset (cause : Nat) (s : State) (brownout : Bool := false) : State :=
  let s := modFlt (fun f => { f with leftC3 := f.leftC3 || f.c3, ended := f.ended ++ statesEnded f, rstCause := cause }) s
  modPw (fun w => { w with retention := true, saved := none }) (dieOff false brownout s)

/-- DEVICE_RESET: R423, R426, R429, R464, R478. The CAUSE code of a reset that ends a trial is free: R431 lists none. -/
def execDeviceReset (r : ResetSource) (s : State) : Out :=
  .next (match r with
    | .resetPin => whenOn (deviceReset 1) s
    | .faultReset =>
      (match s.flt.resetDue with
      | some (t, .faultReset) => if t ≤ s.dt then deviceReset 2 (modHw (fun h => { h with marker := some h.newest }) s) else s
      | _ => s)
    | .watchdog => (match s.flt.wdFired with | some t => if t + ms 10 ≤ s.dt then deviceReset 3 s else s | none => s)
    | .trialTimeout =>
      (match s.flt.resetDue with
      | some (t, .trialTimeout) => if t ≤ s.dt then (let (c, s) := takeFree 4 s; deviceReset c s) else s
      | _ => s))

/-- VCORE_BROWNOUT: the digital die is held in reset, the dies apply SAFE by their own logic; the next start follows
1 ms (17 RT ticks) later at the earliest (R450). -/
def execVcoreBrownout (s : State) : Out :=
  .next (whenOn (fun s =>
    let was := s.flt.c3
    let s := modPw (fun w => { w with regWakeRt := s.rt + 7 }) s
    let s := safeEntry (allOuts.filter fun o => outDie o != .digital) 254 (modFlt (fun f => { f with c3 := true }) s)
    raise 254 0xFFFF (deviceReset 4 (modFlt (fun f => { f with c3 := was }) s) true)) s)

end Sys2Proof.Machine
end

