-- ==== Sys2Proof/Machine/RegsDev.lean ====
section
/-! DEFINITION. What a read of a register of the digital die returns: identification, rings, staging, sessions, host
bridge, fault collector, power, heartwood, update, pairs, performance counters (R3, R34 to R36, R67, R83, R383, R402, R410,
R431, R457, R482, R492). Every function takes the offset within its block; a place without a register reads 0. -/

namespace Sys2Proof.Machine

/-- Index of a register array: `a` lies in `n` blocks of `size` bytes from `base`; block number and offset in it. -/
def inBlock (a base size n : Nat) : Option (Nat × Nat) :=
  if base ≤ a && a < base + size * n then some ((a - base) / size, (a - base) % size) else none

/-- A half of a 64-bit value: 0 the low word, 1 the high word. -/
def half (x h : Nat) : Nat := fld x (32 * h) 32

/-- DEV_ID and DEV_PARAM_0 to 3 (R3). -/
def idReg (off : Nat) : Nat :=
  match off with
  | 0x00 => 0x02210964
  | 0x04 => 0x30104044
  | 0x08 => 0x40848820
  | 0x0C => 0x40002000
  | 0x10 => 0x00500100
  | _ => 0

/-- RING_CFG's RW fields (R30), RING_IRQ (R35), RING_STAT (R36). -/
def ringCfg (r : Ring) : Nat := putF r.compRing 18 6 + putF (b2n r.prio) 17 1 + putF (b2n r.role) 16 1 + putF r.sizeLog2 8 5 + putF r.stallMs 0 8
def ringIrq (r : Ring) : Nat := putF r.timerUs 16 16 + putF (b2n r.irqEn) 15 1 + putF r.count 0 8
def ringStat (r : Ring) : Nat :=
  putF r.evtDrop 16 16 + putF (b2n r.active) 7 1 + putF (b2n r.cfgIgn) 6 1 + putF (b2n r.dbBad) 5 1 + putF (b2n r.fetchErr) 4 1

/-- A set-up register of a ring. -/
def ringReg (r : Ring) (off : Nat) : Nat :=
  match off with
  | 0x00 => half r.base 0
  | 0x04 => half r.base 1
  | 0x08 => ringCfg r
  | 0x0C => half r.shadow 0
  | 0x10 => half r.shadow 1
  | 0x14 => r.idx
  | 0x18 => ringIrq r
  | 0x1C => ringStat r
  | _ => 0

/-- STG_STAT (R67). -/
def stgStat (s : State) : Nat :=
  let g := s.stg
  putF g.statCheck 24 8 + putF g.statTable 16 8 + putF g.statStatus 8 8 + putF (b2n (stgLocked s)) 7 1 + putF (b2n g.noSes) 6 1 +
    putF (b2n g.offsetBad) 5 1 + putF (b2n g.lockIgn) 4 1

/-- Bits of the four sessions that a test selects. -/
def sesBits (f : Nat → Bool) : Nat := ((List.range 4).map fun n => if f n then 2 ^ n else 0).foldl (· + ·) 0

/-- STG_CTRL to STG_FAIL (R67) and SES_STAT (R83). -/
def stgReg (s : State) (off : Nat) : Nat :=
  let g := s.stg
  match off with
  | 0x00 => putF g.ctrlSession 24 2 + putF g.ctrlTable 0 8
  | 0x04 => g.offset
  | 0x0C => stgStat s
  | 0x10 => g.seq
  | 0x14 => stagedMap s
  | 0x18 => putF g.failDetail 16 16 + putF g.failEntry 0 16
  | 0x20 => putF (sesBits fun n => sesLocked s n) 8 4 + putF (sesBits fun n => sessionOpen s n) 0 4
  | _ => 0

/-- HB_STAT (R410). -/
def hbStatReg (s : State) : Nat :=
  let h := s.host
  putF (tagsOut s) 24 8 + putF h.inReads.length 18 6 + putF h.linkSpeed 16 2 + putF h.linkWidth 14 2 + putF (b2n h.cfgIgn) 2 1 + putF (b2n h.badWrite) 1 1 + b2n h.linkUp

/-- Bridge registers (R410). -/
def hostReg (s : State) (off : Nat) : Nat :=
  let h := s.host
  match inBlock off 0x100 8 16 with
  | some (k, o) =>
    let g := (at? h.segs k).getD {}
    if o == 0 then putF (g.base / 2 ^ 27) 27 5 + putF (b2n g.confirm) 2 1 + putF (b2n g.prefetch) 1 1 + b2n g.en else half g.base 1
  | none =>
    match off with
    | 0x00 => putF h.evtRing 24 8 + putF h.tagToMs 16 8 + putF h.discard100us 8 8 + b2n h.winEn
    | 0x04 => hbStatReg s
    | 0x10 => h.tagIssued
    | 0x14 => h.tagDone
    | 0x18 => h.tagTo
    | 0x1C => h.pfUnused
    | 0x20 => h.pfBytes
    | 0x24 => h.lateCpl
    | 0x28 => h.drDiscard
    | 0x2C => h.lost
    | _ => 0

/-- MSI-X table and pending bits (R402). -/
def msixReg (e : MsixEntry) (off : Nat) : Nat :=
  match off with
  | 0x0 => e.addrLo
  | 0x4 => e.addrHi
  | 0x8 => e.data
  | _ => b2n e.masked
def pbaReg (s : State) (w : Nat) : Nat := ((List.range 32).map fun i => if (at? s.host.pba (32 * w + i)).getD false then 2 ^ i else 0).foldl (· + ·) 0

/-- Code of FC_STAT.PHASE. -/
def phaseCode : Phase → Nat
  | .normal => 0
  | .start => 1
  | .test => 2
  | .recovery => 3

/-- Own classes of sources 16 * w to 16 * w + 15 (FC_CLASS_w, R431). -/
def classReg (w : Nat) : Nat := ((List.range 16).map fun i => if srcDefined (16 * w + i) then srcClass (16 * w + i) * 4 ^ i else 0).foldl (· + ·) 0

/-- Collector registers (R431). -/
def faultReg (s : State) (off : Nat) : Nat :=
  let f := s.flt
  if off < 0x20 then srcBits s (off / 4) (·.sticky)
  else if off < 0x40 then srcBits s ((off - 0x20) / 4) (·.esc)
  else if 0x80 ≤ off && off < 0xC0 then classReg ((off - 0x80) / 4)
  else match off with
    | 0x40 => putF (b2n f.c3) 31 1 + putF (b2n f.c3Latch) 30 1 + putF (phaseCode f.phase) 28 2 + putF (sat 8 f.c2.length) 8 8 +
        sat 8 (f.srcs.toList.filter fun x => x.sticky).length
    | 0x44 => putF (b2n f.lastInjected) 13 1 + putF (b2n f.lastEsc) 12 1 + putF f.lastEff 10 2 + putF f.lastOwn 8 2 + putF f.lastSrc 0 8
    | 0x48 => putF f.raises 16 16 + putF f.escalations 0 16
    | 0x4C => putF f.rstCause 0 4
    | _ => 0

/-- PWR_STAT (R457). -/
def pwrStat (s : State) : Nat :=
  let w := s.pw
  let (target, ph) := match w.run with
    | some p => (pcode p.target, if p.tc.isSome then 2 else 1)
    | none => (match w.vout with | some r => pcode r.target | none => pcode w.state, 0)
  putF (pcode w.state) 29 3 + putF target 26 3 + putF ph 24 2 + putF w.blocker 20 4 + putF (b2n w.cfgIgn) 19 1 + putF (b2n w.pfw) 18 1 +
    putF (b2n w.crank) 17 1 + putF (b2n w.xtal32) 16 1 + putF w.vbat 0 16

/-- Power registers (R457). -/
def powerReg (s : State) (off : Nat) : Nat :=
  let w := s.pw
  match off with
  | 0x00 => putF w.evtRing 24 8 + putF w.entryTo 16 8 + putF w.pmbAddr 8 7 + putF (b2n w.wakenEn) 4 1 + putF (b2n w.hostWakeEn) 3 1 +
      putF (b2n w.alarmEn) 2 1 + putF (b2n w.autoCommit) 1 1
  | 0x04 => pwrStat s
  | 0x08 => putF (b2n w.wakeReplayed) 20 1 + putF w.wakeSrc 16 4 + putF w.wakes 0 16
  | 0x0C => half w.alarm 0
  | 0x10 => fld w.alarm 32 16
  | 0x14 => half w.pairDt 0
  | 0x18 => half w.pairDt 1
  | 0x1C => half w.pairRt 0
  | 0x20 => fld w.pairRt 32 16
  | 0x24 => putF w.vReq 16 16 + putF w.vMeas 0 16
  | _ => 0

/-- Heartwood and update registers (R482). -/
def heartReg (s : State) (off : Nat) : Nat :=
  match off with
  | 0x00 => putF s.hw.wrDenied 24 8 + putF s.hw.archMiss 16 8 + putF (sat 8 s.hw.queue.length) 8 8 + b2n (1024 ≤ s.hw.firstUsed)
  | 0x04 => s.hw.newest
  | 0x08 => s.hw.oldest
  | 0x0C => s.upd.evtRing
  | 0x10 => updStat s
  | _ => match inBlock off 0x20 4 5 with | some (p, _) => ((at? s.upd.parts p).getD {}).version | none => 0

/-- BAR0's registers other than the doorbells, from 0x4009_0000 (R386); doorbells read the last accepted value. -/
def bar0Reg (s : State) (off : Nat) : Nat :=
  if off < 0x100 then ((at? s.rings (off / 4)).getD {}).db
  else if off < 0x1000 then 0
  else if off < 0x1800 then (match inBlock off 0x1000 0x20 64 with | some (n, o) => ringReg ((at? s.rings n).getD {}) o | none => 0)
  else if off < 0x2000 then 0
  else if off < 0x2024 then stgReg s (off - 0x2000)
  else if off < 0x4000 then 0
  else if off < 0x4180 then hostReg s (off - 0x4000)
  else if off == 0x5000 then putF s.host.archive 16 16 + putF s.host.nursery 0 16
  else if 0x6000 ≤ off && off < 0x60C0 then faultReg s (off - 0x6000)
  else if 0x7000 ≤ off && off < 0x7028 then powerReg s (off - 0x7000)
  else if 0x8000 ≤ off && off < 0x8500 then (match inBlock off 0x8000 16 80 with | some (v, o) => msixReg ((at? s.host.msix v).getD {}) o | none => 0)
  else if 0x9000 ≤ off && off < 0x9010 then pbaReg s ((off - 0x9000) / 4)
  else if 0xA000 ≤ off && off < 0xA034 then heartReg s (off - 0xA000)
  else 0

/-! ### Pairs -/

/-- HANDOVER of PAIR_STAT. -/
def hoCode (p : PairSt) : Nat :=
  match p.phase with
  | .none => 0
  | .holding => 1
  | .checkpoint => 2
  | .moving => 3
  | .copying => 4
  | .testing => 5
  | .ending => 0

/-- Programs placed on an engine. -/
def progsOn (s : State) (e : Nat) : List Prog := s.stg.place.progs.filter fun p => p.engine == e

/-- PAIR_STAT (R383). LAG shows the lag of a coupled pair. -/
def pairStat (s : State) (k : Nat) : Nat :=
  let p := (at? s.pairs k).getD {}
  putF (b2n p.split) 31 1 + putF (hoCode p) 28 3 + putF (b2n p.mergeBlk) 27 1 + putF (b2n p.halted) 26 1 +
    putF (if p.split || p.halted then 0 else p.lag) 16 5 + putF (progsOn s (2 * k)).length 8 8 +
    (if p.split then (progsOn s (2 * k + 1)).length % 256 else 0)

/-- Registers of PAIR_k (R383). -/
def pairReg (s : State) (k off : Nat) : Nat :=
  let p := (at? s.pairs k).getD {}
  if !s.stg.inForce then 0
  else match off with
    | 0x00 => pairStat s k
    | 0x04 => p.ckpt
    | 0x08 => p.stall
    | 0x0C => p.mmPc
    | 0x10 => putF p.mmLane 30 2 + putF p.mmBit 23 7
    | _ => 0

/-! ### Performance counters -/

/-- Registers of an engine's counters (R492). -/
def perfReg (s : State) (e off : Nat) : Nat :=
  let p := (at? s.perf.engines e).getD {}
  if off < 0x30 then
    (if off == 0 then half p.cycles 0 else half ((at? p.latched (off / 8)).getD 0) (off / 4 % 2))
  else match inBlock off 0x40 4 4, inBlock off 0x50 4 4 with
    | some (n, _), _ => ((at? p.pmc n).getD {}).count
    | _, some (n, _) =>
      let c := (at? p.pmc n).getD {}
      putF c.prog 24 8 + putF c.cls 19 5 + putF (b2n c.sample) 18 1 + putF c.priv 16 2 + putF c.event 0 8
    | _, _ => if off == 0x60 then putF p.samples 16 16 + putF s.perf.sampleRing 8 8 + putF p.ovf 0 4 else 0

/-- Fabric counters and ring counts, from 0x401A_1000 (R492). -/
def fabReg (s : State) (off : Nat) : Nat :=
  if off < 0x20 then
    let f := (at? s.perf.fabs (off / 8)).getD {}
    if off % 8 == 0 then half f.count 0 else f.latchedHi
  else match inBlock off 0x1000 8 64 with
    | some (n, o) => let r := (at? s.rings n).getD {}; if o == 0 then r.rpcCount else rpcWaitUs r
    | none => 0

end Sys2Proof.Machine
end

