-- ==== Sys2Proof/Machine/RegsFam.lean ====
section
/-! DEFINITION. What a read of a family's register returns: load slices (R115, R141, R167), valves (R196), switch inputs
(R215), field channels (R238), CAN (R271), LIN and gateway (R289), segments (R313), access (R337). Every function takes
the offset within its block; a place without a register reads 0. Until the first commit after a start every field holds
its reset value (R115). -/

namespace Sys2Proof.Machine

/-- A bitmap over `n` places. -/
def bitMap (n : Nat) (f : Nat → Bool) : Nat := ((List.range n).map fun i => if f i then 2 ^ i else 0).foldl (· + ·) 0

/-- Two 16-bit halves of a register. -/
def hiLo (hi lo : Nat) : Nat := putF hi 16 16 + putF lo 0 16

/-! ### Load slices -/

/-- GANG of LCH_CFG (R92): 0 none, 1 leader, 2 member. -/
def gangCode (s : State) (n : Nat) : Nat := match gangOf s n with | some g => if g.1 == n then 1 else 2 | none => 0

/-- LCH_CFG (R115). -/
def lchCfgReg (s : State) (n : Nat) : Nat :=
  putF (b2n (lchEn s n)) 31 1 + putF (b2n (lchBm s n)) 30 1 + putF (lchLoad s n) 28 2 + putF (b2n (lchCp s n)) 27 1 +
    putF (b2n (bitN (lchFlags s n) 2)) 26 1 + putF (safeKind s (.lch n)) 24 2 + putF (gangCode s n) 22 2 + putF (lchU s n 1 1) 16 4 + putF (lchFreq s n) 0 11

/-- LCH_DIAG (R141). -/
def diagReg (rOff on off : Nat) : Nat := hiLo rOff 0 + putF on 8 3 + putF off 0 3

/-- Registers of a load channel (R115, R141). -/
def lchReg (s : State) (n off : Nat) : Nat :=
  let c := lch s n
  match off with
  | 0x00 => lchCfgReg s n
  | 0x04 => putF c.mode 30 2 + putF (b2n c.timed.isSome) 29 1 + putF c.duty 0 12
  | 0x08 => putF (leavesNow s n) 28 4 + putF ((at? s.stg.place.phase n).getD 0) 16 12 + putF c.dEff 0 12
  | 0x0C => hiLo c.peak c.i
  | 0x10 => lchStat s n
  | 0x14 => hiLo (if lchBm s n then c.grant else 0xFFFF) c.pSw
  | 0x18 => hiLo (t16F c.tAmb) (t16F c.tC)
  | 0x1C => hiLo (sat 16 (c.theta2 / 2 ^ 28)) (sat 16 (c.theta1 / 2 ^ 28))
  | 0x20 => protReg s n
  | 0x24 => diagReg (sat 16 c.rOff) c.onRes c.offRes
  | 0x28 => hiLo (ofSigned 16 c.tSwMax) (ofSigned 16 c.tSw)
  | _ => 0

/-- Their reset values. -/
def lchReset (off : Nat) : Nat := if off == 0x28 then 0x80000000 else 0

/-- Registers of a bank (R115). -/
def bankReg (s : State) (b off : Nat) : Nat :=
  let k := bank s b
  match off with
  | 0x00 => hiLo k.vMin k.v
  | 0x04 => hiLo (sat 16 (((List.range 8).map fun j => (lch s (8 * b + j)).i).foldl (· + ·) 0)) 0 + putF (bitMap 8 fun j => (lch s (8 * b + j)).scLim) 8 8 +
      putF (b2n k.senseBad) 1 1 + b2n k.frozen
  | _ => 0
def vMinReset (off : Nat) : Nat := if off == 0 then 0xFFFF0000 else 0

/-- HB_CFG (R167). -/
def hbCfgReg (s : State) (h : Nat) : Nat :=
  let (kind, partner, isA, freq) := match bridgeAt s h with
    | some c => (c.kind, c.legB, true, c.freq)
    | none => (0, 0, false, hbU s h 4 2)
  putF (b2n (hbEn s h)) 31 1 + putF (hbUse s h) 29 2 + putF kind 26 3 + putF (safeKind s (.hb h)) 24 2 + putF partner 20 4 + putF (b2n isA) 15 1 + putF freq 0 15

/-- Registers of a half-bridge (R167). -/
def hbReg (s : State) (h off : Nat) : Nat :=
  let b := hb s h
  match off with
  | 0x00 => hbCfgReg s h
  | 0x04 => hbStat s h
  | 0x08 => hiLo b.peak (ofSigned 16 b.i)
  | 0x0C => hiLo (match b.op with | some o => if o.kind == 2 || o.kind == 5 then o.target else 0 | none => 0) b.pos
  | 0x10 => hiLo b.ref (sat 16 b.period)
  | 0x14 => hiLo (ofSigned 16 b.tSwMax) (ofSigned 16 b.tSw)
  | 0x18 => putF (b.peakT / 4) 16 9 + putF b.onRes 8 3 + putF b.offRes 0 3
  | _ => 0
def hbReset (off : Nat) : Nat := if off == 0x14 then 0x80000000 else 0

/-- Registers of LS_k (R115, R141, R167). -/
def lsReg (s : State) (k off : Nat) : Nat :=
  match inBlock off 0 0x40 16, inBlock off 0x400 0x40 2, inBlock off 0x800 0x40 4 with
  | some (c, o), _, _ => fromCommit s (lchReset o) (lchReg s (16 * k + c) o)
  | _, some (b, o), _ => fromCommit s (vMinReset o) (bankReg s (2 * k + b) o)
  | _, _, some (h, o) => fromCommit s (hbReset o) (hbReg s (4 * k + h) o)
  | _, _, _ => 0

/-- HEAT_STAT and HEAT_PEAK (R115). -/
def heatBudgetReg (s : State) (off : Nat) : Nat :=
  fromCommit s 0 (match off with
    | 0 => hiLo s.ld.pNonman s.ld.pGrant
    | 4 => hiLo 0 s.ld.pPeak
    | _ => 0)

/-! ### Valves -/

/-- VLV_CFG (R196). -/
def vlvCfgReg (s : State) (v : Nat) : Nat :=
  let f := vlvU s v 0 1
  putF (b2n (bitN f 0)) 31 1 + putF (b2n (bitN f 1)) 30 1 + putF (b2n (bitN f 2)) 29 1 + putF (b2n (vlvU s v 16 2 != 0)) 28 1 +
    putF (safeKind s (.vlv v)) 26 2 + putF (vlvU s v 2 2) 16 9 + putF (vlvU s v 4 2) 0 8

/-- Registers of a group and of a valve (R196). -/
def vgReg (s : State) (g off : Nat) : Nat :=
  match off with
  | 0x00 => vgStat s g
  | 0x04 => hiLo (vg s g).peak (if commonOf s g == 0 then 0 else (vg s g).i)
  | _ => 0
def vlvReg (s : State) (v off : Nat) : Nat :=
  let x := vlv s v
  match off with
  | 0x00 => vlvCfgReg s v
  | 0x04 => vlvStat s v
  | 0x08 => hiLo x.peak x.i
  | 0x0C => diagReg x.lastRet x.onRes x.offRes
  | _ => 0

/-- Boost and ledger registers (R196). -/
def boostReg (s : State) (off : Nat) : Nat :=
  let x := s.vs
  match off with
  | 0x00 => hiLo (vBoost s) 0 + putF (boostU s 2 1) 8 8 + b2n (bitN (boostU s 3 1) 0)
  | 0x04 => hiLo x.cMeas 0 + putF (b2n (x.vCap < vReady s)) 7 1 + putF (b2n x.ovSlow) 6 1 + boostCode x.boost
  | 0x08 => hiLo x.vMin x.vCap
  | 0x30 => ofSigned 32 x.resid
  | 0x34 => putF (sat 8 x.failRun) 16 8 + sat 16 x.tol
  | _ => match inBlock off 0x10 8 4 with
    | some (n, o) => if o == 0 then half ((at? x.ledger n).getD 0) 0 else w32 ((at? x.latched n).getD 0)
    | none => 0

/-- Registers of VS (R196). -/
def vsReg (s : State) (off : Nat) : Nat :=
  match inBlock off 0x100 0x20 4, inBlock off 0x200 0x20 24 with
  | some (g, o), _ => fromCommit s (if o == 0 then 0x00FF0000 else 0) (vgReg s g o)
  | _, some (v, o) => fromCommit s 0 (vlvReg s v o)
  | _, _ => fromCommit s (if off == 8 then 0xFFFF0000 else 0) (boostReg s off)

/-! ### Switch inputs -/

/-- Registers of an input (R215). -/
def swiReg (s : State) (n off : Nat) : Nat :=
  let x := swi s n
  let u := swiU s n
  let f := u 0 1
  match off with
  | 0x00 => putF (b2n (bitN f 0)) 31 1 + putF (b2n (bitN f 1)) 30 1 + putF (b2n (bitN f 2)) 29 1 + putF (b2n (bitN f 3)) 28 1 + putF (fld f 4 2) 26 2 +
      putF (u 1 1) 24 2 + putF (u 2 1) 16 8 + putF (u 3 1) 8 6 + putF (u 4 1) 0 8
  | 0x04 => putF x.bounces 24 8 + putF x.band 20 4 + putF (b2n x.clean.isSome) 7 1 + putF (b2n x.stuck) 6 1 + putF (b2n s.sw.frozen) 5 1 +
      putF (b2n s.sw.thermCap) 4 1 + putF (b2n ((List.range 8).any fun g => bitN (pollU s g 10 1) 0 && bitN (pollU s g 0 6) n)) 3 1 +
      putF (b2n x.valid) 2 1 + putF (b2n (swiRaw s n)) 1 1 + b2n x.level
  | 0x08 => putF x.code 0 12
  | _ => 0

/-- Block registers of IS (R215). -/
def isReg (s : State) (off : Nat) : Nat :=
  match off with
  | 0x1000 => half (swiLevels s) 0
  | 0x1004 => half (swiLevels s) 1
  | 0x1008 => hiLo (wetNow s) 0 + putF (cleaning s) 12 4 +
      putF (b2n s.sw.thermCap) 1 1 + b2n s.sw.frozen
  | 0x100C => putF s.sw.wakeIn 16 6 + putF (if s.sw.wakeIn == 0x3F then 0 else 2 ^ s.sw.wakeGrp) 8 8 + putF s.sw.armed 0 8
  | _ => 0
def swBlockReg (s : State) (off : Nat) : Nat :=
  match inBlock off 0 0x40 48 with
  | some (n, o) => fromCommit s (if o == 4 then 0x00F00000 else 0) (swiReg s n o)
  | none => fromCommit s (if off == 0x100C then 0x003F0000 else 0) (isReg s off)

/-! ### Field channels -/

/-- Registers of a field channel (R238). -/
def fioReg (s : State) (n off : Nat) : Nat :=
  let f := fioFlags s n
  match off with
  | 0x00 => putF (b2n (bitN f 0)) 31 1 + putF (b2n (bitN f 1)) 30 1 + putF (fld f 2 2) 28 2 + putF (b2n (bitN f 4)) 27 1 + putF (safeKind s (.fio n)) 25 2 +
      putF (b2n (bitN f 5)) 24 1 + putF (fioU s n 2 1) 16 8 + putF (fioU s n 4 2) 0 14
  | 0x04 => fioStat s n
  | 0x08 => hiLo (fio s n).peak (fio s n).i
  | _ => 0

/-- Block registers of FS (R238). -/
def fsReg (s : State) (off : Nat) : Nat :=
  let x := s.fs
  match off with
  | 0x1000 => hiLo x.vMin x.v
  | 0x1004 => hiLo x.edgeDrop 0 + putF x.queue.length 8 8 + putF (b2n x.backup) 5 1 + putF (b2n (x.fio.toList.any fun c => c.silent)) 4 1 +
      putF x.supply 2 2 + putF (b2n x.parked) 1 1
  | 0x1008 => w32 (fsLevels s)
  | _ => 0
def fsBlockReg (s : State) (off : Nat) : Nat :=
  match inBlock off 0 0x40 32 with
  | some (n, o) => fromCommit s 0 (fioReg s n o)
  | none => fromCommit s (if off == 0x1000 then 0xFFFF0000 else 0) (fsReg s off)

/-! ### CAN, LIN, gateway, segments -/

/-- Registers of a CAN controller (R271). -/
def canReg (s : State) (n off : Nat) : Nat :=
  let c := can s n
  let u := canU s n
  let f := u 0 1
  let bit := fun i d => putF (b2n (bitN f i)) d 1
  match off with
  | 0x00 => bit 0 31 + bit 1 30 + bit 2 29 + bit 3 28 + bit 4 27 + bit 5 26 + bit 6 25 + bit 7 24 + putF (u 3 1) 16 8 + putF (u 2 1) 8 8 + u 1 1
  | 0x04 => putF (u 4 1) 26 6 + putF (u 5 1) 18 8 + putF (u 6 1) 10 8 + putF (u 7 1) 2 8
  | 0x08 => putF (u 8 1) 26 6 + putF (u 9 1) 16 6 + putF (u 10 1) 8 5 + putF (u 11 1) 0 5
  | 0x0C => putF c.ssp 24 8 + putF c.meas 16 7 + putF (u 13 1) 8 7 + putF (u 12 1) 0 7
  | 0x10 => putF c.recovSeq 24 8 + putF c.lec 20 3 + putF (b2n c.recovering) 18 1 + putF c.st 16 2 + putF (sat 8 c.errs) 8 8 + sat 8 c.tec
  | 0x14 => putF (b2n c.tdcBad) 24 1 + putF c.hold.length 16 8 + putF (seg s n).xcvr 8 2 + putF (txUsed c) 0 6
  | 0x20 => c.q[(0 : Fin 2)].matched
  | 0x24 => c.q[(0 : Fin 2)].accepted
  | 0x28 => c.q[(0 : Fin 2)].dropped
  | 0x2C => c.q[(1 : Fin 2)].matched
  | 0x30 => c.q[(1 : Fin 2)].accepted
  | 0x34 => c.q[(1 : Fin 2)].dropped
  | 0x38 => c.noMatch
  | _ =>
    match inBlock off 0x40 8 8, inBlock off 0x100 8 64 with
    | some (m, o), _ => (match c.sids[m]? with
      | some x => if o == 0 then putF 1 30 1 + putF (b2n x.ide) 29 1 + putF x.ident 0 29 else if o == 4 then hiLo x.total (sat 8 x.run) else 0
      | none => 0)
    | _, some (p, o) => (match ((at? s.stg.place.pairs n).getD [])[p]? with
      | some x => if o == 0 then putF 1 31 1 + putF x.queue 30 1 + putF (b2n x.ide) 29 1 + putF x.ident 0 29 else if o == 4 then putF x.mask 0 29 else 0
      | none => 0)
    | _, _ => 0
def canReset (off : Nat) : Nat := if off == 0 then 0x00FFFFFF else if off == 0xC then 0x007F0000 else 0

/-- Registers of a LIN commander (R289). -/
def linReg (s : State) (n off : Nat) : Nat :=
  let l := lin s n
  match off with
  | 0x00 => putF (b2n (linEn s n)) 31 1 + putF (b2n (bitN (linU s n 0 1) 1)) 30 1 + putF (linU s n 8 1) 25 5 + putF (linU s n 2 2) 0 15
  | 0x04 => putF (l.sched.getD 0xFF) 24 8 + putF l.slot 12 12 + putF (b2n l.coll.isSome) 11 1 + putF (b2n l.busDom) 10 1 + putF (seg s (8 + n)).xcvr 8 2 + putF l.lastErr 0 3
  | 0x08 => hiLo l.noResp l.other
  | _ => 0

/-- Registers of a segment (R313). -/
def netReg (s : State) (b off : Nat) : Nat :=
  let g := seg s b
  match off with
  | 0x0 => putF (segCode g.st) 28 4 + putF g.xcvr 26 2 + putF (b2n g.released) 25 1 + putF (b2n g.isoHost) 24 1 + putF (b2n g.isoAuto) 23 1 +
      putF (b2n (segArmed s b)) 22 1 + putF (b2n g.swk) 21 1 + (if g.st == .quiet && !(8 ≤ b && (lin s (b - 8)).busDom) then sat 16 ((s.dt - g.quietSince) / 80000) else 0)
  | 0x4 => hiLo (segU s b 4 2) (awakeSecs s b)
  | 0x8 => hiLo g.wakes g.swkErr
  | 0xC => (match g.keeper with | some k => putF 1 31 1 + putF k 0 30 | none => 0)
  | _ => 0

/-- Registers of NS (R271, R289, R313). -/
def nsBlockReg (s : State) (off : Nat) : Nat :=
  match inBlock off 0 0x400 8, inBlock off 0x4000 0x200 8, inBlock off 0x7000 0x10 16, inBlock off 0x8000 0x10 2048 with
  | some (n, o), _, _, _ => fromCommit s (canReset o) (canReg s n o)
  | _, some (n, o), _, _ => fromCommit s (if o == 4 then 0xFF000000 else 0) (linReg s n o)
  | _, _, some (b, o), _ => fromCommit s (if o == 0 then 0x3C000000 else 0) (netReg s b o)
  | _, _, _, some (r, o) =>
    let c := routeCnt s r
    fromCommit s 0 (match o with | 0x0 => c.matched | 0x4 => c.forwarded | 0x8 => c.dropped | 0xC => c.superseded | _ => 0)
  | _, _, _, _ =>
    match off with
    | 0x6000 => fromCommit s 0 (hiLo (isoMap s) 0 + putF s.ns.holding.length 0 7)
    | 0x7100 => fromCommit s 0xFFFF0000 (hiLo (bitMap 16 fun b => (seg s b).st == .asleep) (bitMap 16 fun b => (seg s b).released))
    | 0x7104 => fromCommit s 0 (hiLo (bitMap 16 fun b => (seg s b).replayBit) (bitMap 16 fun b => (seg s b).latchBit))
    | _ => 0

/-! ### Access -/

/-- Seconds left of the release session (R330). -/
def sessionLeft (s : State) : Nat :=
  match s.acc.session with
  | some (t, m) => sat 16 ((m * 60 * 1000000000 - (s.rt - t) * 61035 * (if s.pw.xtal32 then 9998 else 9600) / 10000) / 1000000000)
  | none => 0

/-- Registers of AS (R337). -/
def asReg (s : State) (off : Nat) : Nat :=
  let a := s.acc
  match inBlock off 0 0x40 4, inBlock off 0x500 4 7 with
  | some (n, o), _ =>
    if o == 0 then fromCommit s 0 (putF (b2n (coilEn s n)) 31 1 + putF (b2n (a.field == some n)) 30 1 + putF ((at? a.lfDiag n).getD 0) 28 2 + putF ((at? a.lfPeak n).getD 0) 0 16) else 0
  | _, some (k, _) => fromCommit s 0 (match key s k with | some x => putF 1 31 1 + putF (kcv x) 0 24 | none => 0)
  | _, _ =>
    match off with
    | 0x400 => fromCommit s 0x00FF0000 (putF (b2n a.rel.isSome) 31 1 + putF (b2n (relSession s)) 30 1 + putF (b2n a.op.isSome) 29 1 + putF (b2n a.cntBad) 28 1 +
        putF (a.op.elim 0 (·.round)) 24 4 + putF (a.rel.elim 0xFF (·.basis)) 16 8 + sessionLeft s)
    | 0x404 => fromCommit s 0 (hiLo a.missed (a.lastN % 65536))
    | _ => 0

end Sys2Proof.Machine
end

