-- ==== Sys2Proof/Machine/Regs.lean ====
section
/-! DEFINITION. A register read with what it clears or latches, a register write by the field types (R5 to R7, R31,
R386 to R389, R457, R482). -/

namespace Sys2Proof.Machine

/-! ### Reads -/

/-- Value of the register at a device address (R5, R386); an address without a register reads 0. -/
def regPeek (a : Nat) (s : State) : Nat :=
  let off := a - 0x40000000
  if a < 0x40000000 || a % 4 != 0 then 0
  else if off < 0x20 then idReg off
  else if off < 0x90000 then 0
  else if a == 0x40093000 || a == 0x40093004 then heatBudgetReg s (a - 0x40093000)
  else if off < 0xA0000 then bar0Reg s (off - 0x90000)
  else if 0x100000 ≤ off && off < 0x140000 then lsReg s ((off - 0x100000) / 0x10000) (off % 0x10000)
  else match off / 0x10000 with
    | 0x14 => vsReg s (off % 0x10000)
    | 0x15 => swBlockReg s (off % 0x10000)
    | 0x16 => fsBlockReg s (off % 0x10000)
    | 0x17 => nsBlockReg s (off % 0x10000)
    | 0x18 => asReg s (off % 0x10000)
    | 0x19 => (match inBlock (off % 0x10000) 0 0x40 8 with | some (k, o) => pairReg s k o | none => 0)
    | 0x1A =>
      let o := off % 0x10000
      if o < 0x1000 then perfReg s (o / 0x100) (o % 0x100) else fabReg s (o - 0x1000)
    | _ => 0

/-- What is left in a field of `w` bits at `lo` after the read that clears it: its reset value, or what an event of the
same register cycle put there (R7); `late` holds the whole register as those events left it. -/
def keptF (late : Option Nat) (lo w reset : Nat) : Nat := match late with | some x => fld x lo w | none => reset
def keptHi (late : Option Nat) (reset : Nat) : Nat := keptF late 16 16 reset
/-- As `keptHi` for the signed field T_SW_MAX. -/
def keptTemp (late : Option Nat) : Int := match late with | some x => toSigned 16 (fld x 16 16) | none => -32768

/-- A read of a register of LS_k clears its read-clear field. -/
def lsClear (late : Option Nat) (k off : Nat) (s : State) : State :=
  match inBlock off 0 0x40 16, inBlock off 0x400 0x40 2, inBlock off 0x800 0x40 4 with
  | some (c, o), _, _ =>
    if o == 0x0C then setLch (16 * k + c) (fun x => { x with peak := keptHi late 0 }) s
    else if o == 0x28 then setLch (16 * k + c) (fun x => { x with tSwMax := keptTemp late }) s
    else s
  | _, some (b, o), _ => if o == 0 then setBank (2 * k + b) (fun x => { x with vMin := keptHi late 0xFFFF }) s else s
  | _, _, some (h, o) =>
    if o == 0x08 then setHb (4 * k + h) (fun x => { x with peak := keptHi late 0 }) s
    else if o == 0x14 then setHb (4 * k + h) (fun x => { x with tSwMax := keptTemp late }) s
    else s
  | _, _, _ => s

/-- The same for VS; a read of a ledger's low word latches its high word (R196). -/
def vsClear (late : Option Nat) (off : Nat) (s : State) : State :=
  if off == 8 then modVs (fun x => { x with vMin := keptHi late 0xFFFF }) s
  else match inBlock off 0x10 8 4, inBlock off 0x100 0x20 4, inBlock off 0x200 0x20 24 with
    | some (n, o), _, _ => (match fin? 4 n with | some n => if o == 0 then latchLedger n s else s | none => s)
    | _, some (g, o), _ => if o == 4 then setVg g (fun x => { x with peak := keptHi late 0 }) s else s
    | _, _, some (v, o) => if o == 8 then setVlv v (fun x => { x with peak := keptHi late 0 }) s else s
    | _, _, _ => s

/-- The same for IS, FS, NS, AS. -/
def swClear (late : Option Nat) (off : Nat) (s : State) : State :=
  match inBlock off 0 0x40 48 with
  | some (n, o) => if o == 4 then setSwi n (fun x => { x with bounces := keptF late 24 8 0 }) s else s
  | none => s
def fsClear (late : Option Nat) (off : Nat) (s : State) : State :=
  match inBlock off 0 0x40 32 with
  | some (n, o) =>
    if o == 4 then setFio n (fun x => { x with bounces := keptF late 24 8 0 }) s
    else if o == 8 then setFio n (fun x => { x with peak := keptHi late 0 }) s
    else s
  | none => if off == 0x1000 then modFs (fun x => { x with vMin := keptHi late 0xFFFF }) s else s
def nsClear (late : Option Nat) (off : Nat) (s : State) : State :=
  match inBlock off 0x4000 0x200 8, inBlock off 0x7000 0x10 16 with
  | some (n, o), _ => if o == 8 then setLin n (fun x => { x with noResp := keptHi late 0, other := keptF late 0 16 0 }) s else s
  | _, some (b, o) => if o == 8 then setSeg b (fun x => { x with wakes := keptHi late 0 }) s else s
  | _, _ => s
def asClear (late : Option Nat) (off : Nat) (s : State) : State :=
  if off == 0x404 then modAcc (fun a => { a with missed := keptHi late 0 }) s
  else match inBlock off 0 0x40 4 with
    | some (n, o) => if o == 0 then modAcc (fun a => { a with lfPeak := updN a.lfPeak n fun _ => keptF late 0 16 0 }) s else s
    | none => s

/-- The same for the digital die: collector, wakes, heartwood, pairs, counters (R383, R431, R457, R482, R492). -/
def devClear (late : Option Nat) (a : Nat) (s : State) : State :=
  if a == 0x40096048 then modFlt (fun f => { f with raises := keptHi late 0, escalations := keptF late 0 16 0 }) s
  else if a == 0x40097008 then modPw (fun w => { w with wakes := keptF late 0 16 0 }) s
  else if a == 0x4009A000 then modHw (fun h => { h with wrDenied := keptF late 24 8 0, archMiss := keptF late 16 8 0 }) s
  else match inBlock a 0x40190000 0x40 8, inBlock a 0x401A0000 0x100 16, inBlock a 0x401A1000 8 4 with
    | some (k, o), _, _ => if o == 8 then setPair k (fun p => { p with stall := keptF late 0 32 0 }) s else s
    | _, some (e, o), _ =>
      (match fin? 16 e with
      | some e =>
        if o == 0 then latchFixed e s
        else if o == 0x60 then { s with perf := { s.perf with engines := upd s.perf.engines e fun p => { p with samples := keptHi late 0, ovf := keptF late 0 4 0 } } }
        else s
      | none => s)
    | _, _, some (n, o) => (match fin? 4 n with | some n => if o == 0 then latchFab n s else s | none => s)
    | _, _, _ => s

/-- What a read of a register does to the state (R5, R7): read-clear fields are cleared, low halves latch. -/
def regClear (late : Option Nat) (a : Nat) (s : State) : State :=
  if a == 0x40093004 then modLd (fun l => { l with pPeak := keptF late 0 16 0 }) s
  else if 0x40100000 ≤ a && a < 0x40140000 then lsClear late ((a - 0x40100000) / 0x10000) (a % 0x10000) s
  else match a / 0x10000 with
    | 0x4014 => vsClear late (a % 0x10000) s
    | 0x4015 => swClear late (a % 0x10000) s
    | 0x4016 => fsClear late (a % 0x10000) s
    | 0x4017 => nsClear late (a % 0x10000) s
    | 0x4018 => asClear late (a % 0x10000) s
    | _ => devClear late a s

/-- A read of a register: its value and the state after it. -/
def regRead (a : Nat) (s : State) : Nat × State := (regPeek a s, regClear none a s)

/-! ### Writes -/

/-- EVT_RING values a set-up register takes. -/
def ringValue (x : Nat) : Bool := x < 64 || x == 0xFF

/-- A write of HB_CFG (R410). -/
def hbCfgWrite (v : Nat) (s : State) : State :=
  let ring := fld v 24 8
  let tmo := fld v 16 8
  let disc := fld v 8 8
  if ringValue ring && 1 ≤ tmo && tmo ≤ 50 && 1 ≤ disc && disc ≤ 100 then
    modHost (fun h => { h with evtRing := ring, tagToMs := tmo, discard100us := disc, winEn := bitN v 0 }) s
  else modHost (fun h => { h with cfgIgn := true }) s

/-- A write of a bridge register (R410). -/
def hostWrite (off v : Nat) (s : State) : State :=
  if off == 0 then hbCfgWrite v s
  else if off == 4 then modHost (fun h => { h with cfgIgn := h.cfgIgn && !bitN v 2, badWrite := h.badWrite && !bitN v 1 }) s
  else match inBlock off 0x100 8 16 with
    | some (k, o) =>
      let f := fun g : Segment =>
        if o == 0 then { g with base := setLo g.base (fld v 27 5 * 2 ^ 27), confirm := bitN v 2, prefetch := bitN v 1, en := bitN v 0 }
        else if o == 4 then { g with base := setHi g.base v }
        else g
      modHost (fun h => { h with segs := updN h.segs k f }) s
    | none => s

/-- A write of PWR_CFG, PWR_ALARM or PWR_STAT (R457). -/
def powerWrite (off v : Nat) (s : State) : State :=
  let setUp := fun (ok : Bool) (f : PowerSt → PowerSt) =>
    if ok && (s.pw.state == .run || s.pw.state == .idle) then modPw f s else modPw (fun w => { w with cfgIgn := true }) s
  match off with
  | 0x00 => setUp (ringValue (fld v 24 8) && 1 ≤ fld v 16 8) fun w =>
      { w with evtRing := fld v 24 8, entryTo := fld v 16 8, pmbAddr := fld v 8 7, wakenEn := bitN v 4, hostWakeEn := bitN v 3, alarmEn := bitN v 2, autoCommit := bitN v 1 }
  | 0x04 => modPw (fun w => { w with cfgIgn := w.cfgIgn && !bitN v 19 }) s
  | 0x0C => setUp true fun w => { w with alarm := setLo w.alarm v }
  | 0x10 => setUp true fun w => { w with alarm := setHi w.alarm (fld v 0 16) }
  | _ => s

/-- A write of a word of the MSI-X table (R402). -/
def msixWrite (v o x : Nat) (s : State) : State :=
  let f := fun e : MsixEntry => match o with
    | 0x0 => { e with addrLo := x }
    | 0x4 => { e with addrHi := x }
    | 0x8 => { e with data := x }
    | _ => { e with masked := bitN x 0 }
  sendPending (modHost (fun h => { h with msix := updN h.msix v f }) s)

/-- A write of a ring's set-up register (R29 to R36). -/
def ringWordWrite (n : Fin 64) (o v : Nat) (s : State) : State :=
  match o with
  | 0x00 => ringSetupWrite n .baseLo v s
  | 0x04 => ringSetupWrite n .baseHi v s
  | 0x08 => ringSetupWrite n .cfg v s
  | 0x0C => ringSetupWrite n .shadowLo v s
  | 0x10 => ringSetupWrite n .shadowHi v s
  | 0x18 => ringSetupWrite n .irq v s
  | 0x1C => setRing n (fun r => { r with cfgIgn := r.cfgIgn && !bitN v 6, dbBad := r.dbBad && !bitN v 5, fetchErr := r.fetchErr && !bitN v 4 }) s
  | _ => s

/-- A write of a staging register (R67). -/
def stgWrite (off v : Nat) (s : State) : State :=
  match off with
  | 0x00 => stgCtrlWrite v s
  | 0x04 => modStg (fun g => { g with offset := fld v 0 20 }) s
  | 0x08 => stgDataWrite v s
  | 0x0C => modStg (fun g => { g with noSes := g.noSes && !bitN v 6, offsetBad := g.offsetBad && !bitN v 5, lockIgn := g.lockIgn && !bitN v 4 }) s
  | _ => s

/-- A write of a whole word to a device address of the register space (R5, R6): registers without a writable field and
places without a register ignore it (R115, R386). -/
def regWrite (a v : Nat) (s : State) : State :=
  if a < 0x40090000 || 0x400A0000 ≤ a || a % 4 != 0 then s
  else
    let off := a - 0x40090000
    match inBlock off 0 4 64, inBlock off 0x1000 0x20 64, inBlock off 0x8000 16 80 with
    | some (n, _), _, _ => (match fin? 64 n with | some n => doorbellWrite n v s | none => s)
    | _, some (n, o), _ => (match fin? 64 n with | some n => ringWordWrite n o v s | none => s)
    | _, _, some (n, o) => msixWrite n o v s
    | _, _, _ =>
      if 0x2000 ≤ off && off < 0x2010 then stgWrite (off - 0x2000) v s
      else if 0x4000 ≤ off && off < 0x4180 then hostWrite (off - 0x4000) v s
      else if 0x7000 ≤ off && off < 0x7028 then powerWrite (off - 0x7000) v s
      else if off == 0xA00C then modUpd (fun u => { u with evtRing := fld v 0 8 }) s
      else s

/-! ### Configuration space (R384, R385, R402; the layout is that of PCI Express: log entry 47, PRESUMED) -/

/-- The word at an offset of the configuration space. -/
def cfgReg (s : State) (off : Nat) : Nat :=
  let h := s.host
  match off with
  | 0x00 => Config.vendorId.toNat + putF 0x0964 16 16
  | 0x04 => h.cfg.command + 0x00100000
  | 0x08 => fld (idReg 0) 16 8 + putF 0x088000 8 24
  | 0x10 => h.cfg.bar0
  | 0x18 => half h.cfg.bar2 0 + 4
  | 0x1C => half h.cfg.bar2 1
  | 0x34 => 0x40
  | 0x40 => 0x00035001
  | 0x44 => if h.cfg.d3hot then 3 else 0
  | 0x50 => 0x00007011 + putF (79 + putF (b2n h.fnMask) 14 1 + putF (b2n h.msixEn) 15 1) 16 16
  | 0x54 => 0x8000
  | 0x58 => 0x9000
  | 0x70 => 0x00020010
  | 0x74 => 0x21
  | 0x78 => putF h.cfg.maxPayload 5 3 + putF 1 8 1 + putF h.cfg.maxRead 12 3
  | 0x7C => 0x823
  | 0x80 => putF h.linkSpeed 16 4 + putF h.linkWidth 20 6
  | 0x100 => 0x00020001
  | 0x104 => h.cfg.aer
  | _ => 0

/-- A word with the bytes of another where the byte enables say so. -/
def mergeBytes (old v be : Nat) : Nat := ((List.range 4).map fun i => putF (if bitN be i then fld v (8 * i) 8 else fld old (8 * i) 8) (8 * i) 8).foldl (· + ·) 0

/-- A write of a word of the configuration space. The power states that the endpoint has are D0 and D3hot (R384). -/
def cfgWrite (off v be : Nat) (s : State) : State :=
  let x := mergeBytes (cfgReg s off) v be
  let cfg := fun (f : CfgSpace → CfgSpace) => modHost (fun h => { h with cfg := f h.cfg }) s
  match off with
  | 0x04 => cfg fun c => { c with command := Nat.land x 0x0546 }
  | 0x10 => cfg fun c => { c with bar0 := x / 2 ^ 16 * 2 ^ 16 }
  | 0x18 => cfg fun c => { c with bar2 := setLo c.bar2 (x / 2 ^ 28 * 2 ^ 28) }
  | 0x1C => cfg fun c => { c with bar2 := setHi c.bar2 x }
  | 0x44 => cfg fun c => { c with d3hot := if fld x 0 2 == 3 then true else if fld x 0 2 == 0 then false else c.d3hot }
  | 0x50 => sendPending (modHost (fun h => { h with fnMask := bitN x 30, msixEn := bitN x 31 }) s)
  | 0x78 => cfg fun c => { c with maxPayload := fld x 5 3, maxRead := fld x 12 3 }
  | 0x104 => cfg fun c => { c with aer := Nat.xor c.aer (Nat.land c.aer (mergeBytes 0 v be)) }
  | _ => s

/-! ### Meanings -/

/-- The doorbell range (R387). -/
def inDoorbells (a : Nat) : Bool := 0x40090000 ≤ a && a < 0x40090100

/-- A word of a host write is dropped (R388). -/
def badWrite (s : State) : State := raise 13 0x0943 (aerReport aerUnsupported .unsupported (modHost (fun h => { h with badWrite := true }) s))

/-- The words of a host write in ascending order, each with its byte enables (R5, R6, R388). -/
def writeWords (a : Nat) : List (Word × BitVec 4) → State → State
  | [], s => s
  | (v, be) :: l, s => writeWords (a + 4) l (if be == 0xF then regWrite a v.toNat (hostAccess a 4 s) else badWrite s)

/-- REGISTER_WRITE: R5, R6, R388; a write to the doorbell range must be one word, and a longer one is dropped whole (log
entry 32, DEDUCED). One to the configuration space: R384. -/
def execRegisterWrite (p : HostPlace) (v : List Word) (be : List (BitVec 4)) (s : State) : Out :=
  .next (whenOn (fun s => match p with
    | .device a => if inDoorbells a && v.length != 1 then badWrite s else writeWords a (v.zip be) s
    | .config off => (match v, be with | [v], [be] => cfgWrite off v.toNat be.toNat s | _, _ => s)) s)

/-- READ_CLEAR: R5, R7. -/
def execReadClear (addr : Nat) (late : Option Nat) (s : State) : Out := .next (whenOn (fun s => regClear late addr (hostAccess addr 4 s)) s)

/-- Host reads that the bridge has open at most (R389). -/
def inReadMax : Nat := 32

/-- HOST_READ: R388, R389: the bridge accepts it while fewer than 32 are open, and its answer comes in its time. A read of the
configuration space is answered at once (R384). -/
def execHostRead (p : HostPlace) (len : Nat) (s : State) : Out :=
  .next (whenOn (fun s => match p with
    | .config off => toHost (.readReply (leBytes 4 (cfgReg s off))) s
    | .device a =>
      if inReadMax ≤ s.host.inReads.length then s
      else if (len == 4 || len == 8) && a % len == 0 then modHost (fun h => { h with inReads := h.inReads ++ [{ addr := a, len := len, dt := s.dt }] }) s
      else raise 13 0x0943 (aerReport aerAbort .completerAbort s)) s)

/-- The least time in which a host read is answered (R389), in DT ticks: the BAR0 range, other registers of the digital die,
those of another die. -/
def readTime (a : Nat) : Nat :=
  if 0x40090000 ≤ a && a < 0x400A0000 then us 1 / 5
  else if 0x40100000 ≤ a && a < 0x40190000 then us 4 / 5
  else 3 * us 1 / 10

/-- The answer to a host read: its registers as they read now, with what a read clears or latches (R5, R389). -/
def answerRead (r : InRead) (s : State) : State :=
  let (x, s) := regRead r.addr (hostAccess r.addr r.len s)
  if r.len == 4 then toHost (.readReply (leBytes 4 x)) s
  else
    let (y, s) := regRead (r.addr + 4) s
    toHost (.readReply (leBytes 4 x ++ leBytes 4 y)) s

/-- Host reads are answered in their order, each after its least time: no command names it (R389). -/
def answerReads : Nat → State → State
  | 0, s => s
  | n + 1, s =>
    match s.host.inReads with
    | [] => s
    | r :: rest => if r.dt + readTime r.addr ≤ s.dt then answerReads n (answerRead r (modHost (fun h => { h with inReads := rest }) s)) else s

end Sys2Proof.Machine
end

