-- ==== Sys2Proof/Machine/EngMem.lean ====
section
/-! DEFINITION. Engines: their status word and registers, the memory they see, protection, loads and stores with the
host window and its prefetch lines, write buffers, the delay coupling of a pair (R338 to R345, R368 to R371, R390 to R400).
Readings of the spec: log entry 30, DEDUCED. -/

namespace Sys2Proof.Machine

/-! ### Status word and registers -/

/-- Bits of SW (R343) beside `swTask`. -/
def swV : Nat := 0
def swDz : Nat := 1
def swC : Nat := 2
def swRepa : Nat := 3
def swLa : Nat := 4
def swIe : Nat := 9
def swIpl : Nat := 10
def swDzTrap : Nat := 12
def swOvTrap : Nat := 13
/-- The bits of SW that exist. -/
def swMask : Word := 0x3F7F

/-- A word with a field of `w` bits at `lo` replaced. -/
def setFld (x : Word) (lo w v : Nat) : Word := BitVec.ofNat 32 (x.toNat - putF (fld x.toNat lo w) lo w + putF v lo w)
def swBit (g : Eng) (i : Nat) : Bool := bitN g.sw.toNat i
def setSw (i : Nat) (b : Bool) (g : Eng) : Eng := { g with sw := setFld g.sw i 1 (b2n b) }

/-- Task mode (R344). -/
def inTask (g : Eng) : Bool := swBit g swTask
/-- A set bit of a mode, sticky: V and DZ are only set here (R343). -/
def stick (v dz : Bool) (g : Eng) : Eng := setSw swDz (swBit g swDz || dz) (setSw swV (swBit g swV || v) g)

/-- Register code 0x3 is the SP of the mode; 0xF reads 0 and discards writes (R342). -/
def rdReg (g : Eng) (c : RegCode) : Word :=
  if c == 15 then 0 else if c == 3 then (if inTask g then g.tsp else g.ssp) else g.regs[c]
def wrReg (c : RegCode) (v : Word) (g : Eng) : Eng :=
  if c == 15 then g
  else if c == 3 then (if inTask g then { g with tsp := v } else { g with ssp := v })
  else { g with regs := g.regs.set c v }
/-- STK_LIM of the mode (R344). -/
def stkLim (g : Eng) : Word := if inTask g then g.stkT else g.stkS
/-- G0 to G7. -/
def isG (c : RegCode) : Bool := 4 ≤ c.val && c.val ≤ 11
/-- X, Y, SP, G0 to G7: the bases with an update (R350). -/
def isBase (c : RegCode) : Bool := 1 ≤ c.val && c.val ≤ 11

/-! ### An instruction as a computation -/

/-- What an instruction costs and does beside its result, for the counters and the comparison (R369, R370, R483, R485): cycles
after the issue cycle, the part of them that a MULDIV takes, wasted cycles, accesses in order (load, class, address), what
SEND did; the items of its lanes (lane, value), the inputs that it sampled, in order. -/
structure Cost where
  extra : Nat := 0
  muldiv : Nat := 0
  wasted : Nat := 0
  acc : List (Bool × Nat × Nat) := []
  sent : Option Bool := none
  items : List (Nat × Nat) := []
  samples : List Nat := []
deriving DecidableEq, Repr

/-- The state while an instruction runs: the machine, how many of its reads through the window it has used, the cost so far. -/
structure Cx where
  s : State
  used : Nat := 0
  cost : Cost := {}
deriving DecidableEq, Repr

/-- Why an instruction does not complete: it traps (cause, TRAP code, address of the access, V or DZ to be set, cost so far),
it waits, or it sends a read through the window, after the first `keep` of them, and waits for it. -/
inductive Stop where
  | hold
  | send (keep : Nat) (line : Bool) (addr len : Nat)
  | trap (cause : Nat) (code : Nat) (addr : Option Nat) (v dz : Bool) (cost : Cost)
deriving DecidableEq, Repr

/-- A computation of an instruction; when it stops, the state it had reached is gone (R348). -/
abbrev EngM (α : Type) := StateT Cx (Except Stop) α

/-- A trap with no address and nothing to set. -/
def trapWith {α : Type} (cause : Nat) : EngM α := fun c => .error (.trap cause 0 none false false c.cost)
def trapAt {α : Type} (cause addr : Nat) : EngM α := fun c => .error (.trap cause 0 (some addr) false false c.cost)
def holds {α : Type} : EngM α := fun _ => .error .hold
/-- The engine as it stands, and a change of it. -/
def getEng (e : Nat) : EngM Eng := fun c => .ok (eng c.s e, c)
def modEng (e : Nat) (f : Eng → Eng) : EngM Unit := fun c => .ok ((), { c with s := setEng e f c.s })
def modCx (f : State → State) : EngM Unit := fun c => .ok ((), { c with s := f c.s })
def addCost (f : Cost → Cost) : EngM Unit := fun c => .ok ((), { c with cost := f c.cost })
/-- An item of a lane (R370), and an input that the main engine samples for its shadow (R369). -/
def noteItem (lane v : Nat) : EngM Unit := addCost fun c => { c with items := c.items ++ [(lane, v)] }
def noteInput (v : Nat) : EngM Unit := addCost fun c => { c with samples := c.samples ++ [v] }
/-- The item of a register write: code and value (R370). -/
def regItem (c : RegCode) (v : Word) : Nat × Nat := (0, v.toNat + 2 ^ 32 * c.val)

/-- A write of a register; one of SP below STK_LIM traps (R345). -/
def putReg (e : Nat) (c : RegCode) (v : Word) : EngM Unit := do
  let g ← getEng e
  if c == 3 && v.toNat < (stkLim g).toNat then trapWith 12
  else fun x => .ok ((), { x with s := setEng e (wrReg c v) x.s, cost := { x.cost with items := x.cost.items ++ [regItem c v] } })
/-- SP moves down by `n` bytes. -/
def lowerSp (e n : Nat) : EngM Word := do
  let g ← getEng e
  let sp := (rdReg g 3).toNat
  if sp < n then trapWith 12 else
    putReg e 3 (BitVec.ofNat 32 (sp - n))
    pure (BitVec.ofNat 32 (sp - n))

/-! ### The map (R338, R390) -/

/-- Areas of the map. -/
inductive Area where
  | loc
  | sram
  | mram
  | regs
  | window
deriving DecidableEq, Repr

/-- Class of an access (R485). -/
def areaClass : Area → Nat
  | .loc => 0
  | .sram => 1
  | .mram => 2
  | .regs => 3
  | .window => 4

/-- The segment of a window address, and its host bus address (R391). -/
def segOf (s : State) (a : Nat) : Segment := (at? s.host.segs ((a - 0x80000000) / 2 ^ 27)).getD {}
def hostAddr (s : State) (a : Nat) : Nat := (segOf s a).base + a % 2 ^ 27

/-- The area of an address; none where the map lists none or the segment is closed (R338, R391). -/
def areaOf (s : State) (a : Nat) : Option Area :=
  if a < 0x00800000 then some .sram
  else if 0x10000000 ≤ a && a < 0x11000000 then some .mram
  else if 0x20000000 ≤ a && a < 0x20010000 then some .loc
  else if 0x40000000 ≤ a && a < 0x50000000 then some .regs
  else if 0x80000000 ≤ a && !s.host.selfHosted && s.host.winEn && (segOf s a).en then some .window
  else none

/-- Rights of R345: bits of MPU_ATTR. -/
def rightLoad : Nat := 0
def rightStore : Nat := 1
def rightFetch : Nat := 2

/-- A task's access is permitted by the lowest-numbered enabled region that contains it (R345). -/
def permits (g : Eng) (a n right : Nat) : Bool :=
  match g.mpu.toList.find? fun r => bitN r.attr.toNat 3 && r.base.toNat ≤ a && a + n ≤ r.lim.toNat + 1 with
  | some r => bitN r.attr.toNat right
  | none => false

/-- The trap of an access of `n` bytes, if any (R338, R339, R344, R345, R391). -/
def accessTrap (s : State) (g : Eng) (a n : Nat) (store : Bool) : Option Nat :=
  if a % n != 0 then some 5
  else if inTask g && !permits g a n (if store then rightStore else rightLoad) then some 3
  else if inTask g && store && areaOf s a == some .mram then some 3
  else if (areaOf s a).isNone then some 6
  else none

/-! ### Reads through the window (R391 to R398) -/

/-- All-ones for `n` bytes: what a failed load receives (R394). -/
def onesLe (n : Nat) : Nat := 2 ^ (8 * n) - 1

/-- The bytes of the instruction's next read through the window, none where it failed: where it has not been sent, the
instruction sends it and waits; where it has not ended, it waits. -/
def windowRead (e : Nat) (line : Bool) (addr n : Nat) : EngM (Option (List Byte)) := fun c =>
  match (askedOf c.s e)[c.used]? with
  | some w =>
    if w.line == line && w.addr == addr && w.len == n then
      match w.got with
      | some (_, r) => .ok (r, { c with used := c.used + 1 })
      | none => .error .hold
    else .error (.send c.used line addr n)
  | none => .error (.send c.used line addr n)

/-- The read is sent where a tag is free (R393). -/
def askHost (e keep : Nat) (line : Bool) (addr n : Nat) (s : State) : State :=
  match freeTag s with
  | none => s
  | some t =>
    let id := s.nextUid
    let s := dropAsked e keep { s with nextUid := s.nextUid + 1 }
    sendRead t (if line then .prefetch e id else .load e id) addr n (setAsked e (askedOf s e ++ [{ id := id, addr := addr, len := n, line := line }]) s)

/-- A line serves a load: it becomes the most recently used, and the bytes count as taken. -/
def serveLine (e : Nat) (l : Line) (a n : Nat) (s : State) : State :=
  let took := (List.range n).map fun i => a - l.addr + i
  setLines e ({ l with taken := (l.taken ++ took).eraseDups } :: (linesOf s e).filter fun x => x.addr != l.addr) s

/-- A load through the window (R391, R394, R398). -/
def windowLoad (e a n : Nat) : EngM Nat := do
  let c ← get
  let s := c.s
  let ha := hostAddr s a
  if !s.host.linkUp then pure (onesLe n)
  else if (segOf s a).prefetch then
    let base := ha / 64 * 64
    match (linesOf s e).find? fun l => l.addr == base with
    | some l =>
      modCx (serveLine e l ha n)
      pure (ofLe ((l.bytes.drop (ha - base)).take n))
    | none =>
      match ← windowRead e true base 64 with
      | none => pure (onesLe n)
      | some bs => pure (ofLe ((bs.drop (ha - base)).take n))
  else
    match ← windowRead e false ha n with
    | none => pure (onesLe n)
    | some bs => pure (ofLe bs)

/-- Lines that hold a stored address are dropped in every engine (R398). -/
def dropLines (a : Nat) (s : State) : State :=
  let hit := fun l : Line => l.addr == a / 64 * 64
  let gone := (s.host.lines.toList.map fun ls => ls.filter hit).flatten
  gone.foldl (fun s l => countUnused l s) { s with host := { s.host with lines := s.host.lines.map fun ls => ls.filter fun l => !hit l } }

/-- An engine's FENCE drops its lines (R398). -/
def fenceLines (e : Nat) (s : State) : State := (linesOf s e).foldl (fun s l => countUnused l s) (setLines e [] s)

/-! ### Stores that leave an engine -/

/-- A store through the window (R391, R400, R403): it is posted at once and drops the lines that hold it; a confirmed one's
reading back takes a tag now or waits for one. With the link down the store is discarded and counted. -/
def windowStore (e a n v : Nat) (s : State) : State :=
  let g := segOf s a
  let ha := hostAddr s a
  let s := dropLines ha s
  if !s.host.linkUp then
    let s := countLost s
    if g.confirm then unconfirmed e 5 ha s else s
  else
    let s := toHost (.data ha (leBytes n v)) s
    if !g.confirm then s
    else serveConfirms { s with host := { s.host with confirmDue := s.host.confirmDue ++ [(e, ha)] } }

/-- Bytes of MRAM that an engine's store to the heartwood or the system area leaves as they are are counted (R458). -/
def inHeartwood (a : Nat) : Bool := 0x10000000 ≤ a && a < 0x10100000
def inSystemArea (a : Nat) : Bool := 0x10F20000 ≤ a && a < 0x11000000

/-- A store takes effect: in shared SRAM, in MRAM (R458: no area there is written by an engine's store), in a register by
whole words, through the window. -/
def commitStore (e a n v wait : Nat) (s : State) : State :=
  match areaOf s a with
  | some .sram => fabCount .sram e a n wait false { s with sram := memWriteL s.sram a (leBytes n v) }
  | some .mram =>
    let s := fabCount .mram e a n wait false s
    if inHeartwood a || inSystemArea a then modHw (fun h => { h with wrDenied := sat 8 (h.wrDenied + 1) }) s else s
  | some .regs => let s := fabCount .regs e a n wait false s; if n == 4 then regWrite a v s else s
  | some .window => windowStore e a n v (fabCount .window e a n wait false s)
  | _ => s

/-- The write buffer of an engine (R340). -/
def wbufOf (s : State) (e : Nat) : List BufStore := (at? s.wbufs e).getD []
/-- Places of a write buffer. -/
def wbufMax : Nat := 4

/-- The oldest store of a write buffer completes. -/
def drainOne (e : Nat) (s : State) : State :=
  match wbufOf s e with
  | [] => s
  | b :: rest => commitStore e b.addr b.size b.value b.wait { s with wbufs := updN s.wbufs e fun _ => rest }
/-- A write buffer drains in program order (R340). -/
def drainBuf (e : Nat) : Nat → State → State
  | 0, s => s
  | n + 1, s => drainBuf e n (drainOne e s)
/-- Every store in a write buffer completes. -/
def drained (e : Nat) (s : State) : State := drainBuf e (wbufOf s e).length s

/-- A store leaves the engine (R340): to SRAM and MRAM through the write buffer, whose oldest store goes first when it is
full; elsewhere at once. -/
def leaveStore (e a n v wait : Nat) (s : State) : State :=
  match areaOf s a with
  | some .regs => commitStore e a n v wait s
  | some .window => commitStore e a n v wait s
  | _ =>
    let s := if wbufMax ≤ (wbufOf s e).length then drainOne e s else s
    { s with wbufs := updN s.wbufs e fun l => l ++ [{ addr := a, size := n, value := v, wait := wait }] }

/-- A descriptor that SEND has passed on reaches the origin's queue; unknown opcodes at its head end (R40, R361). -/
def pushDesc (e : Fin 16) (d : Desc) (s : State) : State :=
  retireUnknown (.engine e) pipeMax { s with engPipe := upd s.engPipe e fun l => l ++ [d] }

/-! ### The shadow of a coupled pair (R366 to R371) -/

/-- The oldest item of a pair's compare buffer is released (R371). -/
def releaseItem (k : Nat) (s : State) : State :=
  match (pair s k).held with
  | [] => s
  | i :: rest =>
    let s := setPair k (fun p => { p with held := rest }) s
    match i with
    | .store a n v w => leaveStore (2 * k) a n v w s
    | .send d => (match fin? 16 (2 * k) with | some e => pushDesc e d s | none => s)
/-- The `n` oldest. -/
def releaseItems (k : Nat) : Nat → State → State
  | 0, s => s
  | n + 1, s => releaseItems k n (releaseItem k s)

/-- Items of a lane among those of an entry. -/
def onLane (l : Nat) (t : TrailEntry) : Nat := (t.items.filter fun i => i.1 == l).length

/-- The shadow executes the oldest entry (R368 to R371): with the inputs sampled for it, it produces the items of the same
numbers, which compare equal, and stands where the main engine stood; what the compare buffer holds of the entry is
released, and the shadow counts its own cycles (R484). -/
def shadowStep (k : Nat) (s : State) : State :=
  match (pair s k).trail with
  | [] => s
  | t :: rest =>
    let s := setPair k (fun p => { p with trail := rest, compared := Vector.ofFn fun l => p.compared[l] + onLane l t }) s
    let s := setEng (2 * k + 1) (fun _ => t.after) s
    let s := match fin? 16 (2 * k + 1) with | some e => runCycles e false t.charge s | none => s
    releaseItems k t.held s
/-- The shadow executes the `n` oldest entries. -/
def shadowSteps (k : Nat) : Nat → State → State
  | 0, s => s
  | n + 1, s => shadowSteps k n (shadowStep k s)

/-- The shadow catches up with the main engine. -/
def catchUp (k : Nat) (s : State) : State := shadowSteps k (pair s k).trail.length s

/-- Cycles by which the shadow is behind the end of its oldest entry. -/
def behind (p : PairSt) : Nat := (p.trail.drop 1).foldl (fun n t => n + t.cycles) p.past

/-- The shadow executes what has had its lag (R368); the number bounds the entries looked at. -/
def runShadow (k : Nat) : Nat → State → State
  | 0, s => s
  | n + 1, s => if !(pair s k).trail.isEmpty && (pair s k).lag ≤ behind (pair s k) then runShadow k n (shadowStep k s) else s

/-- Items the compare buffer takes (R371), and inputs the replay buffer takes (R369). -/
def heldMax : Nat := 8
def replayMax : Nat := 32

/-- An item enters the compare buffer. While it is full the main engine stalls: the shadow catches up, and of the present
instruction's own items the oldest is compared and goes (R371). -/
def holdItem (k : Nat) (i : HeldItem) (s : State) : State :=
  let s := if (pair s k).held.length < heldMax then s else catchUp k s
  let s := if (pair s k).held.length < heldMax then s else releaseItem k s
  setPair k (fun p => { p with held := p.held ++ [i] }) s

/-- Inputs that wait in the replay buffer (R369). -/
def replayed (p : PairSt) : Nat := (p.trail.map fun t => t.samples.length).foldl (· + ·) 0

/-- The main engine of a coupled pair has executed something: its shadow is to follow, at once where the replay buffer is
full (R369); the main engine's stall brings the shadow nearer, the shadow's takes it further, within 2 to 16 cycles (R368). -/
def pushTrail (k stall shadowStall : Nat) (t : TrailEntry) (s : State) : State :=
  let s := if replayMax < replayed (pair s k) + t.samples.length then catchUp k s else s
  let queued := ((pair s k).trail.map (·.held)).foldl (· + ·) 0
  let s := setPair k (fun p => { p with trail := p.trail ++ [{ t with cycles := t.cycles + p.past, held := p.held.length - queued, after := eng s (2 * k) }], past := 0
                                        lag := max 2 (min 16 (p.lag - min stall p.lag + shadowStall)) }) s
  runShadow k (pair s k).trail.length s

/-- An engine's earlier stores have left it and completed (R340, R371): what a FENCE, a SEND, an atomic access and a load of
its own from beyond its local RAM wait for. -/
def settled (e : Nat) (s : State) : State := drained e (if isCoupled s e then catchUp (e / 2) s else s)

/-! ### Loads -/

/-- What the device's own writes to MRAM change, as `Config.mramByte` sees it. -/
def mramGen (s : State) : List Nat :=
  [s.nextUid, s.stg.seq, s.stg.marked.val, s.hw.newest] ++ (match newestSnap s.ld with | some k => [k.dt, k.rt] | none => [])

/-- The slot that a device address lies in, and its offset there; `l`: the slots from number `k` on, of which the first stands
at `base` (`slotBase`). -/
def slotAt (a : Nat) : Nat → Nat → List Slot256 → Option (Nat × Nat)
  | _, _, [] => none
  | k, base, x :: rest =>
    let next := base + (up64 x.len + 64)
    if a < base then none else if a < next then some (k, a - base) else slotAt a (k + 1) next rest

/-- The package byte at a device address: the store stands in MRAM (R380, log entry 24). -/
def pkgByte (s : State) (a : Nat) : Option Byte :=
  (slotAt a 0 (slotBase s 0) s.pkgs.toList).bind fun (k, off) =>
    let head := up64 (pkgCodeAt s k)
    let at' := if off < head then off else off - head + pkgCodeAt s k
    if 0 < slotLen s k && (off < pkgCodeAt s k || head ≤ off) && at' < slotLen s k then some (BitVec.ofNat 8 (memLe (slotMem s k) at' 1)) else none

/-- A byte of MRAM: the heartwood (R458) and the package store as the state holds them; the others stand in no place that the
spec gives, so they are free values, the same until the device writes (log entry 5, DESIGN CHOICE). -/
def mramByte (s : State) (a : Nat) : Byte :=
  if inHeartwood a then BitVec.ofNat 8 (memLe s.mram a 1)
  else match pkgByte s a with
    | some b => b
    | none => Config.mramByte a (mramGen s)

/-- The value of an access that no trap bars. -/
def readArea (x : Issue) (ar : Area) (a n : Nat) : EngM Nat := do
  let e := x.engine.val
  let port := fun p : Port => modCx (fabCount p e a n x.portWait (x.ecc == .corrected))
  match ar with
  | .loc => do
    let c ← get
    pure (memLe (eng c.s e).ram (a - 0x20000000) n)
  | .sram => do
    modCx (settled e)
    port .sram
    let c ← get
    pure (memLe c.s.sram a n)
  | .mram => do
    modCx (settled e)
    port .mram
    let c ← get
    pure (ofLe ((List.range n).map fun i => mramByte c.s (a + i)))
  | .regs => do
    modCx (settled e)
    port .regs
    let c ← get
    let (v, s) := regRead (a / 4 * 4) c.s
    set { c with s := s }
    pure (v / 2 ^ (8 * (a % 4)) % 2 ^ (8 * n))
  | .window => do
    modCx (settled e)
    port .window
    windowLoad e a n

/-- A load of `n` bytes (R338 to R341). -/
def memLoad (x : Issue) (a n : Nat) : EngM Nat := do
  let c ← get
  match accessTrap c.s (eng c.s x.engine) a n false, areaOf c.s a with
  | some k, _ => trapAt k a
  | none, none => trapAt 6 a
  | none, some ar =>
    if x.ecc == .uncorrectable && ar != .regs && ar != .window then trapAt 6 a
    else do
      let v ← readArea x ar a n
      addCost fun k => { k with acc := k.acc ++ [(true, areaClass ar, a)], samples := if ar == .loc then k.samples else k.samples ++ [v] }
      pure v

/-! ### Stores -/

/-- The item of a store: address, data and size, or, for a register store, address and data (R370). -/
def storeItem (ar : Area) (a n v : Nat) : Nat × Nat :=
  if ar == .regs then (2, v + 2 ^ 32 * a) else (1, n / 2 + 4 * (v + 2 ^ 32 * a))

/-- A store that no trap bars takes effect: in local RAM at once; elsewhere through the compare buffer of a coupled pair, or
out of the engine (R340, R371). -/
def writeArea (x : Issue) (ar : Area) (a n v : Nat) : EngM Unit := do
  let e := x.engine.val
  match ar with
  | .loc => modEng e fun g => { g with ram := memWriteL g.ram (a - 0x20000000) (leBytes n v) }
  | _ => modCx fun s => if isCoupled s e then holdItem (e / 2) (.store a n v x.portWait) s else leaveStore e a n v x.portWait s

/-- A store of `n` bytes (R338 to R340). -/
def memStore (x : Issue) (a n v : Nat) : EngM Unit := do
  let c ← get
  match accessTrap c.s (eng c.s x.engine) a n true, areaOf c.s a with
  | some k, _ => trapAt k a
  | none, none => trapAt 6 a
  | none, some ar => do
    addCost fun k => { k with acc := k.acc ++ [(false, areaClass ar, a)], items := k.items ++ [storeItem ar a n v] }
    writeArea x ar a n v

/-- Words stored at consecutive addresses, and loaded from them. -/
def storeWords (x : Issue) (a : Nat) : List Word → EngM Unit
  | [] => pure ()
  | w :: ws => do memStore x (a % 2 ^ 32) 4 w.toNat; storeWords x (a + 4) ws
def loadWords (x : Issue) (a : Nat) : Nat → EngM (List Word)
  | 0 => pure []
  | n + 1 => do
    let w ← memLoad x (a % 2 ^ 32) 4
    let ws ← loadWords x (a + 4) n
    pure (BitVec.ofNat 32 w :: ws)

end Sys2Proof.Machine
end

