-- ==== Sys2Proof/Machine/EngCore.lean ====
section
/-! DEFINITION. How an engine runs one instruction: fetch, loop and REP control, cycle accounting, taking a trap or an
interrupt, the shadow of a coupled pair (R338 to R348, R358 to R360, R366 to R373, R483 to R488).
Readings of the spec: log entries 30, DEDUCED, and 43, DESIGN CHOICE. -/

namespace Sys2Proof.Machine

/-- What the fetch, and the control of R359 and R360, ask of an instruction: its words, whether it may be an END instruction, whether
REP may repeat it; the registers it uses and the one a load writes (R341). -/
structure Kind where
  /-- Its word, and its extension word where it has one (R349). -/
  word : Word := 0
  ext : Option Word := none
  endOk : Bool := true
  repOk : Bool := false
  uses : List RegCode := []
  loads : Option RegCode := none
  /-- RETI: every cycle is wasted (R483). -/
  allWasted : Bool := false
deriving DecidableEq, Repr

/-- Words of an instruction. -/
def Kind.words (k : Kind) : Nat := if k.ext.isSome then 2 else 1

/-- Where control goes. -/
inductive After where
  /-- On, with the evaluation of END (R358). -/
  | next
  /-- Past the instruction that follows, which counts as completed (R360, count 0). -/
  | skip
  /-- A taken branch or JR (R359). -/
  | jump (t : Word)
  /-- Elsewhere, with no effect on the levels. -/
  | goto (t : Word)
deriving DecidableEq, Repr

/-! ### Loop levels -/

/-- Level `l` is active (R343). -/
def levelOn (g : Eng) (l : Fin 3) : Bool := swBit g (swLa + l)
def setLevel (l : Fin 3) (b : Bool) (g : Eng) : Eng := setSw (swLa + l) b g
/-- LC of a level: register codes 0xC to 0xE. -/
def lcCode (l : Fin 3) : RegCode := ⟨12 + l.val, by omega⟩
def getLc (g : Eng) (l : Fin 3) : Word := g.regs[lcCode l]
def setLc (l : Fin 3) (v : Word) (g : Eng) : Eng := { g with regs := g.regs.set (lcCode l) v }
/-- Levels from the innermost outward. -/
def inward : List (Fin 3) := [2, 1, 0]
/-- The innermost active level. -/
def innermost (g : Eng) : Option (Fin 3) := inward.find? fun l => levelOn g l
/-- The lowest and the highest level that is free (R358, R360). -/
def lowestFree (g : Eng) : Option (Fin 3) := inward.reverse.find? fun l => !levelOn g l
def highestFree (g : Eng) : Option (Fin 3) := inward.find? fun l => !levelOn g l

/-- END evaluation at instruction `a` over levels from the inside (R358): the engine with its new PC, and whether a body
starts again. -/
def evalEnd (a next : Word) : List (Fin 3) → Eng → Eng × Bool
  | [], g => ({ g with pc := next }, false)
  | l :: ls, g =>
    if !levelOn g l then evalEnd a next ls g
    else if g.loops[l].last != a then ({ g with pc := next }, false)
    else if 1 < (getLc g l).toNat then (setLc l (getLc g l - 1) { g with pc := g.loops[l].start }, true)
    else evalEnd a next ls (setLevel l false (setLc l 0 g))

/-- A body contains an address. -/
def inBody (g : Eng) (l : Fin 3) (t : Word) : Bool := g.loops[l].start.toNat ≤ t.toNat && t.toNat ≤ g.loops[l].last.toNat
/-- A taken branch releases each level whose body it leaves, and every level inside it (R359). -/
def leaveBodies (t : Word) (g : Eng) : Eng :=
  match inward.reverse.find? fun l => levelOn g l && !inBody g l t with
  | none => g
  | some l => inward.foldl (fun g m => if l ≤ m then setLevel m false g else g) g

/-- PC is the END instruction of an active level. -/
def atEnd (g : Eng) : Bool := inward.any fun l => levelOn g l && g.loops[l].last == g.pc

/-! ### Accounting -/

/-- What the engine's counters see of the present moment. -/
def occurOf (g : Eng) (pc : Word) : Occur :=
  { event := 0, n := 0, task := inTask g, prog := if inTask g then g.handler.elim 0xFF (·.prog) else 0xFF, pc := pc.toNat
    la := fld g.sw.toNat swLa 3, repa := swBit g swRepa }

/-- Samples of an engine that name its next instruction to retire are filled (R488): by that instruction, or by the PC an
entry saves, with SKID. -/
def nameSamples (e : Nat) (pc : Nat) (skid : Bool) (s : State) : State :=
  { s with perf := { s.perf with samples := s.perf.samples.map fun x => if x.engine == e && x.wait then { x with pc := pc, skid := skid, wait := false } else x } }

/-- Loads of an instruction with the cycles that each waits (R340). -/
def loadWaits (x : Issue) (c : Cost) : List (Nat × Nat × Nat) :=
  ((c.acc.filter (·.1)).zip x.memWaits).map fun a => (a.2, a.1.2)

/-- An occurrence at a moment. -/
def evAt (o : Occur) (event n : Nat) (cls : Nat := 0) (addr : Nat := 0) : Occur := { o with event := event, n := n, cls := cls, addr := addr }

/-- The events that a completed instruction counts as it retires (R485): misses, accesses, SEND, taken branches, loop-backs. -/
def instrEvents (x : Issue) (c : Cost) (o : Occur) (taken looped : Bool) : List Occur :=
  [evAt o 0x14 x.misses] ++ (c.acc.map fun a => evAt o (if a.1 then 0x10 else 0x11) 1 a.2.1 a.2.2) ++
    (match c.sent with | some true => [evAt o 0x1B 1] | some false => [evAt o 0x1C 1] | none => []) ++
    [evAt o 0x16 (b2n taken), evAt o 0x17 (b2n looped)]

/-- Cycles of a completed instruction on one engine (R483, R485): misses, the cycle of R341, the issue cycle, further cycles,
the wasted ones. A stall of the pair is the main engine's (R484). Those of RETI are all wasted. -/
def instrCycles (x : Issue) (k : Kind) (c : Cost) (pen : Nat) (before : Eng) (o : Occur) (taken looped main : Bool) : List Cycles :=
  let slot := fun sl : Slot => if k.allWasted then .wasted else sl
  let stall := if main then x.stall else 0
  let later := c.extra + x.bufWait + stall + c.wasted + ((loadWaits x c).map (·.1)).foldl (· + ·) 0
  [{ slot := slot .front, n := x.front, o := o, evs := [evAt o 0x15 1] },
   { slot := slot .back, n := pen, o := o, evs := [evAt o 0x12 1 before.loadedAt.1 before.loadedAt.2] },
   { slot := slot .retired, n := 1, o := { o with wait := later == 0 }, evs := instrEvents x c o taken looped },
   { slot := slot .back, n := c.muldiv, o := o, evs := [evAt o 0x1E 1] },
   { slot := slot .back, n := c.extra - c.muldiv, o := o }] ++
  ((loadWaits x c).map fun w => { slot := slot .back, n := w.1, o := o, evs := [evAt o 0x12 1 w.2.1 w.2.2] }) ++
  [{ slot := slot .back, n := x.bufWait, o := o, evs := [evAt o 0x13 1] },
   { slot := slot .back, n := stall, o := o, evs := [evAt o 0x1A 1] },
   { slot := .wasted, n := c.wasted - 1, o := o },
   { slot := .wasted, n := min 1 c.wasted, o := { o with wait := true } }]

/-- Cycles of an instruction that traps: all of them wasted (R483); what it waited for until then is counted (R485). -/
def trapCycles (x : Issue) (c : Cost) (pen : Nat) (o : Occur) (main : Bool) : List Cycles :=
  let o := { o with wait := true }
  let w := fun (n : Nat) (evs : List Occur) => ({ slot := .wasted, n := n, o := o, evs := evs } : Cycles)
  [w x.front [evAt o 0x15 1], w pen [], w 1 [evAt o 0x14 x.misses], w c.muldiv [evAt o 0x1E 1], w (c.extra - c.muldiv) [],
   w (((loadWaits x c).map (·.1)).foldl (· + ·) 0) [], w x.bufWait [evAt o 0x13 1], w (if main then x.stall else 0) [evAt o 0x1A 1], w c.wasted []]

/-- Cycles of a handler (R363). -/
def chargeHandler (e : Nat) (n : Nat) (s : State) : State := setEng e (fun g => { g with handler := g.handler.map fun h => { h with cycles := h.cycles + n } }) s

/-- Main-engine cycles stalled by its pair (R383). -/
def chargeStall (e n : Nat) (s : State) : State := if isCoupled s e then setPair (e / 2) (fun p => { p with stall := sat 32 (p.stall + n) }) s else s

/-! ### The shadow -/

/-- The signature of a checkpoint (R372): CRC-32 over A, X, Y, both SP banks, G0 to G7, LC0 to LC2, SW, PC and the low 32 bits
of the retired-instruction count, each as four bytes (log entry 31, DEDUCED). -/
def signature (g : Eng) : Nat :=
  let r := fun i : Nat => (at? g.regs i).getD 0
  crc32 (([r 0, r 1, r 2, g.tsp, g.ssp] ++ ((List.range 8).map fun i => r (4 + i)) ++ [r 12, r 13, r 14, g.sw, g.pc, BitVec.ofNat 32 g.retired]).map
    fun w => leBytes 4 w.toNat).flatten

/-- Items of what an engine's control has written by itself (R370): loop counters, SW; SW has the code that the table of
registers leaves (log entry 31, DESIGN CHOICE). -/
def controlItems (g h : Eng) (have' : List (Nat × Nat)) : List (Nat × Nat) :=
  let lc := inward.filterMap fun l => if getLc g l == getLc h l then none else some (regItem (lcCode l) (getLc h l))
  let sp := if g.ssp == h.ssp then [] else [regItem 3 h.ssp]
  let sw := if g.sw == h.sw then [] else [regItem 15 h.sw]
  (lc ++ sp ++ sw).filter fun i => !have'.contains i

/-- The main engine of a coupled pair has executed something, from `g` on (R368 to R372): its shadow is to follow; a
checkpoint adds an item to lane 3 and is counted. -/
def followed (e : Fin 16) (check : Bool) (x : Issue) (charge : List Cycles) (items : List (Nat × Nat)) (samples : List Nat) (g : Eng) (s : State) : State :=
  if !isCoupled s e then s
  else
    let h := eng s e
    let s := if check then setPair (e / 2) (fun p => { p with ckpt := w32 (p.ckpt + 1) }) s else s
    pushTrail (e / 2) x.stall x.shadowStall
      { cycles := cyclesIn charge, charge := charge, items := items ++ controlItems g h items ++ (if check then [(3, signature h)] else [])
        samples := samples, after := h } s

/-- The engine's clock runs (R432, R483). -/
def engineClock (s : State) (e : Nat) : Bool := s.pw.dieOn && s.pw.clocks && (s.pw.enginePll || (s.pw.state == .standby && e < 4))

/-- The engine executes: clocked, not halted, not the shadow of a coupled pair, its pair neither halted nor past the hold
of a hand-over (R347, R373, R375). -/
def executes (s : State) (e : Nat) : Bool :=
  let p := pair s (e / 2)
  engineClock s e && !(eng s e).halted && !isShadow s e && !p.halted && (p.phase == .none || p.phase == .holding || p.phase == .ending)

/-! ### Entries (R346, R347) -/

/-- The address that an entry saves: of a REP in progress, its prefix (R360). -/
def savedPc (g : Eng) : Word := if g.rep.isSome then g.pc - 4 else g.pc

/-- The words of a frame. -/
def frameWords (g : Eng) (pc : Word) : List Word :=
  [pc, g.sw] ++ inward.reverse.map (getLc g) ++ (inward.reverse.map fun l => [g.loops[l].start, g.loops[l].last]).flatten

/-- Store a frame of 48 bytes below the supervisor SP, as a supervisor's store. -/
def storeFrame (x : Issue) (pc : Word) : EngM Unit := do
  let g ← getEng x.engine
  let sp := g.ssp.toNat
  if sp < 48 + g.stkS.toNat then trapWith 12
  else do
    modEng x.engine fun g => setSw swTask false { g with ssp := g.ssp - 48 }
    storeWords x (sp - 48) (frameWords g pc)

/-- An engine halts by a trap during an entry (R347). -/
def doubleTrap (e : Nat) (s : State) : State :=
  raise 241 (engTarget e) (setEng e (fun g => { g with halted := true, rep := none, waiting := false, entering := false }) s)

/-- Cycles of an entry (R347). -/
def entryCycles : Nat := 12

/-- The cycles of an entry, all wasted (R483), the last of them with its event, which names the first instruction of the
handler entered (R488). -/
def entrySlots (ev : Nat) (handler : Word) (o : Occur) : List Cycles :=
  let o := { o with wait := true }
  [{ slot := .wasted, n := entryCycles - 1, o := o },
   { slot := .wasted, n := 1, o := o, evs := [{ o with event := ev, n := 1, pc := handler.toNat, wait := false }] }]

/-- The program of a task trap ends (R363): source 240, the record, and no handler of it until a commit places it. -/
def taskTrap (e : Nat) (h : Option Handler) (cause : Nat) (pc : Word) (s : State) : State :=
  let s := engRecord 1 e cause 0 0 pc.toNat 0 (raise 240 (engTarget e) s)
  match h with
  | some h => stopProgs (fun p => p.num == h.prog) s
  | none => s

/-- Taking a trap (R347, R348): the frame, TASK, IE and REPA cleared, cause and address, the handler at TVEC. `spent` gives
the cycles of the instruction that trapped, on the main engine or its shadow; samples that they leave waiting name the saved
PC (R488). -/
def takeTrap (x : Issue) (cause code : Nat) (addr : Option Nat) (pc : Word) (spent : Occur → Bool → List Cycles) (s : State) : State :=
  let e := x.engine.val
  let g := eng s e
  let o := occurOf g pc
  let s := nameSamples e pc.toNat true (runCycles x.engine true (spent o true) (dropAsked e 0 s))
  match storeFrame x pc { s := s } with
  | .error _ => followed x.engine false x (spent o false) [] [] g (doubleTrap e s)
  | .ok (_, c) =>
    let why := cause + 256 * code
    let s := setEng e (fun g =>
      setSw swRepa false (setSw swIe false { g with pc := g.tvec, tcause := BitVec.ofNat 32 why, taddr := (addr.map (BitVec.ofNat 32)).getD g.taddr
                                                    rep := none, loaded := none, waiting := false, entering := false })) c.s
    let slots := entrySlots 0x19 g.tvec o
    let s := runCycles x.engine true slots s
    let s := if inTask g then taskTrap e g.handler why pc s else s
    followed x.engine false x (spent o false ++ slots) c.cost.items [] g s

/-! ### One instruction -/

/-- The trap of the fetch, if any (R338, R339, R345). -/
def fetchTrap (s : State) (x : Issue) (k : Kind) : Option (Nat × Nat) :=
  let g := eng s x.engine
  let at1 := fun a : Nat =>
    if inTask g && !permits g a 4 rightFetch then some (4, a)
    else if (areaOf s a).isNone || x.fetchBad then some (6, a)
    else none
  if g.pc.toNat % 4 != 0 then some (5, g.pc.toNat)
  else match at1 g.pc.toNat with
    | some t => some t
    | none => if k.words == 2 then at1 ((g.pc + 4).toNat) else none

/-- R359 and R360 forbid the instruction where it stands. -/
def misplaced (g : Eng) (k : Kind) : Bool :=
  (atEnd g && !(k.endOk && k.words == 1)) || (g.rep.isSome && !(k.repOk && k.words == 1))

/-- A REP whose next instruction may not be repeated has changed nothing: LC holds what it held (R348, R360). -/
def undoRep (g : Eng) : Eng :=
  match g.rep with
  | some r => (match r.found with | some v => setSw swRepa false (setLc r.level v g) | none => g)
  | none => g

/-- Control after an instruction that completes (R358 to R360), `rep` the REP that it was an iteration of: the engine, and
whether a body starts again. -/
def advance (rep : Option RepRun) (k : Kind) (a : After) (g : Eng) : Eng × Bool :=
  match rep with
  | some r =>
    let left := getLc g r.level - 1
    let g := setLc r.level left g
    if left == 0 then evalEnd g.pc (g.pc + 4) inward (setSw swRepa false { g with rep := none })
    else ({ g with rep := some { r with found := none } }, false)
  | none =>
    match a with
    | .next => evalEnd g.pc (g.pc + BitVec.ofNat 32 (4 * k.words)) inward g
    | .skip => evalEnd (g.pc + 4) (g.pc + 8) inward g
    | .jump t => ({ leaveBodies t g with pc := t }, false)
    | .goto t => ({ g with pc := t }, false)

/-- The instruction uses the result of the load just before it (R341). -/
def usesLoad (g : Eng) (k : Kind) : Bool := match g.loaded with | some r => k.uses.contains r | none => false

/-- The instruction takes a checkpoint when it completes on a coupled pair: YIELD (R372). -/
def isYield (k : Kind) : Bool := fld k.word.toNat 26 6 == 0x28 && fld k.word.toNat 0 6 == 5

/-- An instruction completes. -/
def complete (x : Issue) (k : Kind) (a : After) (before : Eng) (cost : Cost) (s : State) : State :=
  let e := x.engine.val
  let (g, looped) := advance before.rep k a (eng s e)
  let pen := b2n (usesLoad before k)
  let at' := (cost.acc.find? (·.1)).elim before.loadedAt (·.2)
  let g := { g with loaded := k.loads.filter fun r => r != 15, loadedAt := at', retired := g.retired + 1 }
  let s := nameSamples e before.pc.toNat false (setAsked e [] (setEng e (fun _ => g) s))
  let taken := match a with | .jump _ => true | _ => false
  let o := occurOf before before.pc
  let cycles := instrCycles x k cost pen before o taken looped
  let s := chargeHandler e (if inTask before then cyclesIn (cycles true) else 0) (runCycles x.engine true (cycles true) s)
  followed x.engine (isYield k) x (cycles false) cost.items (cost.samples ++ List.replicate x.misses k.word.toNat) before (chargeStall e x.stall s)

/-- The word that stands at an address for an engine, where the state holds it: local RAM, shared SRAM, the heartwood, the
package store (R338, R380). -/
def wordAt (s : State) (e a : Nat) : Option Nat :=
  match areaOf s a with
  | some .loc => some (memLe (eng s e).ram (a - 0x20000000) 4)
  | some .sram => some (memLe s.sram a 4)
  | some .mram => if inHeartwood a then some (memLe s.mram a 4) else ((List.range 4).mapM fun i => pkgByte s (a + i)).map ofLe
  | _ => none

/-- The words at PC are the instruction's (R349); where the state does not hold them, they may be any (log entry 30, DESIGN
CHOICE). -/
def codeAt (s : State) (e : Nat) (k : Kind) : Bool :=
  let pc := (eng s e).pc
  let stands := fun (a v : Word) => match wordAt s e a.toNat with | some w => w == v.toNat | none => true
  stands pc k.word && (match k.ext with | some v => stands (pc + 4) v | none => true)

/-- The fabric's view of the fills of an instruction's cache misses: lines of 32 bytes from PC on (R340, R489). -/
def fillPorts (x : Issue) (s : State) : State :=
  let line := (eng s x.engine).pc.toNat / 32 * 32
  (List.range x.misses).foldl (fun s i =>
    let a := line + 32 * i
    let port := fun p : Port => fabCount p x.engine a 32 x.portWait false s
    match areaOf s a with
    | some .sram => port .sram
    | some .mram => port .mram
    | some .window => port .window
    | _ => s) s

/-- One instruction: the fetch; the control of R359 and R360; the effect. A command whose instruction does not stand at PC
has no occasion. -/
def runInstr (x : Issue) (k : Kind) (body : EngM After) (s : State) : State :=
  let e := x.engine.val
  let g := eng s e
  let pen := b2n (usesLoad g k)
  match fetchTrap s x k with
  | some (cause, a) => takeTrap x cause 0 (some a) (savedPc g) (trapCycles x {} 0) s
  | none =>
    if !codeAt s e k then s
    else if misplaced g k then takeTrap x 1 0 none (savedPc g) (trapCycles x {} pen) (setEng e undoRep s)
    else match body { s := s } with
      | .error .hold => s
      | .error (.send keep line addr len) => askHost e keep line addr len s
      | .error (.trap cause code addr v dz cost) =>
        takeTrap x cause code addr (if cause == 11 then g.pc + 4 else savedPc g) (trapCycles x cost pen) (setEng e (stick v dz) (fillPorts x s))
      | .ok (a, c) => complete x k a g c.cost (fillPorts x c.s)

/-- An instruction runs: its engine executes, does not wait and is not entering an interrupt (R346, R352). -/
def issues (s : State) (e : Nat) : Bool := executes s e && !(eng s e).waiting && !(eng s e).entering

/-- An instruction as a meaning. -/
def instrOut (x : Issue) (k : Kind) (body : EngM After) (s : State) : Out := .next (onlyIf (issues s x.engine) (runInstr x k body) s)

end Sys2Proof.Machine
end

