-- ==== Sys2Proof/Machine/Operands.lean ====
section
/-! DEFINITION. The addressing modes of memory instructions (R350). -/

namespace Sys2Proof.Machine

/-- Bytes of an access. -/
def sizeBytes : Size → Nat
  | .byte => 1
  | .half => 2
  | .word => 4

/-- The mode updates its base. -/
def modeUpdates : Amode → Bool
  | .postInc => true
  | .preDec => true
  | _ => false

/-- The register codes that the mode allows: B is 0xF in mode 0, and X, Y, SP or G0 to G7 where the base is updated. -/
def modeOk (b : RegCode) : Amode → Bool
  | .absolute _ => b == 15
  | .postInc => isBase b
  | .preDec => isBase b
  | _ => true

/-- Registers that a mode uses. -/
def modeUses (b : RegCode) : Amode → List RegCode
  | .absolute _ => []
  | .indexed i _ => [b, i]
  | _ => [b]

/-- The address of an access of `n` bytes, modulo 2^32. -/
def modeAddr (g : Eng) (b : RegCode) (n : Nat) : Amode → Word
  | .absolute a => a
  | .disp d => rdReg g b + d.signExtend 32
  | .postInc => rdReg g b
  | .preDec => rdReg g b - BitVec.ofNat 32 n
  | .indexed i sc => rdReg g b + rdReg g i <<< sc.val
  | .longDisp d => rdReg g b + d

/-- The value of the base after the access. -/
def modeBase (g : Eng) (b : RegCode) (n : Nat) : Amode → Option Word
  | .postInc => some (rdReg g b + BitVec.ofNat 32 n)
  | .preDec => some (rdReg g b - BitVec.ofNat 32 n)
  | _ => none

/-- The move of SP by a mode breaks the stack limit, which is judged before the access (R345). -/
def modeBreaksStack (g : Eng) (b : RegCode) (n : Nat) (m : Amode) : Bool :=
  b == 3 && (match modeBase g b n m with | some v => v.toNat < (stkLim g).toNat || (m == .preDec && (rdReg g b).toNat < n) | none => false)

/-- The base update. -/
def updateBase (e : Nat) (b : RegCode) (v : Option Word) : EngM Unit :=
  match v with
  | some v => fun c => .ok ((), { c with s := setEng e (wrReg b v) c.s, cost := { c.cost with items := c.cost.items ++ [regItem b v] } })
  | none => pure ()

/-- A loaded value extended to 32 bits (R350). -/
def extend (sz : Size) (sx : Bool) (v : Nat) : Word :=
  match sz with
  | .byte => if sx then (BitVec.ofNat 8 v).signExtend 32 else BitVec.ofNat 32 (v % 256)
  | .half => if sx then (BitVec.ofNat 16 v).signExtend 32 else BitVec.ofNat 32 (v % 65536)
  | .word => BitVec.ofNat 32 v

/-- Registers of a MASK in ascending bit order: A, X, Y, G0 to G7 (R355). -/
def maskCode (i : Nat) : RegCode := if i < 3 then ⟨i % 16, by omega⟩ else ⟨(i + 1) % 16, by omega⟩
def maskRegs (m : BitVec 11) : List RegCode := ((List.range 11).filter fun i => bitN m.toNat i).map maskCode

end Sys2Proof.Machine
end

