-- ==== Sys2Proof/Machine/Words.lean ====
section
/-! DEFINITION. Words of MLZ-32 instructions: the formats of R349, the addressing modes of R350, the codes of R351 to R353. -/

namespace Sys2Proof.Machine

/-- A word from OP and the fields below it. -/
def opWord (op rest : Nat) : Word := BitVec.ofNat 32 (rest + putF op 26 6)
/-- D in [25:22] and S, or B, in [21:18]. -/
def dsBits (d r : RegCode) : Nat := putF d 22 4 + putF r 18 4

/-- Format R; `mid` is [13:6]. -/
def wordR (op fn : Nat) (d r t : RegCode) (mid : Nat := 0) : Word := opWord op (putF fn 0 6 + putF mid 6 8 + putF t 14 4 + dsBits d r)
/-- Format I. -/
def wordI (op : Nat) (d r : RegCode) (imm : BitVec 18) : Word := opWord op (imm.toNat + dsBits d r)

/-- Kinds of SHI (R351) and conditions (R353). -/
def shiftCode : ShiftKind → Nat
  | .shl => 0
  | .shr => 1
  | .sar => 2
  | .rol => 3
  | .ror => 4
def condCode : Cond → Nat
  | .eq => 0
  | .ne => 1
  | .lt => 2
  | .ge => 3
  | .ltu => 4
  | .geu => 5
  | .tst => 6
  | .ntst => 7

/-- Format H: SHI. -/
def wordH (d r : RegCode) (kind : ShiftKind) (amount : BitVec 6) : Word := opWord 0x07 (amount.toNat + putF (shiftCode kind) 15 3 + dsBits d r)
/-- Format C: CMPI. -/
def wordC (d r : RegCode) (c : Cond) (imm : BitVec 15) : Word := opWord 0x0A (imm.toNat + putF (condCode c) 15 3 + dsBits d r)

/-- SZ of an access (R349). -/
def sizeCode : Size → Nat
  | .byte => 0
  | .half => 1
  | .word => 2
/-- AM, and [11:0], of a mode (R350). -/
def modeBits : Amode → Nat
  | .absolute _ => 0
  | .disp d => d.toNat + putF 1 15 3
  | .postInc => putF 2 15 3
  | .preDec => putF 3 15 3
  | .indexed i sc => putF sc 6 2 + putF i 8 4 + putF 4 15 3
  | .longDisp _ => putF 5 15 3
/-- The extension word of a mode. -/
def modeExt : Amode → Option Word
  | .absolute a => some a
  | .longDisp d => some d
  | _ => none
/-- Format M. -/
def wordM (op : Nat) (d b : RegCode) (m : Amode) (sz : Size) (sx : Bool) : Word :=
  opWord op (modeBits m + putF (b2n sx) 12 1 + putF (sizeCode sz) 13 2 + dsBits d b)

/-- Format B. -/
def wordB (op : Nat) (c : RegCode) (off : BitVec 22) : Word := opWord op (off.toNat + putF c 22 4)
/-- Format K. -/
def wordK (op : Nat) (mask : BitVec 11) (low : Nat) : Word := opWord op (putF low 0 15 + putF mask.toNat 15 11)
/-- LOOP, LOOPI and REP (R351). -/
def wordLoop (r : RegCode) (last : BitVec 14) : Word := opWord 0x20 (last.toNat + putF r 22 4)
def wordLoopi (count : BitVec 12) (last : BitVec 14) : Word := opWord 0x23 (last.toNat + putF count.toNat 14 12)
def wordRep (r : RegCode) (ni : Bool) : Word := opWord 0x22 (putF (b2n ni) 21 1 + putF r 22 4)
/-- SYS by its function (R352). -/
def wordSys (fn : Nat) (d r : RegCode := 0) (mid : Nat := 0) : Word := wordR 0x28 fn d r 0 mid

end Sys2Proof.Machine
end

