-- ==== Sys2Proof/Machine/EngLs.lean ====
section
/-! DEFINITION. The memory instructions of an engine (R350, R351, R357). -/

namespace Sys2Proof.Machine

/-- The address of a memory instruction, once its operands are allowed and SP stays within its limit (R345, R350). -/
def address (x : Issue) (b : RegCode) (m : Amode) (n : Nat) : EngM Word := do
  let g ← getEng x.engine
  if !modeOk b m then trapWith 1
  else if modeBreaksStack g b n m then trapWith 12
  else pure (modeAddr g b n m)

/-- What each memory instruction is to the fetch (R349, R359, R360). -/
def ldKind (d b : RegCode) (m : Amode) (sz : Size) (sx : Bool) : Kind :=
  { word := wordM 0x10 d b m sz sx, ext := modeExt m, repOk := true, uses := modeUses b m, loads := some d }
def stKind (d b : RegCode) (m : Amode) (sz : Size) : Kind :=
  { word := wordM 0x11 d b m sz false, ext := modeExt m, repOk := true, uses := d :: modeUses b m }
def leaKind (d b : RegCode) (m : Amode) : Kind := { word := wordM 0x12 d b m .byte false, ext := modeExt m, repOk := true, uses := modeUses b m }
def pushmKind (mask : BitVec 11) : Kind := { word := wordK 0x13 mask 0, uses := 3 :: maskRegs mask }
def popmKind (mask : BitVec 11) : Kind := { word := wordK 0x17 mask 0, uses := [3] }
def movsKind (d b : RegCode) (sz : Size) : Kind := { word := wordM 0x14 d b .postInc sz false, repOk := true, uses := [d, b] }
def xchgKind (d b : RegCode) (disp : BitVec 12) : Kind :=
  { word := wordM 0x15 d b (.disp disp) .word false, repOk := true, uses := [d, b], loads := some d }
def casKind (d r t : RegCode) : Kind := { word := wordR 0x16 0 d r t, repOk := true, uses := [d, r, t], loads := some d }

/-- LD: R350. -/
def execLd (x : Issue) (d b : RegCode) (m : Amode) (sz : Size) (sx : Bool) (s : State) : Out :=
  let n := sizeBytes sz
  instrOut x (ldKind d b m sz sx) (do
    if modeUpdates m && d == b then trapWith 1
    else do
      let g ← getEng x.engine
      let a ← address x b m n
      let v ← memLoad x a.toNat n
      updateBase x.engine b (modeBase g b n m)
      putReg x.engine d (extend sz sx v)
      pure .next) s

/-- ST: R350. -/
def execSt (x : Issue) (d b : RegCode) (m : Amode) (sz : Size) (s : State) : Out :=
  let n := sizeBytes sz
  instrOut x (stKind d b m sz) (do
    let g ← getEng x.engine
    let a ← address x b m n
    memStore x a.toNat n ((rdReg g d).toNat % 2 ^ (8 * n))
    updateBase x.engine b (modeBase g b n m)
    pure .next) s

/-- LEA: R350. -/
def execLea (x : Issue) (d b : RegCode) (m : Amode) (s : State) : Out :=
  instrOut x (leaKind d b m) (do
    if modeUpdates m then trapWith 1
    else do
      let a ← address x b m 1
      putReg x.engine d a
      pure .next) s

/-- PUSHM: R357. -/
def execPushm (x : Issue) (mask : BitVec 11) (s : State) : Out :=
  let l := maskRegs mask
  instrOut x (pushmKind mask) (do
    addCost fun c => { c with extra := l.length }
    let g ← getEng x.engine
    let sp ← lowerSp x.engine (4 * l.length)
    storeWords x sp.toNat (l.map (rdReg g))
    pure .next) s

/-- Registers take words in order. -/
def putWords (e : Nat) : List RegCode → List Word → EngM Unit
  | c :: cs, w :: ws => do putReg e c w; putWords e cs ws
  | _, _ => pure ()

/-- POPM: R357. -/
def execPopm (x : Issue) (mask : BitVec 11) (s : State) : Out :=
  let l := maskRegs mask
  instrOut x (popmKind mask) (do
    addCost fun c => { c with extra := l.length }
    let g ← getEng x.engine
    let sp := rdReg g 3
    let ws ← loadWords x sp.toNat l.length
    putWords x.engine l ws
    putReg x.engine 3 (sp + BitVec.ofNat 32 (4 * l.length))
    pure .next) s

/-- MOVS: R350, R351. Both registers are incremented; where they are one, the spec states no value, and the register's is
free (log entry 25, DESIGN CHOICE). -/
def execMovs (x : Issue) (d b : RegCode) (sz : Size) (s : State) : Out :=
  let n := sizeBytes sz
  instrOut x (movsKind d b sz) (do
    if !(isBase d && isBase b) then trapWith 1
    else do
      let g ← getEng x.engine
      if modeBreaksStack g d n .postInc || modeBreaksStack g b n .postInc then trapWith 12
      else do
        let v ← memLoad x (rdReg g b).toNat n
        memStore x (rdReg g d).toNat n v
        if d == b then do
          let c ← get
          let (w, s) := takeFree 32 c.s
          set { c with s := s }
          noteItem (regItem d (BitVec.ofNat 32 w)).1 (regItem d (BitVec.ofNat 32 w)).2
          modEng x.engine (wrReg d (BitVec.ofNat 32 w))
        else do
          updateBase x.engine b (modeBase g b n .postInc)
          updateBase x.engine d (modeBase g d n .postInc)
        addCost fun c => { c with extra := 1 }
        pure .next) s

/-- An atomic access to a word: the old value, and the new one where there is one, stored at once, after every earlier store
of the engine (R351, R369). The old value is an input that the pair samples, from local RAM too. -/
def atomic (x : Issue) (a : Nat) (new : Nat → Option Word) : EngM Word := do
  let c ← get
  match accessTrap c.s (eng c.s x.engine) a 4 true with
  | some k => trapAt k a
  | none => do
    let old ← memLoad x a 4
    if areaOf c.s a == some .loc then noteInput old else pure ()
    match new old with
    | none => pure ()
    | some w =>
      match areaOf c.s a with
      | some .loc => do
        noteItem 1 (storeItem .loc a 4 w.toNat).2
        modEng x.engine fun g => { g with ram := memWriteL g.ram (a - 0x20000000) (leBytes 4 w.toNat) }
      | some ar => do
        noteItem (storeItem ar a 4 w.toNat).1 (storeItem ar a 4 w.toNat).2
        modCx (commitStore x.engine a 4 w.toNat x.portWait)
      | none => pure ()
    pure (BitVec.ofNat 32 old)

/-- XCHG: R351. -/
def execXchg (x : Issue) (d b : RegCode) (disp : BitVec 12) (s : State) : Out :=
  instrOut x (xchgKind d b disp) (do
    let g ← getEng x.engine
    addCost fun c => { c with extra := 1 }
    let old ← atomic x (modeAddr g b 4 (.disp disp)).toNat fun _ => some (rdReg g d)
    putReg x.engine d old
    pure .next) s

/-- CAS: R351; the word lies in shared SRAM or local RAM. -/
def execCas (x : Issue) (d r t : RegCode) (s : State) : Out :=
  instrOut x (casKind d r t) (do
    let c ← get
    let g := eng c.s x.engine
    let a := (rdReg g r).toNat
    let ar := areaOf c.s a
    if a % 4 == 0 && !(ar == some .sram || ar == some .loc) then trapAt 6 a
    else do
      addCost fun c => { c with extra := 1 }
      let old ← atomic x a fun v => if BitVec.ofNat 32 v == rdReg g d then some (rdReg g t) else none
      putReg x.engine d old
      pure .next) s

end Sys2Proof.Machine
end

