-- ==== Sys2Proof/Machine/EngSys.lean ====
section
/-! DEFINITION. The SYS instructions of an engine, interrupts, the inbound queue, handlers, words that are no instruction
(R340, R343 to R349, R352, R361 to R365).
Readings of the spec: log entry 30, DEDUCED. -/

namespace Sys2Proof.Machine

/-- A SYS instruction that may be an END instruction (R359). -/
def sysKind (word : Word) (uses : List RegCode) : Kind := { word := word, uses := uses }

/-- What each SYS instruction is to the fetch (R352). -/
def nopKind : Kind := sysKind (wordSys 0) []
def fenceKind : Kind := sysKind (wordSys 1) []
def sendKind (d r : RegCode) : Kind := sysKind (wordSys 2 d r) [r]
def recvKind (d r : RegCode) : Kind := sysKind (wordSys 3 d r) [r]
def waitKind : Kind := { word := wordSys 4, endOk := false }
def yieldKind : Kind := { word := wordSys 5, endOk := false }
def trapKind (code : BitVec 8) : Kind := { word := wordSys 6 0 0 code.toNat, endOk := false }
def mfsKind (d : RegCode) (n : BitVec 8) : Kind := sysKind (wordSys 7 d 0 n.toNat) []
def mtsKind (r : RegCode) (n : BitVec 8) : Kind := sysKind (wordSys 8 0 r n.toNat) [r]
def retiKind : Kind := { word := wordSys 9, endOk := false, allWasted := true }
/-- A word that is no instruction: it traps before R359 and R360 could. -/
def badKindOf (w : Word) : Kind := { word := w, endOk := true, repOk := true }

/-- FENCE, and SEND before it passes its descriptor on, wait until every earlier store of the engine has been released and has
completed, a confirmed one with its reading back (R340, R371, R400). -/
def earlierDone (x : Issue) : EngM Unit := do
  modCx (settled x.engine)
  let c ← get
  if confirmsOut c.s x.engine then holds else pure ()

/-- NOP: R352. -/
def execNopInstruction (x : Issue) (s : State) : Out := instrOut x nopKind (pure .next) s

/-- FENCE: R340, R371, R398. Its lines are dropped. -/
def execFence (x : Issue) (s : State) : Out :=
  instrOut x fenceKind (do
    earlierDone x
    modCx (fenceLines x.engine)
    pure .next) s

/-! ### SEND and RECV (R361) -/

/-- Places of an engine's inbound queue that descriptors take (R362): those in flight, and the completions that still wait
to be read. -/
def engInFlight (s : State) (e : Fin 16) : Nat :=
  let held := ((pair s (e / 2)).held.filter fun i => match i with | .send _ => true | _ => false).length
  let unread := ((eng s e).inbox.filter fun r => !r.event).length + (s.transit.filter fun r => r.engine == e.val && !r.event).length
  s.engPipe[e].length + (s.started.filter fun r => r.desc.origin == .engine e).length + (if isCoupled s e then held else 0) + unread

/-- The descriptor that SEND passes on: session 2; for a behaviour program, TAG [63:56] is its number. -/
def sentDesc (e : Fin 16) (g : Eng) (bytes : Nat) : Desc :=
  let raw := bytes - putF (fld bytes 24 2) 24 2 + putF 2 24 2
  let prog := g.handler.elim 0 (·.prog)
  let raw := if inTask g then raw - putF (fld raw 120 8) 120 8 + putF prog 120 8 else raw
  { origin := .engine e, raw := BitVec.ofNat 256 raw, task := inTask g, prog := prog }

/-- A descriptor as eight words, as lane 2 compares it (R370). -/
def descWords (d : Desc) : List Nat := (List.range 8).map fun i => fld d.raw.toNat (32 * i) 32

/-- The 32-byte place that SEND and RECV name. -/
def descPlace (x : Issue) (a : Nat) : EngM Unit := do
  let c ← get
  if a % 32 != 0 then trapAt 5 a
  else if inTask (eng c.s x.engine) || areaOf c.s a == some .loc then pure ()
  else trapAt 6 a

/-- SEND: R361. -/
def execSend (x : Issue) (d r : RegCode) (s : State) : Out :=
  instrOut x (sendKind d r) (do
    if !isG d then trapWith 1
    else do
      let g ← getEng x.engine
      let a := (rdReg g r).toNat
      addCost fun c => { c with extra := 5 }
      descPlace x a
      let ws ← loadWords x a 8
      let c ← get
      if 32 ≤ engInFlight c.s x.engine then do
        addCost fun c => { c with sent := some false, samples := c.samples ++ [0] }
        putReg x.engine d 0
        pure .next
      else do
        let desc := sentDesc x.engine g (ofLe (ws.map fun w => leBytes 4 w.toNat).flatten)
        earlierDone x
        modCx fun s => if isCoupled s x.engine then holdItem (x.engine / 2) (.send desc) s else pushDesc x.engine desc s
        addCost fun c => { c with sent := some true, samples := c.samples ++ [1], items := c.items ++ (descWords desc).map fun w => (2, w) }
        putReg x.engine d 1
        pure .next) s

/-- RECV: R361. -/
def execRecv (x : Issue) (d r : RegCode) (s : State) : Out :=
  instrOut x (recvKind d r) (do
    if !isG d then trapWith 1
    else do
      let g ← getEng x.engine
      let a := (rdReg g r).toNat
      addCost fun c => { c with extra := 11 }
      descPlace x a
      match g.inbox with
      | [] => do putReg x.engine d 0; pure .next
      | rec' :: _ => do
        let bytes := ofLe (recordBytes 0 rec'.record)
        noteInput bytes
        storeWords x a ((List.range 8).map fun i => BitVec.ofNat 32 (fld bytes (32 * i) 32))
        modEng x.engine fun g => { g with inbox := g.inbox.drop 1 }
        putReg x.engine d 1
        pure .next) s

/-! ### Modes and special registers -/

/-- WAIT: R344, R352. -/
def execWait (x : Issue) (s : State) : Out :=
  instrOut x waitKind (do
    let g ← getEng x.engine
    if inTask g then trapWith 2
    else do
      modEng x.engine fun g => { g with waiting := true }
      pure .next) s

/-- YIELD: R344, R363, R372. Where the runtime goes on is a free value. -/
def execYield (x : Issue) (s : State) : Out :=
  instrOut x yieldKind (do
    let g ← getEng x.engine
    if !inTask g then pure .next
    else do
      let c ← get
      let (v, s) := takeFree 30 c.s
      set { c with s := setEng x.engine (fun g => setSw swTask false { g with handler := none }) s }
      pure (.goto (BitVec.ofNat 32 (4 * v)))) s

/-- TRAP: R348, R352. -/
def execTrap (x : Issue) (code : BitVec 8) (s : State) : Out :=
  instrOut x (trapKind code) (fun c => .error (.trap 11 code.toNat none false false c.cost)) s

/-- Special registers that exist (R344). -/
def spListed (n : Nat) : Bool := [0x00, 0x01, 0x02, 0x03, 0x04, 0x08, 0x09, 0x0A, 0x0C, 0x10, 0x11, 0x12, 0x13].contains n || (0x20 ≤ n && n < 0x38)
/-- Those that MFS reads in task mode. -/
def spTask (n : Nat) : Bool := [0x00, 0x01, 0x10, 0x11, 0x12, 0x13].contains n

/-- Protection region `n` as its three registers. -/
def regionReg (g : Eng) (n : Nat) : Word :=
  let r := (at? g.mpu (n / 3)).getD {}
  match n % 3 with
  | 0 => r.base
  | 1 => r.lim
  | _ => r.attr
def setRegion (n : Nat) (v : Word) (g : Eng) : Eng :=
  let f := fun r : Region => match n % 3 with
    | 0 => { r with base := v &&& ~~~0x3F }
    | 1 => { r with lim := v ||| 0x3F }
    | _ => { r with attr := v &&& 0xF }
  { g with mpu := updN g.mpu (n / 3) f }

/-- Value of a special register (R344). -/
def spValue (s : State) (e : Fin 16) (n : Nat) : Word :=
  let g := eng s e
  match n with
  | 0x00 => g.sw
  | 0x01 => g.pc
  | 0x02 => g.tsp
  | 0x03 => g.stkT
  | 0x04 => g.stkS
  | 0x08 => g.tvec
  | 0x09 => g.tcause
  | 0x0A => g.taddr
  | 0x0C => g.ivec
  | 0x10 => BitVec.ofNat 32 s.dt
  | 0x11 => g.dtHi
  | 0x12 => BitVec.ofNat 32 (e + putF (e / 2) 4 3)
  | 0x13 => BitVec.ofNat 32 g.evtDrop
  | _ => regionReg g (n - 0x20)

/-- MFS: R344, R352. DT_LO, DT_HI and EVT_DROP are inputs that a pair samples (R369). -/
def execMfs (x : Issue) (d : RegCode) (n : BitVec 8) (s : State) : Out :=
  instrOut x (mfsKind d n) (do
    let c ← get
    let g := eng c.s x.engine
    if !spListed n.toNat then trapWith 1
    else if inTask g && !spTask n.toNat then trapWith 2
    else do
      addCost fun c => { c with extra := 1 }
      if n == 0x10 then modEng x.engine fun g => { g with dtHi := BitVec.ofNat 32 (c.s.dt / 2 ^ 32) }
      let v := spValue c.s x.engine n.toNat
      if [0x10, 0x11, 0x13].contains n.toNat then noteInput v.toNat else pure ()
      putReg x.engine d v
      pure .next) s

/-- MTS to SW (R343): in task mode V and DZ alone, which a 1 clears; TASK is entered only by RETI (R344). -/
def writeSw (v : Word) (g : Eng) : Eng :=
  let g := setSw swDz (swBit g swDz && !bitN v.toNat swDz) (setSw swV (swBit g swV && !bitN v.toNat swV) g)
  if inTask g then g
  else
    let copy := fun (i : Nat) (g : Eng) => setSw i (bitN v.toNat i) g
    copy swOvTrap (copy swDzTrap (copy (swIpl + 1) (copy swIpl (copy swIe (copy swC g)))))

/-- A special register is written in supervisor mode (R344); PC, DT, ENG_ID and EVT_DROP are not written. -/
def spWrite (n : Nat) (v : Word) (g : Eng) : Eng :=
  match n with
  | 0x00 => writeSw v g
  | 0x02 => { g with tsp := v }
  | 0x03 => { g with stkT := v }
  | 0x04 => { g with stkS := v }
  | 0x08 => { g with tvec := v }
  | 0x09 => { g with tcause := v &&& 0xFFFF }
  | 0x0A => { g with taddr := v }
  | 0x0C => { g with ivec := v &&& ~~~0x3FF }
  | _ => if 0x20 ≤ n then setRegion (n - 0x20) v g else g

/-- MTS: R343, R344, R352. -/
def execMts (x : Issue) (r : RegCode) (n : BitVec 8) (s : State) : Out :=
  instrOut x (mtsKind r n) (do
    let g ← getEng x.engine
    if !spListed n.toNat then trapWith 1
    else if inTask g && n != 0 then trapWith 2
    else do
      addCost fun c => { c with extra := 1 }
      modEng x.engine (spWrite n.toNat (rdReg g r))
      pure .next) s

/-- Cycles of RETI (R347). -/
def retiCycles : Nat := 10

/-- Everything that a frame holds is restored (R347). -/
def restoreFrame (ws : List Word) (g : Eng) : Eng :=
  let w := fun i => ws.getD i 0
  let g := inward.foldl (fun g l => setLc l (w (2 + l.val)) { g with loops := g.loops.set l { start := w (5 + 2 * l.val), last := w (6 + 2 * l.val) } }) g
  { g with sw := w 1 &&& swMask, ssp := g.ssp + 48 }

/-- RETI: R347. -/
def execReti (x : Issue) (s : State) : Out :=
  instrOut x retiKind (do
    let g ← getEng x.engine
    if inTask g then trapWith 2
    else do
      let ws ← loadWords x g.ssp.toNat 11
      let pc := ws.getD 0 0
      if pc.toNat % 4 != 0 then trapAt 5 pc.toNat
      else do
        addCost fun c => { c with wasted := retiCycles - 1 }
        modEng x.engine (restoreFrame ws)
        pure (.goto pc)) s

/-! ### Interrupts (R346, R347) -/

/-- Interrupts of an engine that are pending; 81 stands for a non-empty inbound queue. -/
def pendingInts (s : State) (e : Fin 16) : List Nat :=
  (List.range 83).filter fun n => if n == 81 then !(eng s e).inbox.isEmpty else bitN s.engInts[e] n

/-- Among pending interrupts, the one to take above a level: its number, level and handler. -/
def pickInt (x : Issue) (ivec : Nat) : List Nat → Option (Nat × Nat × Word) → Nat → EngM (Option (Nat × Nat × Word))
  | [], best, _ => pure best
  | n :: ns, best, ipl => do
    let ws ← loadWords x (ivec + 8 * n) 2
    let lvl := fld (ws.getD 1 0).toNat 0 8
    if lvl ≤ 3 && ipl < lvl then pickInt x ivec ns (some (n, lvl, ws.getD 0 0)) lvl else pickInt x ivec ns best ipl

/-- Taking an interrupt: the frame, IPL, the handler (R347); none where no pending one has a level above IPL. -/
def enterInt (x : Issue) (pc : Word) : EngM (Option Nat) := do
  let c ← get
  let g := eng c.s x.engine
  modEng x.engine (setSw swTask false)
  match ← pickInt x g.ivec.toNat (pendingInts c.s x.engine) none (fld g.sw.toNat swIpl 2) with
  | none => pure none
  | some (n, lvl, h) => do
    modEng x.engine fun y => { y with sw := g.sw }
    storeFrame x pc
    modEng x.engine fun g =>
      setSw swRepa false { g with sw := setFld g.sw swIpl 2 lvl, pc := h, rep := none, loaded := none, waiting := false, entering := false }
    pure (some n)

/-- An interrupt may be taken now: IE = 1, no REPN runs, no instruction waits for its reads (R346, R360). -/
def intAllowed (s : State) (e : Nat) : Bool :=
  let g := eng s e
  swBit g swIe && !(g.rep.elim false (·.ni)) && (g.entering || (askedOf s e).isEmpty)

/-- The interrupt table is read through the window: the entry waits for what it has asked for (R346, R391). -/
def awaitTable (e keep : Nat) (line : Bool) (addr len : Nat) (s : State) : State :=
  let s := askHost e keep line addr len s
  setEng e (fun g => { g with entering := !(askedOf s e).isEmpty }) s

/-- INTERRUPT_ENTRY: R346, R347, R372. -/
def execInterruptEntry (x : Issue) (s : State) : Out :=
  .next (onlyIf (executes s x.engine && intAllowed s x.engine) (fun s =>
    let e := x.engine
    let g := eng s e
    let pc := savedPc g
    let o := occurOf g pc
    match enterInt x pc { s := s } with
    | .error .hold => s
    | .error (.send keep line addr len) => awaitTable e keep line addr len s
    | .error (.trap ..) => followed e false x [] [] [] g (doubleTrap e (dropAsked e 0 s))
    | .ok (none, _) => setEng e (fun g => { g with entering := false }) (dropAsked e 0 s)
    | .ok (some n, c) =>
      let s := setAsked e [] { c.s with engInts := upd c.s.engInts e fun b => b - putF (fld b n 1) n 1 }
      let slots := entrySlots 0x18 (eng s e).pc o
      followed e true x slots c.cost.items (c.cost.samples ++ [n]) g (runCycles e true slots (nameSamples e pc.toNat true s))) s)

/-- LOCAL_TIMER: R346. -/
def execLocalTimer (e : Fin 16) (s : State) : Out :=
  .next (onlyIf (engineClock s e) (fun s => { s with engInts := upd s.engInts e fun b => Nat.lor b (2 ^ 80) }) s)

/-! ### The inbound queue and handlers (R362, R363) -/

/-- Places of an inbound queue for events. -/
def eventPlaces : Nat := 64

/-- INBOUND_QUEUE_DELIVERY: R362, R433. What comes for a shadow is taken by the main engine of its pair (R375). -/
def execInboundQueueDelivery (e : Fin 16) (s : State) : Out :=
  .next (whenOn (fun s => match s.transit.find? fun r => r.engine == e.val with
    | none => s
    | some r =>
      let s := { s with transit := s.transit.eraseP fun r => r.engine == e.val }
      if (pair s (e / 2)).halted then s
      else
        let e := if isShadow s e then e.val - 1 else e.val
        let g := eng s e
        if r.event && eventPlaces ≤ (g.inbox.filter (·.event)).length then
          let s := setEng e (fun g => { g with evtDrop := sat 32 (g.evtDrop + 1), dropSeen := true }) s
          mirrorShadow e (if g.dropSeen then s else raise 242 (engTarget e) s)
        else
          let s := setEng e (fun g => { g with inbox := g.inbox ++ [{ prog := r.prog, event := r.event, record := r.record }], dropSeen := g.dropSeen && !g.inbox.isEmpty }) s
          mirrorShadow e (if 4 ≤ e && r.prog.isSome && s.pw.state == .standby then modPw (fun w => { w with exitTrigger := true }) s else s)) s)

/-- Device address of an engine's record buffer, in the 16 KiB that the runtime keeps (log entry 24, DESIGN CHOICE). -/
def recordBuffer : Nat := 0x20000000

/-- The handler of a program for a record: event code 0 names the completion handler (R363, R364). -/
def handlerFor (p : Prog) (r : InRec) : Option (Nat × Nat × Nat × Nat) :=
  p.handlers.find? fun h => if r.event then h.1 == r.record.opcode && h.1 != 0 && (h.2.1 == 0xFFFF || h.2.1 == r.record.target) else h.1 == 0

/-- Pending records of an engine that have a handler, in order of arrival. -/
def dispatchable (s : State) (e : Nat) : List (InRec × Prog × Nat × Nat) :=
  (eng s e).inbox.filterMap fun r => match r.prog with
    | none => none
    | some n =>
      match s.stg.place.progs.find? fun p => p.num == n && p.engine == e && !p.stopped with
      | none => none
      | some p => (handlerFor p r).map fun h => (r, p, h.2.2.1, h.2.2.2)

/-- No handler is there for a record: its program is not placed, has stopped, or has none for it. The runtime takes it and
does nothing (log entry 30, DEDUCED). -/
def unserved (s : State) (r : InRec) : Bool :=
  match r.prog with
  | none => false
  | some n =>
    match s.stg.place.progs.find? fun p => p.num == n with
    | none => true
    | some p => p.stopped || (handlerFor p r).isNone

/-- The one with the highest priority, the oldest among equals. -/
def bestHandler : List (InRec × Prog × Nat × Nat) → Option (InRec × Prog × Nat × Nat)
  | [] => none
  | x :: xs => match bestHandler xs with | some y => if x.2.2.2 < y.2.2.2 then some y else some x | none => some x

/-- The regions of a program (R365): code, data with stack, record buffer. -/
def progRegions (p : Prog) : Vector Region 8 :=
  let reg := fun (a n attr : Nat) => { base := BitVec.ofNat 32 (a / 64 * 64), lim := BitVec.ofNat 32 ((a + n - 1) / 64 * 64 + 63), attr := BitVec.ofNat 32 attr : Region }
  #v[reg p.codeAddr p.codeSize 0xC, reg p.dataBase p.memSize 0xB, reg recordBuffer 32 0x9, {}, {}, {}, {}, {}]

/-- The engine as the runtime enters a handler (R363, R365), with its own stack empty (log entry 27, DESIGN CHOICE). -/
def enterHandler (p : Prog) (entry : Nat) (r : InRec) (g : Eng) : Eng :=
  { g with regs := (Vector.replicate 16 (0 : Word)).set 0 (BitVec.ofNat 32 recordBuffer) |>.set 1 (BitVec.ofNat 32 p.dataBase)
           tsp := BitVec.ofNat 32 p.stackTop, ssp := 0x20004000, stkT := BitVec.ofNat 32 p.stackLim, mpu := progRegions p
           pc := BitVec.ofNat 32 (p.codeAddr + entry)
           sw := BitVec.ofNat 32 (2 ^ swTask + 2 ^ swIe)
           ram := memWriteL g.ram 0 (recordBytes 0 r.record), inbox := g.inbox.erase r
           handler := some { prog := p.num, max := p.maxCycles }, rep := none, loaded := none, waiting := false }

/-- A dispatch is counted on the engine, and on the shadow of a coupled pair (R366, R485). -/
def countDispatch (e : Fin 16) (s : State) : State :=
  let o := evAt (occurOf (eng s e) (eng s e).pc) 0x1D 1
  let s := pmcCycle e true [o] s
  match (if isCoupled s e then fin? 16 (e + 1) else none) with
  | some f => pmcCycle f false [o] s
  | none => s

/-- The runtime can dispatch a handler on an engine (R363, R375, R414, R416). -/
def mayDispatch (s : State) (e : Fin 16) : Bool :=
  let g := eng s e
  executes s e && s.stg.inForce && !(s.flt.c3 && 4 ≤ e.val) && dispatchOpen s (e / 2) && g.handler.isNone && !inTask g && !(s.pw.state == .standby && 4 ≤ e.val) &&
    !inC2 s (.pair (e / 2)) && !g.entering && (askedOf s e).isEmpty

/-- HANDLER_DISPATCH: R363, R375, R416. -/
def execHandlerDispatch (e : Fin 16) (s : State) : Out :=
  .next (onlyIf (mayDispatch s e) (fun s =>
    let s := mirrorShadow e (setEng e (fun g => { g with inbox := g.inbox.filter fun r => !unserved s r }) s)
    match bestHandler (dispatchable s e) with
    | none => s
    | some (r, p, entry, _) => mirrorShadow e (countDispatch e (setEng e (enterHandler p entry r) s))) s)

/-- A running handler has taken more cycles than MAX_CYCLES (R363). -/
def budgetOver (g : Eng) : Bool := match g.handler with | some h => inTask g && h.max < h.cycles | none => false

/-- HANDLER_CYCLE_BUDGET_EXCEEDED: R363. -/
def execHandlerCycleBudgetExceeded (x : Issue) (s : State) : Out :=
  .next (onlyIf (executes s x.engine && budgetOver (eng s x.engine)) (fun s =>
    takeTrap x 13 0 none (savedPc (eng s x.engine)) (fun _ _ => []) s) s)

/-! ### Words that are no instruction (R348, R349) -/

/-- Format M (R349, R350): `size` and `ext` say whether SZ and SX are free. -/
def legalM (w : Nat) (modes : List Nat) (sxFree : Bool) (szs : List Nat) : Bool :=
  let am := fld w 15 3
  let low := fld w 0 12
  let b := fld w 18 4
  modes.contains am && szs.contains (fld w 13 2) && (sxFree || fld w 12 1 == 0) &&
    (match am with
    | 0 => b == 15 && low == 0
    | 1 => true
    | 4 => fld w 0 6 == 0
    | 5 => low == 0
    | _ => 1 ≤ b && b ≤ 11 && low == 0)

/-- SYS (R352). -/
def legalSys (w : Nat) : Bool :=
  let d := fld w 22 4
  let s := fld w 18 4
  let t := fld w 14 4
  let mid := fld w 6 8
  match fld w 0 6 with
  | 0 => fld w 6 20 == 0
  | 1 => fld w 6 20 == 0
  | 2 => 4 ≤ d && d ≤ 11 && t == 0 && mid == 0
  | 3 => 4 ≤ d && d ≤ 11 && t == 0 && mid == 0
  | 4 => fld w 6 20 == 0
  | 5 => fld w 6 20 == 0
  | 6 => fld w 14 12 == 0
  | 7 => s == 0 && t == 0 && spListed mid
  | 8 => d == 0 && t == 0 && spListed mid
  | 9 => fld w 6 20 == 0
  | _ => false

/-- The word is an instruction: its OP, function and kind are assigned, its reserved fields 0, its registers allowed
(R349 to R353, R358). -/
def mlzLegal (w : Nat) : Bool :=
  let d := fld w 22 4
  let f := fld w 0 6
  let g := 4 ≤ d && d ≤ 11
  let anyD := fld w 22 4 != fld w 18 4
  match fld w 26 6 with
  | 0x00 => fld w 6 8 == 0 && f ≤ 0x17 && (!([0x07, 0x08, 0x09, 0x0A, 0x0F, 0x10, 0x11, 0x12].contains f) || fld w 14 4 == 0)
  | 0x01 => true
  | 0x02 => true
  | 0x03 => true
  | 0x04 => true
  | 0x05 => fld w 18 4 == 0
  | 0x06 => fld w 0 22 == 0
  | 0x07 => fld w 15 3 ≤ 4 && fld w 6 9 == 0
  | 0x08 => fld w 6 8 == 0 && f ≤ 6
  | 0x09 => fld w 6 8 == 0 && f ≤ 7 && g
  | 0x0A => g
  | 0x10 => legalM w [0, 1, 2, 3, 4, 5] true [0, 1, 2] && !((fld w 15 3 == 2 || fld w 15 3 == 3) && !anyD)
  | 0x11 => legalM w [0, 1, 2, 3, 4, 5] false [0, 1, 2]
  | 0x12 => legalM w [0, 1, 4, 5] false [0]
  | 0x13 => fld w 0 15 == 0
  | 0x14 => legalM w [2] false [0, 1, 2] && 1 ≤ d && d ≤ 11
  | 0x15 => legalM w [1] false [2]
  | 0x16 => fld w 0 14 == 0
  | 0x17 => fld w 0 15 == 0
  | 0x18 => d == 0
  | 0x19 => g
  | 0x1A => g
  | 0x1B => d == 0 && fld w 0 18 == 0
  | 0x1C => true
  | 0x1D => fld w 0 26 == 0
  | 0x1E => fld w 0 15 == 0
  | 0x1F => fld w 4 11 == 0
  | 0x20 => fld w 14 8 == 0 && fld w 0 14 != 0
  | 0x21 => fld w 0 26 == 0
  | 0x22 => fld w 0 21 == 0
  | 0x23 => fld w 0 14 != 0
  | 0x28 => legalSys w
  | _ => false

/-- ILLEGAL_INSTRUCTION: R348, R349. A word that is an instruction is no occasion for it. -/
def execIllegalInstruction (x : Issue) (w : Word) (s : State) : Out :=
  if mlzLegal w.toNat then .next s else instrOut x (badKindOf w) (trapWith 1) s

end Sys2Proof.Machine
end

