-- ==== Sys2Proof/Machine/Pairs.lean ====
section
/-! DEFINITION. Pairs: hand-overs between the modes, mismatch, the package store, and with them the end of a commit that waits
for its hand-overs (R366 to R383, R520).
Readings of the spec: log entry 31, DEDUCED. -/

namespace Sys2Proof.Machine

/-- EVT_RING of table 0x0F (R380). -/
def pairRing (s : State) : Nat := fromCommit s 0xFF (tblU s 15 25 1)

/-! ### The end of a commit -/

/-- START is over with the first commit (R420). -/
def leaveStart (s : State) : State :=
  let next := fun (f : FaultSt) (p : Phase) => if p == .start then (if f.leftC3 then .recovery else .normal) else p
  modFlt (fun f => { f with phase := next f f.phase, interrupted := next f f.interrupted, leftC3 := false
                            recoveryStart := if f.phase == .start || f.interrupted == .start then s.dt else f.recoveryStart }) s

/-- Step 7 of R74: the report, the staging area empty, the completion (R71, R74). -/
def commitDone (c : CommitRun) (s : State) : State :=
  let late := c.tick - c.reqTick
  let res := w32 s.stg.seq + (if c.reqTick == 0 then 0 else sat 32 late * 2 ^ 32)
  let s := leaveStart (writeReport (modStg (fun g => { g with staged := Vector.replicate 16 none }) s))
  commitEnds c (b2n (c.reqTick != 0 && 0 < late)) res noFail s

/-- A hand-over that a commit has started runs (R367). -/
def commitHandover (s : State) : Bool := s.pairs.toList.any fun p => match p.run with | some h => h.uid.isNone | none => false

/-- The commit completes once its new copy is marked and its hand-overs have ended (R367). -/
def commitMaybeDone (s : State) : State :=
  match s.stg.run with
  | some c => if c.phase == .marked && !commitHandover s then commitDone c s else s
  | none => s

/-! ### Hand-overs -/

/-- A hand-over's phase moves on. -/
def setPhase (k : Nat) (ph : HoPhase) (s : State) : State :=
  setPair k (fun p => { p with phase := ph, run := p.run.map fun h => { h with stepDt := s.dt } }) s

/-- Acceptance (R375, R377). -/
def startHandover (k : Nat) (uid : Option Nat) (toSplit : Bool) (s : State) : State :=
  setPair k (fun p => { p with phase := .holding, run := some { uid := uid, toSplit := toSplit, t0 := s.dt, stepDt := s.dt } }) s

/-- The hand-over is over: its descriptor ends with a status and RESULT once record `rec'` is written; an event reports a new
mode (R375, R377, R382, R462). -/
def endHandover (k : Nat) (h : HandOver) (status result : Nat) (s : State) : State :=
  let cause := b2n h.uid.isNone
  let mode := b2n (pair s k).split
  let ev : List Report :=
    if status == 0 then [.event (pairRing s) 0x2080 (pairTarget k) (k + 8 * mode + 16 * cause) (sat 32 ((s.dt - h.t0) * 25 / 2)) s.dt false] else []
  let s := setPair k (fun p => { p with phase := .none, run := none }) s
  let s := match h.uid with
    | some u => finishGated u status result (engRecord 4 k cause 0 0 (eng s (2 * k)).pc.toNat 0 s (.completion u :: ev))
    | none => engRecord 4 k cause 0 0 (eng s (2 * k)).pc.toNat 0 s ev
  commitMaybeDone s

/-- Place a program's entry anew. -/
def mapProgs (f : Prog → Prog) (s : State) : State :=
  modStg (fun g => { g with place := { g.place with progs := g.place.progs.map f } }) s

/-- The entry of a program in a list, else as it is. -/
def entryIn (l : List Prog) (p : Prog) : Prog := (l.find? fun q => q.num == p.num).getD p

/-- The one of a list with the highest LOAD, the lower number on a tie. -/
def heaviest : List Prog → Option Prog
  | [] => none
  | p :: ps => match heaviest ps with
    | some q => if p.load < q.load || (p.load == q.load && q.num < p.num) then some q else some p
    | none => some p

/-- Numbers of the programs that go to E(2k+1) (R376): `n` bounds their count, `a` and `b` are the sums so far. -/
def divide : Nat → List Prog → Nat → Nat → List Nat
  | 0, _, _, _ => []
  | n + 1, ps, a, b =>
    match heaviest ps with
    | none => []
    | some p =>
      let rest := ps.filter fun q => q.num != p.num
      if b < a then p.num :: divide n rest a (b + p.load) else divide n rest (a + p.load) b

/-- Step 4 of a split: the programs are divided, or stand as the commit has placed them; their records part (R375, R376). -/
def splitNow (k : Nat) (h : HandOver) (s : State) : State :=
  let odd := if h.uid.isSome then divide 256 (pairProgs s k) 0 0 else ((pairProgs s k).filter fun p => p.engine == 2 * k + 1).map (·.num)
  let s := mapProgs (fun p => if p.engine / 2 == k then { p with engine := if odd.contains p.num then 2 * k + 1 else 2 * k, split := true } else p) s
  let goes := fun r : InRec => match r.prog with | some n => odd.contains n | none => false
  let s := setEng (2 * k) (fun g => { g with inbox := g.inbox.filter fun r => !goes r }) s
  let s := setEng (2 * k + 1) (fun g => { g with inbox := g.inbox.filter goes }) s
  let fill := fun (e : Nat) (s : State) =>
    setEng e (fun g => { g with ram := ramWith ((progsOn s e).filter (·.image.isSome)) (fun p => (p.image.getD [], 0)) g.ram }) s
  let s := mapProgs (fun p => if p.engine / 2 == k then { p with image := none } else p) (fill (2 * k + 1) (fill (2 * k) s))
  setPhase k .ending (rewriteReport (retarget (setPair k (fun p => { p with split := true }) s)))

/-- Step 3 of a merge: the data of the other engine's programs move into E(2k), their records join its queue (R377). -/
def mergeMove (k : Nat) (s : State) : State :=
  let mine := pairProgs s k
  let stays := mine.filter fun p => p.engine == 2 * k && p.image.isNone
  let comes := mine.filter fun p => !(p.engine == 2 * k && p.image.isNone)
  let placed := placeData stays comes
  let stood := fun p : Prog => match p.image with
    | some m => (m, 0)
    | none => ((eng s p.engine).ram, progOff (entryIn mine p))
  let ram := ramWith placed stood (eng s (2 * k)).ram
  let late := (eng s (2 * k + 1)).inbox
  let s := setEng (2 * k) (fun g => { g with ram := ram, inbox := g.inbox ++ late }) (setEng (2 * k + 1) (fun g => { g with inbox := [] }) s)
  mapProgs (fun p => if p.engine / 2 == k then { entryIn placed p with image := none } else p) s

/-- One move of a hand-over, when its least time has passed; no command names these steps (R375, R377). -/
def advancePair (k : Nat) (s : State) : State :=
  let p := pair s k
  let free := (eng s (2 * k)).handler.isNone && (eng s (2 * k + 1)).handler.isNone
  match p.run with
  | none => s
  | some h =>
    match p.phase with
    | .holding =>
      if h.stepDt + 16 ≤ s.dt && free then setPhase k (if h.toSplit then .checkpoint else .moving) s else s
    | .checkpoint =>
      if h.stepDt + 24 ≤ s.dt then
        setPhase k .moving (drained (2 * k) (catchUp k s))
      else s
    | .moving =>
      if h.toSplit then (if h.stepDt + 8 ≤ s.dt then splitNow k h s else s)
      else if h.stepDt + 16 ≤ s.dt then setPhase k .copying (mergeMove k s)
      else s
    | .ending =>
      if h.stepDt + us 2 ≤ s.dt then
        let n := (progsOn s (2 * k)).length
        let m := (progsOn s (2 * k + 1)).length
        endHandover k h 0 (if h.toSplit then putF n 0 8 + putF m 8 8 + putF h.stepDt 32 32 else putF n 0 8 + putF h.stepDt 32 32) s
      else s
    | _ => s

/-- The hand-overs of all pairs move on. -/
def advancePairs (s : State) : State := (List.range 8).foldl (fun s k => advancePair k s) s

/-- A comparator self-test runs, and ends (R420). -/
def testBegins (s : State) : State :=
  modFlt (fun f => if f.phase == .test || f.phase == .start then f else { f with phase := .test, interrupted := f.phase }) s
def testEnds (s : State) : State :=
  if s.pairs.toList.any fun p => p.phase == .testing then s else modFlt (fun f => if f.phase == .test then { f with phase := f.interrupted } else f) s

/-- The shadow takes the main engine's local RAM and registers; what waits in its queue stays there (R377). -/
def copyEngine (k : Nat) (s : State) : State :=
  let m := eng s (2 * k)
  setEng (2 * k + 1) (fun g => { m with inbox := g.inbox, dropSeen := g.dropSeen }) s

/-- The copy of a merge has had its time: 1,024 DT ticks (R377). -/
def copyDue (p : PairSt) (now : Nat) : Bool := match p.run with | some h => p.phase == .copying && h.stepDt + 1024 ≤ now | none => false

/-- MERGE_COPY_DONE: steps 3 and 4 of R377. -/
def execMergeCopyDone (k : Fin 8) (s : State) : Out :=
  .next (onlyIf (copyDue (pair s k) s.dt) (fun s => testBegins (setPhase k .testing (copyEngine k s))) s)

/-- Step 6 of R377: the pair is coupled, its shadow DELAY cycles behind; its programs run on it as one. -/
def couple (k : Nat) (s : State) : State :=
  let late := (eng s (2 * k + 1)).inbox
  let s := setEng (2 * k) (fun g => { g with inbox := g.inbox ++ late }) s
  let s := mapProgs (fun p => if p.engine / 2 == k then { p with engine := 2 * k, split := false } else p) s
  let s := setPair k (fun p => { p with split := false, ckpt := 0, lag := pairDelay s, trail := [], past := 0, held := [] }) s
  setPhase k .ending (rewriteReport (retarget (coupleEng k s)))

/-- Step 5 of R377 has failed: the pair stays split, the records of E(2k+1) return to it. -/
def mergeFails (k : Nat) (h : HandOver) (s : State) : State :=
  let odd := ((pairProgs s k).filter fun p => p.engine == 2 * k + 1).map (·.num)
  let back := fun r : InRec => match r.prog with | some n => odd.contains n | none => false
  let rs := (eng s (2 * k)).inbox.filter back
  let s := setEng (2 * k) (fun g => { g with inbox := g.inbox.filter fun r => !back r }) s
  let s := setEng (2 * k + 1) (fun g => { g with inbox := rs ++ g.inbox }) s
  let s := raise 245 (pairTarget k) (setPair k (fun p => { p with mergeBlk := true }) s)
  endHandover k h 0x12 245 s

/-- MERGE_SELFTEST_DONE: steps 5 and 6 of R377; `failed`: the expectations of the self-test that do not hold (R374). -/
def execMergeSelftestDone (k : Fin 8) (failed : List (Fin 203)) (s : State) : Out :=
  let p := pair s k
  let ok := failed.isEmpty
  .next (match p.run with
    | some h =>
      if p.phase == .testing && h.stepDt + (if ok then 412 else 404) ≤ s.dt then
        if ok then testEnds (couple k s) else testEnds (mergeFails k h s)
      else s
    | none => s)

/-! ### Operations on pairs (R378, R381) -/

/-- The pair that a TARGET names. -/
def Desc.pairNo (d : Desc) : Nat := d.ch - 16
def Desc.isPair (d : Desc) : Bool := d.slice == 0xE && 16 ≤ d.ch && d.ch < 24

/-- Capacity of an engine: LOAD, bytes of program memory (R379). -/
def engLoad : Nat := 256000000
def engBytes : Nat := 48 * 1024
/-- Programs that fit one engine; each takes whole protection regions of 64 bytes (R344). -/
def fitsEngine (l : List Prog) : Bool :=
  (l.map (·.load)).foldl (· + ·) 0 ≤ engLoad && (l.map progSpan).foldl (· + ·) 0 ≤ engBytes

/-- R378. -/
def handoverAllowed (s : State) (k : Nat) (toSplit : Bool) : Bool :=
  let p := pair s k
  2 ≤ k && p.split != toSplit && !handoverRuns s && !commitRuns s && !graftRuns s && !p.halted && (toSplit || !p.mergeBlk) &&
    !(pairProgs s k).any fun x => x.redund == (if toSplit then 1 else 2)

/-- What PAIR_SPLIT asks of its descriptor. -/
def pairSplitForm (s : State) (d : Desc) : OpForm :=
  { range := d.isPair, state := handoverAllowed s d.pairNo true }

/-- PAIR_SPLIT: R375, R378, R381. -/
def execPairSplit (o : Origin) (s : State) : Out :=
  runOut o 0x2003 pairSplitForm
    (fun d uid s => startHandover d.pairNo (some uid) true s) s

/-- What PAIR_MERGE asks of its descriptor. -/
def pairMergeForm (s : State) (d : Desc) : OpForm :=
  { range := d.isPair, state := handoverAllowed s d.pairNo false, res := fitsEngine (pairProgs s d.pairNo) }

/-- PAIR_MERGE: R377, R378, R381. -/
def execPairMerge (o : Origin) (s : State) : Out :=
  runOut o 0x2004
    pairMergeForm
    (fun d uid s => startHandover d.pairNo (some uid) false s) s

/-- What PAIR_QUERY asks of its descriptor. -/
def pairQueryForm (_ : State) (d : Desc) : OpForm :=
  { idem := true, range := d.isPair }

/-- PAIR_QUERY: R381, R383. -/
def execPairQuery (o : Origin) (s : State) : Out :=
  runOut o 0x2005 pairQueryForm
    (fun d uid s => finish uid 0 (pairReg s d.pairNo 0 + 2 ^ 32 * pairReg s d.pairNo 4) s) s

/-! ### Mismatch -/

/-- The pair compares: coupled, clocked, not halted. -/
def compares (s : State) (k : Nat) : Bool := engineClock s (2 * k) && !(pair s k).split && !(pair s k).halted

/-- The entries of a trail up to the first with an item on a lane, and their number; none has one where it is the trail's. -/
def entriesTo (lane : Nat) (l : List TrailEntry) : Nat := (l.takeWhile fun t => onLane lane t == 0).length

/-- What the two engines have under way goes with their pair's halt (R373, R397). -/
def stillEng (e : Nat) (s : State) : State :=
  dropAsked e 0 (setEng e (fun x => { x with inbox := [], waiting := false, entering := false }) s)

/-- PAIR_MISMATCH: R370, R373, R382, R461. The shadow has followed up to the first item of the lane that it has still to
produce, which comes out different. -/
def execPairMismatch (k : Fin 8) (lane : Fin 4) (bit : Fin 128) (s : State) : Out :=
  let n := entriesTo lane (pair s k).trail
  .next (onlyIf (compares s k && bit.val < laneWidth lane && n < (pair s k).trail.length) (fun s =>
    let s := shadowSteps k n s
    let g := eng s (2 * k)
    let src := if k.val < 2 then 246 else 243
    let run := (pair s k).run
    let ev : Report := .event (pairRing s) 0x2081 (pairTarget k) (k + 16 * lane + 256 * bit + putF g.retired 32 32) g.pc.toNat s.dt false
    let s := engRecord 2 k 0 lane bit g.pc.toNat g.retired s [ev]
    let s := setPair k (fun p => { p with halted := true, held := [], trail := [], phase := .none, run := none, mmPc := g.pc.toNat, mmLane := lane, mmBit := bit }) s
    let s := raise src (pairTarget k) (stillEng (2 * k + 1) (stillEng (2 * k) (stopPair k s)))
    match run with
    | some h => endHandover k h 0x12 src s
    | none => s) s)

/-! ### The package store (R380, R381) -/

/-- Bytes of a slot, and of the store. -/
def slotMax : Nat := 256 * 1024
def storeMax : Nat := 6 * 1024 * 1024

/-- The committed set names a slot: an enabled entry of table 0x0F does. -/
def slotNamed (s : State) (k : Nat) : Bool :=
  let m := (committedSet s).tables[14]
  (committedSet s).valid && (List.range 256).any fun n => memLe m (32 + 16 * n) 1 % 2 == 1 && memLe m (34 + 16 * n) 2 == k

/-- Bytes of the store in use. -/
def storeUsed (s : State) : Nat := (s.pkgs.toList.map (·.len)).foldl (· + ·) 0

/-- What PKG_WRITE asks of its descriptor. -/
def pkgWriteForm (s : State) (d : Desc) : OpForm :=
  let k := d.u 24 16
  let off := d.u 28 32
  { idem := true, used := pm 16 64 + pm 24 16 + pm 28 32, plenOk := fun p => 4 ≤ p && p % 4 == 0
    form := off % 4 == 0
    range := d.device && k < 256 && off + d.plen ≤ slotMax && (hostAddressed s d || inSram (d.u 16 64) d.plen)
    state := !slotNamed s k
    res := storeUsed s - slotLen s k + max (slotLen s k) (off + d.plen) ≤ storeMax }

/-- PKG_WRITE: R380, R381. -/
def execPkgWrite (o : Origin) (b : BlockStep) (s : State) : Out :=
  runBlock o 0x2000 b
    pkgWriteForm
    (fun d uid bs s =>
      let off := d.u 28 32
      finish uid 0 d.plen { s with pkgs := updN s.pkgs (d.u 24 16) fun x => { bytes := memWriteL x.bytes off bs, len := max x.len (off + d.plen) } }) s

/-- What PKG_ERASE asks of its descriptor. -/
def pkgEraseForm (s : State) (d : Desc) : OpForm :=
  { idem := true, used := pm 24 16, range := d.device && d.u 24 16 < 256, state := !slotNamed s (d.u 24 16) }

/-- PKG_ERASE: R381. -/
def execPkgErase (o : Origin) (s : State) : Out :=
  runOut o 0x2001
    pkgEraseForm
    (fun d uid s => finish uid 0 0 { s with pkgs := updN s.pkgs (d.u 24 16) fun _ => {} }) s

/-- What PKG_QUERY asks of its descriptor. -/
def pkgQueryForm (_ : State) (d : Desc) : OpForm :=
  { idem := true, used := pm 24 16, range := d.device && d.u 24 16 < 256 }

/-- PKG_QUERY: R381. -/
def execPkgQuery (o : Origin) (s : State) : Out :=
  runOut o 0x2002 pkgQueryForm
    (fun d uid s => finish uid 0 (slotLen s (d.u 24 16) + 2 ^ 32 * pkgU s (d.u 24 16) 36 4) s) s

end Sys2Proof.Machine
end

