-- ==== Sys2Proof/Machine/Place.lean ====
section
/-! DEFINITION. The placement service (R18, R19): programs on engines with check 10 (R364, R379, R380), PWM phases (R99), filter
pairs; the whole consistency check (R68). -/

namespace Sys2Proof.Machine

/-! ### Packages (R364, R380, R520) -/

/-- A target that a package may list (R361): its slice belongs to a family that a program may send to. -/
def packageTarget (t : Nat) : Bool :=
  t < 0x1000 && targetListed t && (fld t 8 4 ≤ 8 || (fld t 8 4 == 0xE && fld t 0 8 < 16) || t == 0x0F00)

/-- A package's header and entries keep R364. -/
def packageOk (s : State) (k : Nat) : Bool :=
  let u := pkgU s k
  let nh := pkgHandlers s k
  let code := u 8 4
  let h := fun i o n => u (64 + 12 * i + o) n
  pkgEnd s k ≤ slotLen s k && u 0 4 == 0x425A4C4D && u 4 2 == 1 && u 6 1 == 1 && u 7 1 ≤ 2 && code % 4 == 0 && within code 4 131072 &&
    u 20 4 % 8 == 0 && 256 ≤ u 20 4 && within (u 24 4) 100 3200000 && within nh 1 64 && pkgTargets s k ≤ 128 && u 40 24 == 0 &&
    u 36 4 == crc32 (memBytes (slotMem s k) 64 (pkgEnd s k - 64)) &&
    ((List.range nh).all fun i => h i 8 1 ≤ 7 && h i 9 3 == 0 && h i 4 4 % 4 == 0 && h i 4 4 < code) &&
    (List.range nh).any fun i => h i 0 2 == 0
/-- Targets that a package lists. -/
def packageTargets (s : State) (k : Nat) : List Nat := (List.range (pkgTargets s k)).map fun i => pkgU s k (64 + 12 * pkgHandlers s k + 2 * i) 2

/-! ### Table 0x0F -/

def progIn (ts : Vector Mem 16) (p o n : Nat) : Nat := tu ts 15 (32 + 16 * p + o) n
def progOn (ts : Vector Mem 16) (p : Nat) : Bool := bitN (progIn ts p 0 1) 0
/-- MODE of a pair in a set (R380). -/
def modeIn (ts : Vector Mem 16) (k : Nat) : Bool := tu ts 15 (16 + k) 1 == 1

/-- A program entry that fails check 10 by itself (R13, R380). -/
def badProgram (s : State) (ts : Vector Mem 16) (p : Nat) : Bool :=
  let slot := progIn ts p 2 2
  fld (progIn ts p 0 1) 1 7 != 0 || progIn ts p 8 8 != 0 ||
    (progOn ts p &&
      (!(within (progIn ts p 1 1) 2 7 || progIn ts p 1 1 == 0xFF) || 255 < slot || slotLen s slot == 0 || !packageOk s slot || pkgU s slot 36 4 != progIn ts p 4 4 ||
       (packageTargets s slot).any fun t => !packageTarget t))
def badProgBlock (ts : Vector Mem 16) : Bool :=
  tu ts 15 16 2 != 0 || ((List.range 8).any fun k => 1 < tu ts 15 (16 + k) 1) || !within (tu ts 15 24 1) 2 16 || !ringOk (tu ts 15 25 1) || tu ts 15 26 6 != 0

/-- The placed program that a table entry describes, on engine `e`. -/
def progFrom (s : State) (ts : Vector Mem 16) (p e : Nat) : Prog :=
  let k := progIn ts p 2 2
  let u := pkgU s k
  let h := fun i o n => u (64 + 12 * i + o) n
  let size := u 12 4 + u 16 4 + u 20 4
  { num := p, engine := e, split := modeIn ts (e / 2), slot := k, handlers := (List.range (pkgHandlers s k)).map fun i => (h i 0 2, h i 2 2, h i 4 4, h i 8 1)
    targets := packageTargets s k, codeAddr := slotCode s k, codeSize := u 8 4, memSize := size
    stackTop := size, stackLim := u 12 4 + u 16 4, maxCycles := u 24 4, load := u 28 4, redund := u 7 1, crc := progIn ts p 4 4 }

/-! ### Placement of programs (R379) -/

/-- Units: the main engine of a redundant pair, each engine of a split one, of PAIR_2 to PAIR_7. -/
def units (ts : Vector Mem 16) : List Nat :=
  ((List.range 6).map fun i => let k := i + 2; if modeIn ts k then [2 * k, 2 * k + 1] else [2 * k]).flatten
/-- Units on which a program may run. -/
def eligible (s : State) (ts : Vector Mem 16) (p : Nat) : List Nat :=
  let red := pkgU s (progIn ts p 2 2) 7 1
  let pin := progIn ts p 1 1
  (units ts).filter fun e => (red == 0 || (red == 2) == modeIn ts (e / 2)) && (pin == 0xFF || e / 2 == pin)
/-- Order of placing: REDUND 1, 2, 0; LOAD descending; number. -/
def placeOrder (s : State) (ts : Vector Mem 16) : List Nat :=
  let key := fun p => let k := progIn ts p 2 2; [[2, 0, 1].getD (pkgU s k 7 1) 3, 2 ^ 32 - pkgU s k 28 4, p]
  sortBy key ((List.range 256).filter (progOn ts))
/-- Load of an engine so far. -/
def loadOn (l : List Prog) (e : Nat) : Nat := ((l.filter fun p => p.engine == e).map (·.load)).foldl (· + ·) 0
/-- The unit with the smallest sum among those that still take the program. -/
def bestUnit (l : List Prog) : List Nat → Option Nat
  | [] => none
  | e :: es => match bestUnit l es with
    | some f => if loadOn l f < loadOn l e then some f else some e
    | none => some e
/-- Programs placed one by one; the first without a place (R379). -/
def placeProgs (s : State) (ts : Vector Mem 16) : List Nat → List Prog → Except Nat (List Prog)
  | [], l => .ok l
  | p :: ps, l =>
    let fits := (eligible s ts p).filter fun e => fitsEngine ((l.filter fun q => q.engine == e) ++ [progFrom s ts p e])
    match bestUnit l fits with
    | none => .error p
    | some e => placeProgs s ts ps (l ++ [progFrom s ts p e])

/-- Check 10 (R13, R379, R380). -/
def check10 (s : State) (ts : Vector Mem 16) : Option CheckFail :=
  match firstBad 10 0 [(15, badOf 256 (badProgram s ts) ++ badWhole (badProgBlock ts))] with
  | some f => some f
  | none => match placeProgs s ts (placeOrder s ts) [] with
    | .error p => some { check := 10, table := 15, entry := p }
    | .ok _ => none

/-! ### The whole check (R68) -/

/-- The checks in order; the first that fails. -/
def checkSet (s : State) (ts : Vector Mem 16) : Option CheckFail :=
  check1 ts <|> check2 ts <|> check3 ts <|> check4 ts <|> check5 ts <|> check6 ts <|> check7 ts <|> check8 ts <|> check9 ts <|> check10 s ts

/-! ### Phases (R99), and the placement as a whole -/

/-- Channels of a bank that are placed: enabled, not members, with a frequency. -/
def placedIn (ts : Vector Mem 16) (n : Nat) : Bool := lchJudged ts n && tu ts 2 (18 + 32 * n) 2 != 0
/-- PHASE of a channel: its place among those of its bank and frequency, by I_NOM descending, then number. -/
def phaseOf (ts : Vector Mem 16) (n : Nat) : Nat :=
  if !placedIn ts n then 0
  else
    let inom := fun m => tu ts 2 (20 + 32 * m) 2
    let grp := ((List.range 8).map (· + 8 * (n / 8))).filter fun m => placedIn ts m && tu ts 2 (18 + 32 * m) 2 == tu ts 2 (18 + 32 * n) 2
    let place := (grp.filter fun m => inom n < inom m || (inom m == inom n && m < n)).length
    (4096 * place * 2 + grp.length) / (2 * grp.length) % 4096

/-- What the placement service decides for a set that has passed its checks (R18). -/
def placementOf (s : State) (ts : Vector Mem 16) : Placement :=
  { phase := Vector.ofFn fun n => phaseOf ts n.val, placed := Vector.ofFn fun n => placedIn ts n.val
    pairs := Vector.ofFn fun c => match pairsOf ts c.val with | .ok l => l | .error _ => []
    progs := match placeProgs s ts (placeOrder s ts) [] with | .ok l => l | .error _ => [] }

/-- A table without the bytes beyond its length, which a commit does not store (R65). -/
def trimTable (ts : Vector Mem 16) : Vector Mem 16 := mapFin ts fun i m => m.filter fun c => c.1 < tu ts (i + 1) 4 4

end Sys2Proof.Machine
end

