-- ==== Sys2Proof/Machine/CommitTick.lean ====
section
/-! DEFINITION. A commit from its check to its mark in MRAM: what the new set changes in every family (R68 to R77, R122,
R203, R365, R367).
Readings of the spec: log entry 12, DEDUCED. -/

namespace Sys2Proof.Machine

/-! ### Check, placement, delivery -/

/-- RESULT of a failed check (R70). -/
def failResult (f : CheckFail) : Nat := f.check + putF f.table 8 8 + putF f.entry 16 16 + putF f.detail 32 32

/-- The run in progress. -/
def setRun (f : CommitRun → CommitRun) (s : State) : State := modStg (fun g => { g with run := g.run.map f }) s

/-- The commit or check in progress, in a phase. -/
def runIn (s : State) (ph : CommitPhase) : Option CommitRun := s.stg.run.filter fun c => c.phase == ph

/-- CHECK_AND_PLACEMENT_COMPLETE: R68 to R70, R74. -/
def execCheckAndPlacementComplete (s : State) : Out :=
  .next (whenOn (fun s => match runIn s .checking with
    | none => s
    | some c =>
      if s.dt < c.t0 + us 800 then s
      else match checkSet s c.newSet with
        | some f => commitEnds c 0x0E (failResult f) f s
        | none =>
          if c.checkOnly then commitEnds c 0 0 noFail s
          else
            let ts := trimTable c.newSet
            setRun (fun c => { c with phase := .writing, stepAt := s.dt, newSet := ts, place := placementOf s ts }) s) s)

/-- The MRAM copy that is not the committed one. -/
def inactive (g : StageSt) : Fin 2 := if g.marked == 0 then 1 else 0

/-- NEW_SET_HELD: R74, R76. -/
def execNewSetHeld (s : State) : Out :=
  .next (whenOn (fun s => match runIn s .writing with
    | none => s
    | some c =>
      if s.dt < c.stepAt + us 300 then s
      else match s.linkDown with
        | d :: _ => commitEnds c 0x12 (linkSource d) noFail s
        | [] =>
          let copy : StoredSet := { tables := c.newSet, seq := w32 (s.stg.seq + 1), valid := true }
          setRun (fun c => { c with phase := .held, stepAt := s.dt }) (modStg (fun g => { g with copies := g.copies.set (inactive g) copy }) s)) s)

/-! ### The commit tick: load channels -/

/-- The larger rise of each pole. -/
def takeRises (r : Nat × Nat) (c : Lch) : Lch := { c with theta1 := max c.theta1 r.1, theta2 := max c.theta2 r.2 }

/-- R122: rises of gangs dissolved and formed, each from its leader and number of members. -/
def gangHeat (old new : List (Nat × Nat)) (s : State) : State :=
  let rises := fun (s : State) (m : Nat) => ((lch s m).theta1, (lch s m).theta2)
  let s := (old.filter fun g => !new.contains g).foldl (fun s g => (List.range g.2).foldl (fun s i => setLch (g.1 + i) (takeRises (rises s g.1)) s) s) s
  (new.filter fun g => !old.contains g).foldl (fun s g => (List.range g.2).foldl (fun s i => setLch g.1 (takeRises (rises s (g.1 + i))) s) s) s

/-- A channel's operation has lost its target, or PWM its frequency (R75, R95). -/
def lchRemoved (s : State) (n : Nat) : Bool := !lchEn s n || isMember s n || ((lch s n).mode == 2 && lchFreq s n == 0)

/-- A channel without a frequency has no PWM mode (R95): not the one that HOLD keeps either, and an ON that waits for a
period start takes effect. -/
def lchNoPwm (n : Nat) (s : State) : State :=
  if lchFreq s n != 0 || isMember s n then s
  else
    let s := setLch n (fun c => { c with holdMode := if c.holdMode == 2 then 0 else c.holdMode }) s
    let c := lch s n
    let (m, d) := lchWant s n
    if c.run == 2 && m == 1 then
      tookState n c.waits m d false (newPeriod n (setLch n (fun c => { c with run := m, base := d, skip := false, waits := [] }) s))
    else s

/-- A gang that forms takes over what holds or latches one of its members off (R94, R134). -/
def gangProtection (g : Nat × Nat) (s : State) : State :=
  let ms := (List.range g.2).map fun i => lch s (g.1 + i)
  setLch g.1 (fun c => { c with held := ms.any (·.held), latched := ms.any (·.latched), cleared := c.cleared && !(ms.any fun m => m.held && !m.cleared)
                                count := (ms.map (·.count)).foldl max 0, lastProt := (ms.map (·.lastProt)).foldl max 0
                                lastSc := ms.foldl (fun t m => match t, m.lastSc with | some a, some b => some (max a b) | some a, none => some a | none, y => y) none
                                dieHot := (ms.findSome? (·.dieHot)) }) s

/-- Load channels at the commit tick. -/
def lchCommit (first : Bool) (oldGangs : List (Nat × Nat)) (new : Vector Mem 16) (s : State) : State :=
  let s := modLd (fun x => { x with chs := mapFin x.chs fun n c => if lchJudged new n then { c with wire := wireIn new n } else c }) s
  let s := gangHeat oldGangs (gangs s) s
  let s := ((gangs s).filter fun g => !oldGangs.contains g).foldl (fun s g => gangProtection g s) s
  (List.range 64).foldl (fun s n =>
    let s := if lchRemoved s n then endWaits (lch s n).waits 0x10 none (endTimed n 0x10 none (setLch n (fun c => { c with mode := 0, waits := [] }) s)) else s
    let s := if first then lchUnsafe n s else s
    let s := if 1 < (membersOf s n).length then s else setLch n (fun c => { c with imbSince := none, imbRaised := false }) s
    if isMember s n then s else syncGang n (applyLch n (lchNoPwm n s))) s

/-! ### Half-bridges, valves, access -/

/-- A bridge's entry is in the new set with the legs of its operation. -/
def brKept (s : State) (c : BrCfg) : Bool :=
  (match bridgeAt s c.legA with | some d => d.legB == c.legB | none => false) && hbEn s c.legA && hbEn s c.legB

/-- Half-bridges at the commit tick. -/
def hbCommit (first : Bool) (s : State) : State :=
  (List.range 16).foldl (fun s h =>
    let s := match (hb s h).op with | some o => if brKept s o.cfg then s else endNow h 0x10 0 0xFFFF s | none => s
    let s := if first then hbUnsafe h s else s
    if (actingCfg s h).isSome then s
    else
      let gone := !hbSingle s h || ((hb s h).mode == 2 && hbU s h 4 2 == 0)
      applyHb h (if gone then endSet h 0x10 (setHb h (fun b => { b with mode := 0 }) s) else s)) s

/-- A valve that the new set disables (R75). -/
def vlvRemove (v : Nat) (s : State) : State :=
  let s := dropPending v 0x10 0xFFFF (setVlv v (fun x => { x with perNext := none }) s)
  match (vlv s v).state with
  | 0 => s
  | 1 => dropWaiting v 0x10 0xFFFF s
  | 6 => s
  | _ => releaseEarly v (relSlow s v) 0x10 0xFFFF s

/-- Valves and boost converter at the commit tick (R75, R182). -/
def vsCommit (first : Bool) (s : State) : State :=
  let s := (List.range 24).foldl (fun s v =>
    let s := if first then vlvUnsafe v s else s
    if !vlvEn s v then vlvRemove v s
    else if vlvU s v 16 2 == 0 then setVlv v (fun x => { x with perNext := none }) s else s) s
  let s := modVs (fun x => { x with boostAsk := false }) s
  if !bitN (boostU s 3 1) 0 then boostTo .off s
  else if s.vs.boost == .off && !safeHeld s .boost then
    (if supplyHolds s .base then modVs (fun x => { x with boostAsk := true }) s else boostTo .precharge s)
  else s

/-- Access at the commit tick: operations whose coil, or whose release, is not configured any more (R75). -/
def accCommit (s : State) : State :=
  let s := match s.acc.op with
    | some o => if o.coils.any (fun n => !coilEn s n) || (o.kind == .release && !relEn s) then finishFree o.uid 0x10 (airEnd s) else s
    | none => s
  if relEn s then s else endRelease none s

/-! ### Programs (R363, R365, R367, R379) -/

/-- The former entry of a program that the new placement keeps: number, slot and package are the same, and it has not
stopped. -/
def keptIn (old : List Prog) (p : Prog) : Option Prog := old.find? fun q => q.num == p.num && q.slot == p.slot && q.crc == p.crc && !q.stopped

/-- A pair goes to another mode by a hand-over (R367). -/
def handsOver (s : State) (ts : Vector Mem 16) (k : Nat) : Bool := 2 ≤ k && (pair s k).split != modeIn ts k

/-- A program's part of local RAM now. -/
def progData (s : State) (q : Prog) : Mem := memCopy [] 0 (eng s q.engine).ram (progOff q) (progSpan q)

/-- A kept program's data stay where they are: on its engine; at a split on either engine of its pair, whose memories are
equal; at a merge on its old engine until the hand-over moves them. -/
def staysOn (s : State) (ts : Vector Mem 16) (q p : Prog) : Bool :=
  q.engine == p.engine || (q.engine / 2 == p.engine / 2 && (!(pair s (p.engine / 2)).split || handsOver s ts (p.engine / 2)))

/-- A program as it stands from the commit tick, before its place is chosen. -/
def carry (s : State) (ts : Vector Mem 16) (old : List Prog) (p : Prog) : Prog :=
  match keptIn old p with
  | some q =>
    if staysOn s ts q p then
      let late := handsOver s ts (p.engine / 2) && (pair s (p.engine / 2)).split
      progAt (if late then { p with engine := q.engine } else p) (progOff q)
    else { p with image := some (progData s q) }
  | none => { p with image := some (initImage s p) }

/-- Places on engine `e`. Where a new layout moves a program that stood, its data go with it. -/
def layEngine (s : State) (l : List Prog) (e : Nat) : List Prog :=
  let mine := l.filter fun p => p.engine == e
  let stay := mine.filter (·.image.isNone)
  (placeData stay (mine.filter (·.image.isSome))).map fun p =>
    match stay.find? fun q => q.num == p.num with
    | some q => if q.dataBase == p.dataBase then p else { p with image := some (progData s q) }
    | none => p

/-- The programs of the new set with their places. -/
def newProgs (s : State) (ts : Vector Mem 16) (l : List Prog) : List Prog :=
  let c := l.map (carry s ts s.stg.place.progs)
  ((List.range 16).map (layEngine s c)).flatten

/-- The engine whose queue serves engine `e` now. -/
def servedBy (s : State) (e : Nat) : Nat := if isShadow s e then e - 1 else e

/-- Records that wait follow their program to its engine (R375). -/
def moveRecords (s : State) : State :=
  let home := fun (e : Nat) (r : InRec) => match r.prog.bind fun n => s.stg.place.progs.find? fun p => p.num == n with
    | some p => servedBy s p.engine
    | none => e
  let all := ((List.range 16).map fun e => if isShadow s e then [] else (eng s e).inbox.map fun r => (home e r, e, r)).flatten
  (List.range 16).foldl (fun s e =>
    setEng e (fun g => { g with inbox := (all.filter fun x => x.1 == e && x.2.1 == e).map (·.2.2) ++ (all.filter fun x => x.1 == e && x.2.1 != e).map (·.2.2) }) s) s

/-- Data of the programs that a commit places anew are put in place, on pairs without a hand-over. -/
def fillPlaces (ts : Vector Mem 16) (s : State) : State :=
  let now := fun p : Prog => p.image.isSome && !handsOver s ts (p.engine / 2)
  let s' := (List.range 16).foldl (fun t e =>
    setEng e (fun g => { g with ram := ramWith (s.stg.place.progs.filter fun p => now p && p.engine == e) (fun p => (p.image.getD [], 0)) g.ram }) t) s
  mapProgs (fun p => if now p then { p with image := none } else p) s'

/-- Pairs take the modes of the new set (R367). -/
def modeCommit (ts : Vector Mem 16) (s : State) : State :=
  (List.range 8).foldl (fun s k =>
    let to' := 2 ≤ k && modeIn ts k
    if (pair s k).split == to' then mirrorShadow (2 * k) s
    else
      mirrorShadow (2 * k) (startHandover k none to' s)) s

/-- Programs at the commit tick. -/
def progCommit (ts : Vector Mem 16) (place : Placement) (s : State) : State :=
  let old := s.stg.place.progs
  let new := newProgs s ts place.progs
  let kept := fun q : Prog => new.any fun p => (keptIn old p) == some q
  let moved := fun n : Nat => new.any fun p => p.num == n && p.image.isSome
  let s := endHandlers moved (stopProgs (fun q => !kept q) s)
  let new := new.map fun p => if pairHeld s (p.engine / 2) then { p with stopped := true } else p
  let s := fillPlaces ts (modStg (fun g => { g with place := { place with progs := new } }) s)
  modeCommit ts (retarget (moveRecords s))

/-! ### The tick as a whole -/

/-- The new set is applied (R16, R74, R75). -/
def applySet (c : CommitRun) (s : State) : State :=
  let first := !s.stg.inForce
  let old := s.stg.tables
  let oldGangs := gangs s
  let oldPairs := s.stg.place.pairs
  let was := level s
  let s := modStg (fun g => { g with tables := c.newSet, inForce := true, place := { c.place with progs := g.place.progs } }) s
  let s := if level s == was then s else hwPut 0x0013 (leBytes 1 was ++ leBytes 1 (level s)) [] s (some c.session)
  let s := modLd (fun x => { x with grid := c.tick }) s
  let s := vsCommit first (hbCommit first (lchCommit first oldGangs c.newSet s))
  let s := fsCommit first old[7] c.newSet[7] c.newSet[15] (swCommit first old[6] c.newSet[6] s)
  progCommit c.newSet c.place (accCommit (nsCommit first c.tick old c.newSet oldPairs s))

/-- COMMIT_TICK: R74, R75. The tick is the requested one, else the earliest possible. -/
def execCommitTick (s : State) : Out :=
  .next (whenOn (fun s => match runIn s .held with
    | none => s
    | some c =>
      let earliest := c.stepAt + us 20
      if s.dt < max c.reqTick earliest then s
      else
        let c := { c with tick := if earliest ≤ c.reqTick then c.reqTick else s.dt, phase := .applied, stepAt := s.dt }
        applySet c (setRun (fun _ => c) s)) s)

/-- MRAM_MARK_COMMITTED: R74, R367. -/
def execMramMarkCommitted (s : State) : Out :=
  .next (whenOn (fun s => match runIn s .applied with
    | none => s
    | some c =>
      if s.dt < c.stepAt + us 20 then s
      else
        let s := modStg (fun g => { g with marked := inactive g, seq := w32 (g.seq + 1) }) s
        commitMaybeDone (setRun (fun c => { c with phase := .marked }) s)) s)

end Sys2Proof.Machine
end

