-- ==== Sys2Proof/Machine/Flags.lean ====
section
/-! DEFINITION. Results and flags of the arithmetic, logic, shift and comparison instructions (R352 to R354). -/

namespace Sys2Proof.Machine

/-- What an arithmetic instruction gives: the value for D, the carry where it writes C, and whether V or DZ arises (R354). -/
structure Alu where
  val : Word
  c : Option Bool := none
  v : Bool := false
  dz : Bool := false
deriving DecidableEq, Repr

/-- A signed value outside 32 bits. -/
def outOfRange (i : Int) : Bool := i < -(2 ^ 31) || 2 ^ 31 ≤ i

/-- S + T + carry in (R354). -/
def aluAdd (a b : Word) (cin : Bool) : Alu :=
  { val := a + b + BitVec.ofNat 32 (b2n cin), c := some (decide (2 ^ 32 ≤ a.toNat + b.toNat + b2n cin)), v := outOfRange (a.toInt + b.toInt + (b2n cin : Nat)) }

/-- S - T - borrow in (R354): C = 1 when a borrow occurred. -/
def aluSub (a b : Word) (bin : Bool) : Alu :=
  { val := a - b - BitVec.ofNat 32 (b2n bin), c := some (decide (a.toNat < b.toNat + b2n bin)), v := outOfRange (a.toInt - b.toInt - (b2n bin : Nat)) }

/-- A result that touches no flag. -/
def aluPlain (w : Word) : Alu := { val := w }

/-- NEG and ABS (R354): V at the most negative number. -/
def aluNeg (a : Word) : Alu := { val := -a, v := a == 0x80000000 }
def aluAbs (a : Word) : Alu := { val := if a.msb then -a else a, v := a == 0x80000000 }

/-- Signed and unsigned minimum and maximum. -/
def wMin (a b : Word) : Word := if a.toInt ≤ b.toInt then a else b
def wMax (a b : Word) : Word := if a.toInt ≤ b.toInt then b else a
def wMinU (a b : Word) : Word := if a.toNat ≤ b.toNat then a else b
def wMaxU (a b : Word) : Word := if a.toNat ≤ b.toNat then b else a

/-- Leading zeros of the low `n` bits. -/
def leadZeros (x : Nat) : Nat → Nat
  | 0 => 0
  | n + 1 => if bitN x n then 0 else 1 + leadZeros x n
/-- Set bits among the low `n`. -/
def popCount (x : Nat) : Nat → Nat
  | 0 => 0
  | n + 1 => b2n (bitN x n) + popCount x n
def wClz (a : Word) : Word := BitVec.ofNat 32 (leadZeros a.toNat 32)
def wPopc (a : Word) : Word := BitVec.ofNat 32 (popCount a.toNat 32)

/-- SXB and SXH. -/
def wSxb (a : Word) : Word := (a.truncate 8).signExtend 32
def wSxh (a : Word) : Word := (a.truncate 16).signExtend 32

/-- Shifts by an amount of 0 to 63 and rotations by it modulo 32 (R354). -/
def wShift (k : ShiftKind) (a : Word) (n : Nat) : Word :=
  match k with
  | .shl => a <<< n
  | .shr => a >>> n
  | .sar => a.sshiftRight n
  | .rol => a.rotateLeft (n % 32)
  | .ror => a.rotateRight (n % 32)
/-- The shift amount in T: its low 6 bits. -/
def shiftAmount (t : Word) : Nat := t.toNat % 64

/-- Products (R352, R354). -/
def aluMul (a b : Word) : Alu := { val := a * b, v := outOfRange (a.toInt * b.toInt) }
def wMulh (a b : Word) : Word := BitVec.ofInt 32 (a.toInt * b.toInt / 2 ^ 32)
def wMulhu (a b : Word) : Word := BitVec.ofNat 32 (a.toNat * b.toNat / 2 ^ 32)

/-- The most negative number divided by -1. -/
def divOver (a b : Word) : Bool := a == 0x80000000 && b == 0xFFFFFFFF
/-- Quotients and remainders (R354). -/
def aluDiv (a b : Word) : Alu :=
  if b == 0 then { val := 0xFFFFFFFF, dz := true }
  else if divOver a b then { val := 0x80000000, v := true }
  else { val := BitVec.ofInt 32 (a.toInt.tdiv b.toInt) }
def aluDivU (a b : Word) : Alu := if b == 0 then { val := 0xFFFFFFFF, dz := true } else { val := a / b }
def aluRem (a b : Word) : Alu :=
  if b == 0 then { val := a, dz := true }
  else if divOver a b then { val := 0, v := true }
  else { val := BitVec.ofInt 32 (a.toInt.tmod b.toInt) }
def aluRemU (a b : Word) : Alu := if b == 0 then { val := a, dz := true } else { val := a % b }

/-- Conditions of R353. -/
def condHolds (k : Cond) (a b : Word) : Bool :=
  match k with
  | .eq => a == b
  | .ne => a != b
  | .lt => decide (a.toInt < b.toInt)
  | .ge => decide (b.toInt ≤ a.toInt)
  | .ltu => decide (a.toNat < b.toNat)
  | .geu => decide (b.toNat ≤ a.toNat)
  | .tst => a &&& b != 0
  | .ntst => a &&& b == 0

/-- 1 or 0 as a word. -/
def wBool (b : Bool) : Word := if b then 1 else 0

end Sys2Proof.Machine
end

