-- ==== Sys2Proof/Machine/EngAlu.lean ====
section
/-! DEFINITION. The register instructions of an engine: ALU, immediates, shifts, MULDIV, comparisons (R351 to R354). -/

namespace Sys2Proof.Machine

/-- An arithmetic result reaches D and SW (R354): the sticky bits, the carry, or the trap that OV_TRAP or DZ_TRAP asks for;
D is then not written. -/
def putAlu (e : Nat) (d : RegCode) (r : Alu) : EngM After := do
  let g ← getEng e
  if r.v && swBit g swOvTrap then fun c => .error (.trap 8 0 none true false c.cost)
  else if r.dz && swBit g swDzTrap then fun c => .error (.trap 7 0 none false true c.cost)
  else do
    putReg e d r.val
    modEng e fun g => (match r.c with | some c => setSw swC c (stick r.v r.dz g) | none => stick r.v r.dz g)
    pure .next

/-- A repeatable single-word instruction that uses some registers (R360). -/
def regKind (w : Word) (uses : List RegCode) : Kind := { word := w, repOk := true, uses := uses }

/-- What each register instruction is to the fetch (R349). -/
def binKind (fn : Nat) (d r t : RegCode) : Kind := regKind (wordR 0x00 fn d r t) [r, t]
def mulKind (fn : Nat) (d r t : RegCode) : Kind := regKind (wordR 0x08 fn d r t) [r, t]
def ldiKind (d : RegCode) (imm : BitVec 18) : Kind := regKind (wordI 0x05 d 0 imm) []
def ldlKind (d : RegCode) (ext : Word) : Kind := { word := wordI 0x06 d 0 0, ext := some ext }
def cmpKind (d r t : RegCode) (c : Cond) : Kind := regKind (wordR 0x09 (condCode c) d r t) [r, t]
def cmpiKind (d r : RegCode) (c : Cond) (imm : BitVec 15) : Kind := regKind (wordC d r c imm) [r]

/-- ALU function `fn`: D = f of SW's carry and the registers S and T (R352). -/
def binOp (fn : Nat) (x : Issue) (d r t : RegCode) (f : Bool → Word → Word → Alu) (s : State) : Out :=
  instrOut x (binKind fn d r t) (do let g ← getEng x.engine; putAlu x.engine d (f (swBit g swC) (rdReg g r) (rdReg g t))) s
/-- D = f of the register S, by the word given. -/
def unOp (w : Word) (x : Issue) (d r : RegCode) (f : Word → Alu) (s : State) : Out :=
  instrOut x (regKind w [r]) (do let g ← getEng x.engine; putAlu x.engine d (f (rdReg g r))) s
/-- A unary function of ALU: T is 0 (R352). -/
def aluWord (fn : Nat) (d r : RegCode) : Word := wordR 0x00 fn d r 0
/-- MULDIV function `fn`, which takes `n` cycles (R352). -/
def mulOp (fn n : Nat) (x : Issue) (d r t : RegCode) (f : Word → Word → Alu) (s : State) : Out :=
  instrOut x (mulKind fn d r t) (do
    addCost fun c => { c with extra := n - 1, muldiv := n - 1 }
    let g ← getEng x.engine
    putAlu x.engine d (f (rdReg g r) (rdReg g t))) s

/-- ADD: R352, R354. -/
def execAdd (x : Issue) (d r t : RegCode) (s : State) : Out := binOp 0x00 x d r t (fun _ a b => aluAdd a b false) s

/-- SUB: R352, R354. -/
def execSub (x : Issue) (d r t : RegCode) (s : State) : Out := binOp 0x01 x d r t (fun _ a b => aluSub a b false) s

/-- ADC: R352, R354. -/
def execAdc (x : Issue) (d r t : RegCode) (s : State) : Out := binOp 0x02 x d r t (fun c a b => aluAdd a b c) s

/-- SBC: R352, R354. -/
def execSbc (x : Issue) (d r t : RegCode) (s : State) : Out := binOp 0x03 x d r t (fun c a b => aluSub a b c) s

/-- AND: R352. -/
def execAnd (x : Issue) (d r t : RegCode) (s : State) : Out := binOp 0x04 x d r t (fun _ a b => aluPlain (a &&& b)) s

/-- OR: R352. -/
def execOr (x : Issue) (d r t : RegCode) (s : State) : Out := binOp 0x05 x d r t (fun _ a b => aluPlain (a ||| b)) s

/-- XOR: R352. -/
def execXor (x : Issue) (d r t : RegCode) (s : State) : Out := binOp 0x06 x d r t (fun _ a b => aluPlain (a ^^^ b)) s

/-- NOT: R352. -/
def execNot (x : Issue) (d r : RegCode) (s : State) : Out := unOp (aluWord 0x07 d r) x d r (fun a => aluPlain (~~~a)) s

/-- NEG: R352, R354. -/
def execNeg (x : Issue) (d r : RegCode) (s : State) : Out := unOp (aluWord 0x08 d r) x d r (aluNeg) s

/-- ABS: R352, R354. -/
def execAbs (x : Issue) (d r : RegCode) (s : State) : Out := unOp (aluWord 0x09 d r) x d r (aluAbs) s

/-- MOV: R352. -/
def execMov (x : Issue) (d r : RegCode) (s : State) : Out := unOp (aluWord 0x0A d r) x d r (aluPlain) s

/-- MIN: R352. -/
def execMin (x : Issue) (d r t : RegCode) (s : State) : Out := binOp 0x0B x d r t (fun _ a b => aluPlain (wMin a b)) s

/-- MAX: R352. -/
def execMax (x : Issue) (d r t : RegCode) (s : State) : Out := binOp 0x0C x d r t (fun _ a b => aluPlain (wMax a b)) s

/-- MINU: R352. -/
def execMinu (x : Issue) (d r t : RegCode) (s : State) : Out := binOp 0x0D x d r t (fun _ a b => aluPlain (wMinU a b)) s

/-- MAXU: R352. -/
def execMaxu (x : Issue) (d r t : RegCode) (s : State) : Out := binOp 0x0E x d r t (fun _ a b => aluPlain (wMaxU a b)) s

/-- CLZ: R352, R354. -/
def execClz (x : Issue) (d r : RegCode) (s : State) : Out := unOp (aluWord 0x0F d r) x d r (fun a => aluPlain (wClz a)) s

/-- POPC: R352. -/
def execPopc (x : Issue) (d r : RegCode) (s : State) : Out := unOp (aluWord 0x10 d r) x d r (fun a => aluPlain (wPopc a)) s

/-- SXB: R352. -/
def execSxb (x : Issue) (d r : RegCode) (s : State) : Out := unOp (aluWord 0x11 d r) x d r (fun a => aluPlain (wSxb a)) s

/-- SXH: R352. -/
def execSxh (x : Issue) (d r : RegCode) (s : State) : Out := unOp (aluWord 0x12 d r) x d r (fun a => aluPlain (wSxh a)) s

/-- SHL: R352, R354. -/
def execShl (x : Issue) (d r t : RegCode) (s : State) : Out := binOp 0x13 x d r t (fun _ a b => aluPlain (wShift .shl a (shiftAmount b))) s

/-- SHR: R352, R354. -/
def execShr (x : Issue) (d r t : RegCode) (s : State) : Out := binOp 0x14 x d r t (fun _ a b => aluPlain (wShift .shr a (shiftAmount b))) s

/-- SAR: R352, R354. -/
def execSar (x : Issue) (d r t : RegCode) (s : State) : Out := binOp 0x15 x d r t (fun _ a b => aluPlain (wShift .sar a (shiftAmount b))) s

/-- ROL: R352, R354. -/
def execRol (x : Issue) (d r t : RegCode) (s : State) : Out := binOp 0x16 x d r t (fun _ a b => aluPlain (wShift .rol a (shiftAmount b))) s

/-- ROR: R352, R354. -/
def execRor (x : Issue) (d r t : RegCode) (s : State) : Out := binOp 0x17 x d r t (fun _ a b => aluPlain (wShift .ror a (shiftAmount b))) s

/-- MUL: R352, R354. -/
def execMul (x : Issue) (d r t : RegCode) (s : State) : Out := mulOp 0 3 x d r t (aluMul) s

/-- MULH: R352. -/
def execMulh (x : Issue) (d r t : RegCode) (s : State) : Out := mulOp 1 3 x d r t (fun a b => aluPlain (wMulh a b)) s

/-- MULHU: R352. -/
def execMulhu (x : Issue) (d r t : RegCode) (s : State) : Out := mulOp 2 3 x d r t (fun a b => aluPlain (wMulhu a b)) s

/-- DIV: R352, R354. -/
def execDiv (x : Issue) (d r t : RegCode) (s : State) : Out := mulOp 3 20 x d r t (aluDiv) s

/-- DIVU: R352, R354. -/
def execDivu (x : Issue) (d r t : RegCode) (s : State) : Out := mulOp 4 20 x d r t (aluDivU) s

/-- REM: R352, R354. -/
def execRem (x : Issue) (d r t : RegCode) (s : State) : Out := mulOp 5 20 x d r t (aluRem) s

/-- REMU: R352, R354. -/
def execRemu (x : Issue) (d r t : RegCode) (s : State) : Out := mulOp 6 20 x d r t (aluRemU) s

/-- ADDI: R351, R354. -/
def execAddi (x : Issue) (d r : RegCode) (imm : BitVec 18) (s : State) : Out := unOp (wordI 0x01 d r imm) x d r (fun a => aluAdd a (imm.signExtend 32) false) s

/-- ANDI: R351. -/
def execAndi (x : Issue) (d r : RegCode) (imm : BitVec 18) (s : State) : Out := unOp (wordI 0x02 d r imm) x d r (fun a => aluPlain (a &&& imm.zeroExtend 32)) s

/-- ORI: R351. -/
def execOri (x : Issue) (d r : RegCode) (imm : BitVec 18) (s : State) : Out := unOp (wordI 0x03 d r imm) x d r (fun a => aluPlain (a ||| imm.zeroExtend 32)) s

/-- XORI: R351. -/
def execXori (x : Issue) (d r : RegCode) (imm : BitVec 18) (s : State) : Out := unOp (wordI 0x04 d r imm) x d r (fun a => aluPlain (a ^^^ imm.zeroExtend 32)) s

/-- LDI: R351. -/
def execLdi (x : Issue) (d : RegCode) (imm : BitVec 18) (s : State) : Out :=
  instrOut x (ldiKind d imm) (putAlu x.engine d (aluPlain (imm.signExtend 32))) s

/-- LDL: R351. -/
def execLdl (x : Issue) (d : RegCode) (ext : Word) (s : State) : Out :=
  instrOut x (ldlKind d ext) (do addCost fun c => { c with extra := 1 }; putAlu x.engine d (aluPlain ext)) s

/-- SHI: R351, R354. -/
def execShi (x : Issue) (d r : RegCode) (kind : ShiftKind) (amount : BitVec 6) (s : State) : Out :=
  unOp (wordH d r kind amount) x d r (fun a => aluPlain (wShift kind a amount.toNat)) s

/-- CMP: R353. -/
def execCmp (x : Issue) (d r t : RegCode) (c : Cond) (s : State) : Out :=
  instrOut x (cmpKind d r t c) (do
    if isG d then
      let g ← getEng x.engine
      putAlu x.engine d (aluPlain (wBool (condHolds c (rdReg g r) (rdReg g t))))
    else trapWith 1) s

/-- CMPI: R353. -/
def execCmpi (x : Issue) (d r : RegCode) (c : Cond) (imm : BitVec 15) (s : State) : Out :=
  instrOut x (cmpiKind d r c imm) (do
    if isG d then
      let g ← getEng x.engine
      putAlu x.engine d (aluPlain (wBool (condHolds c (rdReg g r) (imm.signExtend 32))))
    else trapWith 1) s

end Sys2Proof.Machine
end

