-- ==== Sys2Proof/Machine/EngFlow.lean ====
section
/-! DEFINITION. Branches, calls, loops and REP of an engine (R351, R355 to R360).
Readings of the spec: log entry 30, DEDUCED. -/

namespace Sys2Proof.Machine

/-- A control instruction: never an END instruction, never repeated (R359, R360). -/
def flowKind (w : Word) (uses : List RegCode) : Kind := { word := w, endOk := false, uses := uses }

/-- What each control instruction is to the fetch (R349). -/
def brKind (off : BitVec 22) : Kind := flowKind (wordB 0x18 0 off) []
def condKind (zero : Bool) (c : RegCode) (off : BitVec 22) : Kind := flowKind (wordB (if zero then 0x19 else 0x1A) c off) [c]
def jrKind (r : RegCode) : Kind := flowKind (wordR 0x1B 0 0 r 0) [r]
def callKind (mask : BitVec 11) (off : BitVec 15) : Kind := flowKind (wordK 0x1C mask off.toNat) (3 :: maskRegs mask)
def callxKind (mask : BitVec 11) (target : Word) : Kind := { flowKind (wordK 0x1E mask 0) (3 :: maskRegs mask) with ext := some target }
def callrKind (mask : BitVec 11) (r : RegCode) : Kind := flowKind (wordK 0x1F mask r) (r :: 3 :: maskRegs mask)
def retKind : Kind := flowKind (opWord 0x1D 0) [3]
def loopKind (r : RegCode) (last : BitVec 14) : Kind := flowKind (wordLoop r last) [r]
def loopiKind (count : BitVec 12) (last : BitVec 14) : Kind := flowKind (wordLoopi count last) []
def leaveKind : Kind := flowKind (opWord 0x21 0) []
def repKind (r : RegCode) (ni : Bool) : Kind := flowKind (wordRep r ni) [r]

/-- Target of a word offset from the instruction itself (R349). -/
def branchTarget {n : Nat} (g : Eng) (off : BitVec n) : Word := g.pc + (off.signExtend 32 <<< 2)

/-- A taken branch or jump: its second cycle is wasted (R351, R483); its target must be aligned (R348). -/
def jumpTo (t : Word) : EngM After := do
  if t.toNat % 4 != 0 then trapAt 5 t.toNat
  else do
    addCost fun c => { c with wasted := 1 }
    pure (.jump t)

/-- BR: R351. -/
def execBr (x : Issue) (off : BitVec 22) (s : State) : Out :=
  instrOut x (brKind off) (do let g ← getEng x.engine; jumpTo (branchTarget g off)) s

/-- A conditional branch on a G register (R353). -/
def condBranch (x : Issue) (c : RegCode) (off : BitVec 22) (zero : Bool) (s : State) : Out :=
  instrOut x (condKind zero c off) (do
    if isG c then
      let g ← getEng x.engine
      if (rdReg g c == 0) == zero then jumpTo (branchTarget g off) else pure .next
    else trapWith 1) s

/-- BZ: R351, R353. -/
def execBz (x : Issue) (c : RegCode) (off : BitVec 22) (s : State) : Out := condBranch x c off true s

/-- BNZ: R351, R353. -/
def execBnz (x : Issue) (c : RegCode) (off : BitVec 22) (s : State) : Out := condBranch x c off false s

/-- JR: R351. -/
def execJr (x : Issue) (r : RegCode) (s : State) : Out :=
  instrOut x (jrKind r) (do let g ← getEng x.engine; jumpTo (rdReg g r)) s

/-- The frame word of a call (R355). -/
def frameWord (mask : BitVec 11) (g : Eng) : Word := BitVec.ofNat 32 (mask.toNat + putF (fld g.sw.toNat swLa 3) 11 3 + 0x5AF0 * 65536)

/-- A call (R355): the target is judged first; then the frame. `words` are those of the instruction. -/
def callTo (x : Issue) (words : Nat) (mask : BitVec 11) (t : Word) : EngM After := do
  if t.toNat % 4 != 0 then trapAt 5 t.toNat
  else do
    let g ← getEng x.engine
    let l := maskRegs mask
    addCost fun c => { c with extra := words + l.length }
    let sp ← lowerSp x.engine (8 + 4 * l.length)
    storeWords x sp.toNat ([g.pc + BitVec.ofNat 32 (4 * words), frameWord mask g] ++ l.map (rdReg g))
    pure (.goto t)

/-- CALL: R355. -/
def execCall (x : Issue) (mask : BitVec 11) (off : BitVec 15) (s : State) : Out :=
  instrOut x (callKind mask off) (do let g ← getEng x.engine; callTo x 1 mask (branchTarget g off)) s

/-- CALLX: R355. -/
def execCallx (x : Issue) (mask : BitVec 11) (target : Word) (s : State) : Out :=
  instrOut x (callxKind mask target) (callTo x 2 mask target) s

/-- CALLR: R355. -/
def execCallr (x : Issue) (mask : BitVec 11) (r : RegCode) (s : State) : Out :=
  instrOut x (callrKind mask r) (do let g ← getEng x.engine; callTo x 1 mask (rdReg g r)) s

/-- A frame word has the mark of R356. -/
def frameOk (w : Word) : Bool := fld w.toNat 14 18 == 0x5AF0 * 4

/-- Registers restored from the words of a frame, SP last (R356). -/
def putFrame (e : Nat) (l : List RegCode) (ws : List Word) : EngM Unit := fun c =>
  .ok ((), { c with s := setEng e (fun g => (l.zip ws).foldl (fun g p => wrReg p.1 p.2 g) g) c.s
                    cost := { c.cost with items := c.cost.items ++ (l.zip ws).map fun p => regItem p.1 p.2 } })

/-- RET: R356. -/
def execRet (x : Issue) (s : State) : Out :=
  instrOut x retKind (do
    let g ← getEng x.engine
    let sp := rdReg g 3
    let head ← loadWords x sp.toNat 2
    let back := head.getD 0 0
    let fw := head.getD 1 0
    if !frameOk fw then trapWith 10
    else if back.toNat % 4 != 0 then trapAt 5 back.toNat
    else do
      let l := maskRegs (fw.truncate 11)
      addCost fun c => { c with extra := 2 + l.length }
      let ws ← loadWords x (sp.toNat + 8) l.length
      putFrame x.engine l ws
      modEng x.engine fun g => { g with sw := setFld g.sw swLa 3 (fld fw.toNat 11 3) }
      putReg x.engine 3 (sp + BitVec.ofNat 32 (8 + 4 * l.length))
      pure (.goto back)) s

/-- A loop opens (R358): END must name an instruction of the body; a count of 0 skips the body. -/
def openLoop (x : Issue) (count : Word) (last : BitVec 14) : EngM After := do
  let g ← getEng x.engine
  let endAt := g.pc + BitVec.ofNat 32 (4 * last.toNat)
  addCost fun c => { c with extra := 1 }
  if last == 0 then trapWith 1
  else if count == 0 then pure (.goto (endAt + 4))
  else match lowestFree g with
    | none => trapWith 9
    | some l => do
      modEng x.engine fun g => setLevel l true (setLc l count { g with loops := g.loops.set l { start := g.pc + 4, last := endAt } })
      pure (.goto (g.pc + 4))

/-- LOOP: R358. -/
def execLoop (x : Issue) (r : RegCode) (last : BitVec 14) (s : State) : Out :=
  instrOut x (loopKind r last) (do let g ← getEng x.engine; openLoop x (rdReg g r) last) s

/-- LOOPI: R358. -/
def execLoopi (x : Issue) (count : BitVec 12) (last : BitVec 14) (s : State) : Out :=
  instrOut x (loopiKind count last) (openLoop x (count.zeroExtend 32) last) s

/-- LEAVE: R359. -/
def execLeave (x : Issue) (s : State) : Out :=
  instrOut x leaveKind (do
    let g ← getEng x.engine
    addCost fun c => { c with extra := 1 }
    match innermost g with
    | none => trapWith 1
    | some l => do
      modEng x.engine (setLevel l false)
      pure (.goto (g.loops[l].last + 4))) s

/-- REP: R360. With REPA set it resumes an interrupted repetition: the count stands in LC. -/
def execRep (x : Issue) (r : RegCode) (ni : Bool) (s : State) : Out :=
  instrOut x (repKind r ni) (do
    let g ← getEng x.engine
    let resume := swBit g swRepa
    let start := fun (l : Fin 3) (n : Word) => do
      if n == 0 then
        modEng x.engine (setSw swRepa false)
        pure After.skip
      else do
        modEng x.engine fun g => setSw swRepa true (setLc l n { g with rep := some { level := l, ni := ni, found := some (getLc g l) } })
        pure (After.goto (g.pc + 4))
    match highestFree g with
    | none => if !resume && rdReg g r == 0 then pure .skip else trapWith 9
    | some l =>
      if resume then start l (getLc g l)
      else if ni && 256 < (rdReg g r).toNat then trapWith 1
      else start l (rdReg g r)) s

end Sys2Proof.Machine
end

