-- ==== Sys2Proof/Machine/Supply.lean ====
section
/-! DEFINITION. Supplies of the dies and their die sensors (R503, R505).
Readings of the spec: log entry 34, DEDUCED. -/

namespace Sys2Proof.Machine

/-- Every channel and single half-bridge of a load die takes the state it would now have. -/
def applyDie (d : Die) (s : State) : State :=
  let s := ((List.range 64).filter fun n => lchDie n == d).foldl (fun s n => applyLch n s) s
  ((List.range 16).filter fun h => hbDie h == d && hbSingle s h).foldl (fun s h => applyHb h s) s

/-- LF fields end (R503): the RESULT is not stated. -/
def lfOff (s : State) : State := match s.acc.op with | some o => finishFree o.uid 0x12 (airEnd s) | none => s

/-- A row of R503 turns a die's outputs off. -/
def dieOutputsOff (d : Die) (s : State) : State :=
  let s := { s with ld := { s.ld with supplyOff := if s.ld.supplyOff.contains d then s.ld.supplyOff else d :: s.ld.supplyOff } }
  match d with
  | .loadA => applyDie d s
  | .loadB => applyDie d s
  | .base => lfOff ((List.range 24).foldl (fun s v => vlvSafeOff 0xFFFF v s) s)
  | _ => s

/-- Dies that act on a supply of R503. -/
def hasSupply (d : Die) : Bool := d == .loadA || d == .loadB || d == .base

/-- A supply stands on its side of a threshold for 10 µs; where DT stands still the command alone says so (R503). -/
def supplyStands (since : Nat) (s : State) : Bool := since + us 10 ≤ s.dt || !s.pw.clocks

/-- The supply of a die as measured. -/
def noteSupply (d : Die) (v : Nat) (s : State) : State :=
  if d == .base then noteVbat v s
  else (idxs 8).foldl (fun s (b : Fin 8) => if lchDie (8 * b) == d then setBank b (fun k => { k with vNow := v }) s else s) s

/-- LOAD_DIE_SUPPLY_LOW: below 4.0 V (4.2 V at most), and the logic of a load die below 3.0 V (R503). -/
def execLoadDieSupplyLow (d : Die) (x : HeldV) (s : State) : Out :=
  .next (onlyIf (hasSupply d && x.v < 4200 && supplyStands x.since s) (fun s =>
    let s := if x.v < 3000 && d != .base && !s.ld.logicReset.contains d then { s with ld := { s.ld with logicReset := d :: s.ld.logicReset } } else s
    dieOutputsOff d (noteSupply d x.v s)) s)

/-- Slices of a load die. -/
def dieSlices (d : Die) : List Nat :=
  match d with
  | .loadA => [0, 1]
  | .loadB => [2, 3]
  | _ => []

/-- LS_SUPPLY_HIGH: above 45 V (44 V at least); for the base die no source is raised (R503). -/
def execLsSupplyHigh (x : DieSupply) (s : State) : Out :=
  .next (onlyIf (hasSupply x.die && 44000 ≤ x.v && supplyStands x.since s) (fun s =>
    (dieSlices x.die).foldl (fun s k => raise (32 * (k + 1) + 27) 0xFFFF s) (dieOutputsOff x.die (noteSupply x.die x.v s))) s)

/-- SUPPLY_RETURN: 4.5 V to 43.0 V for 10 ms (R503). Outputs that stand in SAFE take their SAFE state anew. -/
def execSupplyReturn (x : DieSupply) (s : State) : Out :=
  .next (onlyIf (supplyHolds s x.die && 4500 ≤ x.v && x.v ≤ 43000 && (x.since + ms 10 ≤ s.dt || !s.pw.clocks)) (fun s =>
    let d := x.die
    let s := noteSupply d x.v s
    let reset := s.ld.logicReset.contains d
    let s := { s with ld := { s.ld with supplyOff := s.ld.supplyOff.filter fun x => x != d, logicReset := s.ld.logicReset.filter fun x => x != d } }
    let s := applyDie d (if reset then reloadMirror d s else s)
    let s := ((List.range 16).filter fun h => hbDie h == d && safeHeld s (.hb h) && (hb s h).safeAct && !driven s h).foldl
      (fun s h => hbSafe 0xFFFF h (setHb h (fun b => if hbSingle s h then b else { b with safeAct := false }) s)) s
    if d == .base then
      let s := if s.vs.boostAsk && s.vs.boost == .off then boostTo .precharge (modVs (fun x => { x with boostAsk := false }) s) else s
      ((List.range 24).filter fun v => safeHeld s (.vlv v)).foldl (fun s v => vlvSafe 0xFFFF v (setVlv v (fun x => { x with safeAct := false }) s)) s
    else s) s)

/-- DIE_OVERTEMP: the sensor of bank `b` reads `t` in 1/16 °C, at or above the least limit (R505). -/
def execDieOvertemp (b : Fin 8) (t : Int) (s : State) : Out :=
  .next (whenOn (onlyIf (2480 ≤ t) fun s =>
    let s := { s with ld := { s.ld with banks := s.ld.banks.set b { s.ld.banks[b] with dieT := t } } }
    raise (32 * (b / 2 + 1) + 28) (256 * (b / 2) + 32 + b % 2) (dieHotHbs b (dieHotChs b s))) s)

end Sys2Proof.Machine
end

