-- ==== Sys2Proof/Machine/Dispatch.lean ====
section
/-! DEFINITION. Which meaning each command has: one arm per row of spec/opcode_table.json. -/

namespace Sys2Proof.Machine

def exec (i : Instr) (s : State) : Host.Outcome State Fault Refusal :=
  match i with
  | .rootIslandPowerOn vbat => Sys2Proof.Machine.execRootIslandPowerOn vbat s
  | .digitalDieStart found => Sys2Proof.Machine.execDigitalDieStart found s
  | .graftBlock writeOk => Sys2Proof.Machine.execGraftBlock writeOk s
  | .safeEntriesDelivered die => Sys2Proof.Machine.execSafeEntriesDelivered die s
  | .hostLinkTimeout => Sys2Proof.Machine.execHostLinkTimeout s
  | .hostLinkUp speed width => Sys2Proof.Machine.execHostLinkUp speed width s
  | .autoCommit => Sys2Proof.Machine.execAutoCommit s
  | .linkFailure die => Sys2Proof.Machine.execLinkFailure die s
  | .linkReturn die => Sys2Proof.Machine.execLinkReturn die s
  | .doorbellWrite n v => Sys2Proof.Machine.execDoorbellWrite n v s
  | .ringStart n v => Sys2Proof.Machine.execRingStart n v s
  | .ringStop n v => Sys2Proof.Machine.execRingStop n v s
  | .ringStopped n => Sys2Proof.Machine.execRingStopped n s
  | .ringSetupWrite n r v => Sys2Proof.Machine.execRingSetupWrite n r v s
  | .registerWrite addr v be => Sys2Proof.Machine.execRegisterWrite addr v be s
  | .readClear addr late => Sys2Proof.Machine.execReadClear addr late s
  | .hostRead addr len => Sys2Proof.Machine.execHostRead addr len s
  | .descriptorFetch => Sys2Proof.Machine.execDescriptorFetch s
  | .irqTimerExpiry n => Sys2Proof.Machine.execIrqTimerExpiry n s
  | .stallTimeout n => Sys2Proof.Machine.execStallTimeout n s
  | .nop o => Sys2Proof.Machine.execNop o s
  | .echo o => Sys2Proof.Machine.execEcho o s
  | .placementQuery o => Sys2Proof.Machine.execPlacementQuery o s
  | .stageWrite o b => Sys2Proof.Machine.execStageWrite o b s
  | .stageLoad o => Sys2Proof.Machine.execStageLoad o s
  | .stageDiscard o => Sys2Proof.Machine.execStageDiscard o s
  | .stageQuery o => Sys2Proof.Machine.execStageQuery o s
  | .stgDataWrite v => Sys2Proof.Machine.execStgDataWrite v s
  | .stgCtrlCommit v => Sys2Proof.Machine.execStgCtrlCommit v s
  | .stgCtrlCheck v => Sys2Proof.Machine.execStgCtrlCheck v s
  | .stgCtrlDiscard v => Sys2Proof.Machine.execStgCtrlDiscard v s
  | .commitCheck o => Sys2Proof.Machine.execCommitCheck o s
  | .commit o => Sys2Proof.Machine.execCommit o s
  | .checkAndPlacementComplete => Sys2Proof.Machine.execCheckAndPlacementComplete s
  | .newSetHeld => Sys2Proof.Machine.execNewSetHeld s
  | .commitTick => Sys2Proof.Machine.execCommitTick s
  | .mramMarkCommitted => Sys2Proof.Machine.execMramMarkCommitted s
  | .sessionChallenge o => Sys2Proof.Machine.execSessionChallenge o s
  | .sessionOpen o => Sys2Proof.Machine.execSessionOpen o s
  | .sessionClose o => Sys2Proof.Machine.execSessionClose o s
  | .challengeExpiry n => Sys2Proof.Machine.execChallengeExpiry n s
  | .sessionLockExpiry n => Sys2Proof.Machine.execSessionLockExpiry n s
  | .sessionExpiry n => Sys2Proof.Machine.execSessionExpiry n s
  | .runtimeSessionOpen => Sys2Proof.Machine.execRuntimeSessionOpen s
  | .diagnosticRequest can f => Sys2Proof.Machine.execDiagnosticRequest can f s
  | .heartwoodRecordWrite archived => Sys2Proof.Machine.execHeartwoodRecordWrite archived s
  | .lchSet o => Sys2Proof.Machine.execLchSet o s
  | .lchTimed o => Sys2Proof.Machine.execLchTimed o s
  | .lchSetMask o => Sys2Proof.Machine.execLchSetMask o s
  | .lchQuery o => Sys2Proof.Machine.execLchQuery o s
  | .heatQuery o => Sys2Proof.Machine.execHeatQuery o s
  | .timedEnd n => Sys2Proof.Machine.execTimedEnd n s
  | .leafStepUp n cur => Sys2Proof.Machine.execLeafStepUp n cur s
  | .leafStepDown n => Sys2Proof.Machine.execLeafStepDown n s
  | .pwmPeriodStart n cur vs => Sys2Proof.Machine.execPwmPeriodStart n cur vs s
  | .inrushEnd n => Sys2Proof.Machine.execInrushEnd n s
  | .preheatEnd n => Sys2Proof.Machine.execPreheatEnd n s
  | .budgetAllocation other => Sys2Proof.Machine.execBudgetAllocation other s
  | .gangImbalance n => Sys2Proof.Machine.execGangImbalance n s
  | .bankSenseImplausible b sense die => Sys2Proof.Machine.execBankSenseImplausible b sense die s
  | .cpFreezeEnd b => Sys2Proof.Machine.execCpFreezeEnd b s
  | .wireModelUpdate m b h => Sys2Proof.Machine.execWireModelUpdate m b h s
  | .restartCountReset n => Sys2Proof.Machine.execRestartCountReset n s
  | .heatSnapshot => Sys2Proof.Machine.execHeatSnapshot s
  | .ambientStale g => Sys2Proof.Machine.execAmbientStale g s
  | .shortCircuitLimit n cur => Sys2Proof.Machine.execShortCircuitLimit n cur s
  | .envelopeTrip n cur => Sys2Proof.Machine.execEnvelopeTrip n cur s
  | .switchOvertemp n t => Sys2Proof.Machine.execSwitchOvertemp n t s
  | .onStateDiagnosis n v => Sys2Proof.Machine.execOnStateDiagnosis n v s
  | .reverseCurrent n cur => Sys2Proof.Machine.execReverseCurrent n cur s
  | .offStateDiagnosis n v1 v2 => Sys2Proof.Machine.execOffStateDiagnosis n v1 v2 s
  | .protClear o => Sys2Proof.Machine.execProtClear o s
  | .wireQuery o => Sys2Proof.Machine.execWireQuery o s
  | .wireAmbient o => Sys2Proof.Machine.execWireAmbient o s
  | .diagRun o v1 v2 => Sys2Proof.Machine.execDiagRun o v1 v2 s
  | .brDrive o => Sys2Proof.Machine.execBrDrive o s
  | .brMove o => Sys2Proof.Machine.execBrMove o s
  | .brPulse o => Sys2Proof.Machine.execBrPulse o s
  | .wiperSet o => Sys2Proof.Machine.execWiperSet o s
  | .brQuery o => Sys2Proof.Machine.execBrQuery o s
  | .brPosSet o => Sys2Proof.Machine.execBrPosSet o s
  | .hbSet o => Sys2Proof.Machine.execHbSet o s
  | .hbDiagRun o v1 v2 v3 => Sys2Proof.Machine.execHbDiagRun o v1 v2 v3 s
  | .brakeEnd h => Sys2Proof.Machine.execBrakeEnd h s
  | .peakTimeTrip h => Sys2Proof.Machine.execPeakTimeTrip h s
  | .hbShortCircuit h cur => Sys2Proof.Machine.execHbShortCircuit h cur s
  | .hbOvertemp h t => Sys2Proof.Machine.execHbOvertemp h t s
  | .hbHeldClear h => Sys2Proof.Machine.execHbHeldClear h s
  | .ripple h cur v period => Sys2Proof.Machine.execRipple h cur v period s
  | .pinchArm h => Sys2Proof.Machine.execPinchArm h s
  | .backEmfCountEnd h => Sys2Proof.Machine.execBackEmfCountEnd h s
  | .stall h => Sys2Proof.Machine.execStall h s
  | .wiperParked x => Sys2Proof.Machine.execWiperParked x s
  | .wiperInterval h => Sys2Proof.Machine.execWiperInterval h s
  | .parkTimeout h => Sys2Proof.Machine.execParkTimeout h s
  | .driveTimeout h => Sys2Proof.Machine.execDriveTimeout h s
  | .pulseEnd h => Sys2Proof.Machine.execPulseEnd h s
  | .hbOffStateDiagnosis h v1 v2 v3 => Sys2Proof.Machine.execHbOffStateDiagnosis h v1 v2 v3 s
  | .hbOnStateOpenLoad h => Sys2Proof.Machine.execHbOnStateOpenLoad h s
  | .vlvFire o => Sys2Proof.Machine.execVlvFire o s
  | .vlvRelease o => Sys2Proof.Machine.execVlvRelease o s
  | .vlvPeriodic o => Sys2Proof.Machine.execVlvPeriodic o s
  | .vlvQuery o => Sys2Proof.Machine.execVlvQuery o s
  | .boostSet o => Sys2Proof.Machine.execBoostSet o s
  | .ledgerQuery o => Sys2Proof.Machine.execLedgerQuery o s
  | .vlvDiagRun o m => Sys2Proof.Machine.execVlvDiagRun o m s
  | .fireRequestedStart v => Sys2Proof.Machine.execFireRequestedStart v s
  | .slotGrant g => Sys2Proof.Machine.execSlotGrant g s
  | .deferTimeout v => Sys2Proof.Machine.execDeferTimeout v s
  | .peakReached v x q => Sys2Proof.Machine.execPeakReached v x q s
  | .boostTimeout v q => Sys2Proof.Machine.execBoostTimeout v q s
  | .peakEnd v => Sys2Proof.Machine.execPeakEnd v s
  | .decayEnd v x q => Sys2Proof.Machine.execDecayEnd v x q s
  | .holdEnd v => Sys2Proof.Machine.execHoldEnd v s
  | .valveOff v x => Sys2Proof.Machine.execValveOff v x s
  | .releaseTimeout v => Sys2Proof.Machine.execReleaseTimeout v s
  | .periodicFiring v => Sys2Proof.Machine.execPeriodicFiring v s
  | .prechargeDone vCap vbat => Sys2Proof.Machine.execPrechargeDone vCap vbat s
  | .measureDone rise vCap => Sys2Proof.Machine.execMeasureDone rise vCap s
  | .boostReady vCap => Sys2Proof.Machine.execBoostReady vCap s
  | .boostSuspend x => Sys2Proof.Machine.execBoostSuspend x s
  | .boostResume x => Sys2Proof.Machine.execBoostResume x s
  | .boostConverterFault => Sys2Proof.Machine.execBoostConverterFault s
  | .boostOvervoltage vCap => Sys2Proof.Machine.execBoostOvervoltage vCap s
  | .ledgerWindow qIn qLoss vCap => Sys2Proof.Machine.execLedgerWindow qIn qLoss vCap s
  | .valveShortCircuit t => Sys2Proof.Machine.execValveShortCircuit t s
  | .valveHeldClear v t => Sys2Proof.Machine.execValveHeldClear v t s
  | .valveOffStateDiagnosis g m => Sys2Proof.Machine.execValveOffStateDiagnosis g m s
  | .valveOnStateDiagnosis f => Sys2Proof.Machine.execValveOnStateDiagnosis f s
  | .debounceComplete n t => Sys2Proof.Machine.execDebounceComplete n t s
  | .isSupplyLow vbat => Sys2Proof.Machine.execIsSupplyLow vbat s
  | .isSupplyReturn x => Sys2Proof.Machine.execIsSupplyReturn x s
  | .cleaningPulseEnd n => Sys2Proof.Machine.execCleaningPulseEnd n s
  | .ladderInvalid n l => Sys2Proof.Machine.execLadderInvalid n l s
  | .swiStuck n => Sys2Proof.Machine.execSwiStuck n s
  | .poll g x => Sys2Proof.Machine.execPoll g x s
  | .wetThermal t => Sys2Proof.Machine.execWetThermal t s
  | .swiQuery o => Sys2Proof.Machine.execSwiQuery o s
  | .swiSnapshot o => Sys2Proof.Machine.execSwiSnapshot o s
  | .swiClean o => Sys2Proof.Machine.execSwiClean o s
  | .fioSet o rb => Sys2Proof.Machine.execFioSet o rb s
  | .fioQuery o rb cur => Sys2Proof.Machine.execFioQuery o rb cur s
  | .fioSnapshot o => Sys2Proof.Machine.execFioSnapshot o s
  | .fioClear o => Sys2Proof.Machine.execFioClear o s
  | .fsQuery o v gap => Sys2Proof.Machine.execFsQuery o v gap s
  | .fsSupplyLow x => Sys2Proof.Machine.execFsSupplyLow x s
  | .fsSupplyHigh x => Sys2Proof.Machine.execFsSupplyHigh x s
  | .fsSupplyNormal x => Sys2Proof.Machine.execFsSupplyNormal x s
  | .barrierPowerFail v => Sys2Proof.Machine.execBarrierPowerFail v s
  | .fioWire n cur since => Sys2Proof.Machine.execFioWire n cur since s
  | .fioChange n l => Sys2Proof.Machine.execFioChange n l s
  | .edgeQueueDelivery => Sys2Proof.Machine.execEdgeQueueDelivery s
  | .fioProt n hot cur since => Sys2Proof.Machine.execFioProt n hot cur since s
  | .fioRestart n t => Sys2Proof.Machine.execFioRestart n t s
  | .fioCountReset n => Sys2Proof.Machine.execFioCountReset n s
  | .fioDiag n x cur since => Sys2Proof.Machine.execFioDiag n x cur since s
  | .silenceTimeout gap => Sys2Proof.Machine.execSilenceTimeout gap s
  | .fsSilence len last => Sys2Proof.Machine.execFsSilence len last s
  | .canTx o b => Sys2Proof.Machine.execCanTx o b s
  | .canTxCancel o => Sys2Proof.Machine.execCanTxCancel o s
  | .canQuery o => Sys2Proof.Machine.execCanQuery o s
  | .canRecover o => Sys2Proof.Machine.execCanRecover o s
  | .canQueueQuery o => Sys2Proof.Machine.execCanQueueQuery o s
  | .frameReceived n f sof => Sys2Proof.Machine.execFrameReceived n f sof s
  | .frameRecordWrite n => Sys2Proof.Machine.execFrameRecordWrite n s
  | .arbitrationStart n => Sys2Proof.Machine.execArbitrationStart n s
  | .frameTransmitted n edges => Sys2Proof.Machine.execFrameTransmitted n edges s
  | .transmitAttemptFailed n why edges => Sys2Proof.Machine.execTransmitAttemptFailed n why edges s
  | .cancelErrorFlag n => Sys2Proof.Machine.execCancelErrorFlag n s
  | .txTimeout n => Sys2Proof.Machine.execTxTimeout n s
  | .busoffHoldExpiry n => Sys2Proof.Machine.execBusoffHoldExpiry n s
  | .busoffRecoveryComplete x => Sys2Proof.Machine.execBusoffRecoveryComplete x s
  | .txdDominant n => Sys2Proof.Machine.execTxdDominant n s
  | .linWrite o => Sys2Proof.Machine.execLinWrite o s
  | .linSched o => Sys2Proof.Machine.execLinSched o s
  | .linDiagReq o => Sys2Proof.Machine.execLinDiagReq o s
  | .linQuery o => Sys2Proof.Machine.execLinQuery o s
  | .gwIsolate o => Sys2Proof.Machine.execGwIsolate o s
  | .gwRouteQuery o => Sys2Proof.Machine.execGwRouteQuery o s
  | .linSlotStart n => Sys2Proof.Machine.execLinSlotStart n s
  | .linRx n data cks => Sys2Proof.Machine.execLinRx n data cks s
  | .linErr n code got header => Sys2Proof.Machine.execLinErr n code got header s
  | .linBusDominant n => Sys2Proof.Machine.execLinBusDominant n s
  | .gatewayBufferAssign n => Sys2Proof.Machine.execGatewayBufferAssign n s
  | .gatewayMaxAge => Sys2Proof.Machine.execGatewayMaxAge s
  | .gwDrop r => Sys2Proof.Machine.execGwDrop r s
  | .netSleep o => Sys2Proof.Machine.execNetSleep o s
  | .netWake o => Sys2Proof.Machine.execNetWake o s
  | .netListen o => Sys2Proof.Machine.execNetListen o s
  | .netQuery o => Sys2Proof.Machine.execNetQuery o s
  | .drainEnd b => Sys2Proof.Machine.execDrainEnd b s
  | .segmentCommit b => Sys2Proof.Machine.execSegmentCommit b s
  | .agreeTimeout b => Sys2Proof.Machine.execAgreeTimeout b s
  | .wakeUpPattern n => Sys2Proof.Machine.execWakeUpPattern n s
  | .wakeUpFrame n w => Sys2Proof.Machine.execWakeUpFrame n w s
  | .decoderErrorCount x => Sys2Proof.Machine.execDecoderErrorCount x s
  | .decoderSilence n => Sys2Proof.Machine.execDecoderSilence n s
  | .linWake n => Sys2Proof.Machine.execLinWake n s
  | .segmentAwake b => Sys2Proof.Machine.execSegmentAwake b s
  | .netAnnounce n => Sys2Proof.Machine.execNetAnnounce n s
  | .maxAwake b => Sys2Proof.Machine.execMaxAwake b s
  | .tokenSearch o => Sys2Proof.Machine.execTokenSearch o s
  | .releaseStart o => Sys2Proof.Machine.execReleaseStart o s
  | .releaseEnd o => Sys2Proof.Machine.execReleaseEnd o s
  | .tokenRead o => Sys2Proof.Machine.execTokenRead o s
  | .tokenWrite o => Sys2Proof.Machine.execTokenWrite o s
  | .keyWrite o b => Sys2Proof.Machine.execKeyWrite o b s
  | .keyQuery o => Sys2Proof.Machine.execKeyQuery o s
  | .fieldStart cur => Sys2Proof.Machine.execFieldStart cur s
  | .wup seed => Sys2Proof.Machine.execWup seed s
  | .halt => Sys2Proof.Machine.execHalt s
  | .authA rnd => Sys2Proof.Machine.execAuthA rnd s
  | .authB => Sys2Proof.Machine.execAuthB s
  | .read => Sys2Proof.Machine.execRead s
  | .write => Sys2Proof.Machine.execWrite s
  | .tokenAnswer a => Sys2Proof.Machine.execTokenAnswer a s
  | .releaseFrame => Sys2Proof.Machine.execReleaseFrame s
  | .releaseSessionTimeout => Sys2Proof.Machine.execReleaseSessionTimeout s
  | .interruptEntry x => Sys2Proof.Machine.execInterruptEntry x s
  | .handlerDispatch e => Sys2Proof.Machine.execHandlerDispatch e s
  | .handlerCycleBudgetExceeded x => Sys2Proof.Machine.execHandlerCycleBudgetExceeded x s
  | .inboundQueueDelivery e => Sys2Proof.Machine.execInboundQueueDelivery e s
  | .localTimer e => Sys2Proof.Machine.execLocalTimer e s
  | .add x d r t => Sys2Proof.Machine.execAdd x d r t s
  | .sub x d r t => Sys2Proof.Machine.execSub x d r t s
  | .adc x d r t => Sys2Proof.Machine.execAdc x d r t s
  | .sbc x d r t => Sys2Proof.Machine.execSbc x d r t s
  | .and x d r t => Sys2Proof.Machine.execAnd x d r t s
  | .or x d r t => Sys2Proof.Machine.execOr x d r t s
  | .xor x d r t => Sys2Proof.Machine.execXor x d r t s
  | .not x d r => Sys2Proof.Machine.execNot x d r s
  | .neg x d r => Sys2Proof.Machine.execNeg x d r s
  | .abs x d r => Sys2Proof.Machine.execAbs x d r s
  | .mov x d r => Sys2Proof.Machine.execMov x d r s
  | .min x d r t => Sys2Proof.Machine.execMin x d r t s
  | .max x d r t => Sys2Proof.Machine.execMax x d r t s
  | .minu x d r t => Sys2Proof.Machine.execMinu x d r t s
  | .maxu x d r t => Sys2Proof.Machine.execMaxu x d r t s
  | .clz x d r => Sys2Proof.Machine.execClz x d r s
  | .popc x d r => Sys2Proof.Machine.execPopc x d r s
  | .sxb x d r => Sys2Proof.Machine.execSxb x d r s
  | .sxh x d r => Sys2Proof.Machine.execSxh x d r s
  | .shl x d r t => Sys2Proof.Machine.execShl x d r t s
  | .shr x d r t => Sys2Proof.Machine.execShr x d r t s
  | .sar x d r t => Sys2Proof.Machine.execSar x d r t s
  | .rol x d r t => Sys2Proof.Machine.execRol x d r t s
  | .ror x d r t => Sys2Proof.Machine.execRor x d r t s
  | .mul x d r t => Sys2Proof.Machine.execMul x d r t s
  | .mulh x d r t => Sys2Proof.Machine.execMulh x d r t s
  | .mulhu x d r t => Sys2Proof.Machine.execMulhu x d r t s
  | .div x d r t => Sys2Proof.Machine.execDiv x d r t s
  | .divu x d r t => Sys2Proof.Machine.execDivu x d r t s
  | .rem x d r t => Sys2Proof.Machine.execRem x d r t s
  | .remu x d r t => Sys2Proof.Machine.execRemu x d r t s
  | .addi x d r imm => Sys2Proof.Machine.execAddi x d r imm s
  | .andi x d r imm => Sys2Proof.Machine.execAndi x d r imm s
  | .ori x d r imm => Sys2Proof.Machine.execOri x d r imm s
  | .xori x d r imm => Sys2Proof.Machine.execXori x d r imm s
  | .ldi x d imm => Sys2Proof.Machine.execLdi x d imm s
  | .ldl x d ext => Sys2Proof.Machine.execLdl x d ext s
  | .shi x d r kind amount => Sys2Proof.Machine.execShi x d r kind amount s
  | .cmp x d r t c => Sys2Proof.Machine.execCmp x d r t c s
  | .cmpi x d r c imm => Sys2Proof.Machine.execCmpi x d r c imm s
  | .ld x d b m sz sx => Sys2Proof.Machine.execLd x d b m sz sx s
  | .st x d b m sz => Sys2Proof.Machine.execSt x d b m sz s
  | .lea x d b m => Sys2Proof.Machine.execLea x d b m s
  | .pushm x mask => Sys2Proof.Machine.execPushm x mask s
  | .popm x mask => Sys2Proof.Machine.execPopm x mask s
  | .movs x d b sz => Sys2Proof.Machine.execMovs x d b sz s
  | .xchg x d b disp => Sys2Proof.Machine.execXchg x d b disp s
  | .cas x d r t => Sys2Proof.Machine.execCas x d r t s
  | .br x off => Sys2Proof.Machine.execBr x off s
  | .bz x c off => Sys2Proof.Machine.execBz x c off s
  | .bnz x c off => Sys2Proof.Machine.execBnz x c off s
  | .jr x r => Sys2Proof.Machine.execJr x r s
  | .call x mask off => Sys2Proof.Machine.execCall x mask off s
  | .callx x mask target => Sys2Proof.Machine.execCallx x mask target s
  | .callr x mask r => Sys2Proof.Machine.execCallr x mask r s
  | .ret x => Sys2Proof.Machine.execRet x s
  | .loop x r last => Sys2Proof.Machine.execLoop x r last s
  | .loopi x count last => Sys2Proof.Machine.execLoopi x count last s
  | .leave x => Sys2Proof.Machine.execLeave x s
  | .rep x r ni => Sys2Proof.Machine.execRep x r ni s
  | .fence x => Sys2Proof.Machine.execFence x s
  | .send x d r => Sys2Proof.Machine.execSend x d r s
  | .recv x d r => Sys2Proof.Machine.execRecv x d r s
  | .wait x => Sys2Proof.Machine.execWait x s
  | .yield x => Sys2Proof.Machine.execYield x s
  | .trap x code => Sys2Proof.Machine.execTrap x code s
  | .mfs x d n => Sys2Proof.Machine.execMfs x d n s
  | .mts x r n => Sys2Proof.Machine.execMts x r n s
  | .reti x => Sys2Proof.Machine.execReti x s
  | .pairMismatch k lane bit => Sys2Proof.Machine.execPairMismatch k lane bit s
  | .pkgWrite o b => Sys2Proof.Machine.execPkgWrite o b s
  | .pkgErase o => Sys2Proof.Machine.execPkgErase o s
  | .pkgQuery o => Sys2Proof.Machine.execPkgQuery o s
  | .pairSplit o => Sys2Proof.Machine.execPairSplit o s
  | .pairMerge o => Sys2Proof.Machine.execPairMerge o s
  | .pairQuery o => Sys2Proof.Machine.execPairQuery o s
  | .mergeCopyDone k => Sys2Proof.Machine.execMergeCopyDone k s
  | .mergeSelftestDone k failed => Sys2Proof.Machine.execMergeSelftestDone k failed s
  | .hbQuery o => Sys2Proof.Machine.execHbQuery o s
  | .xspiRead o => Sys2Proof.Machine.execXspiRead o s
  | .xspiWrite o b => Sys2Proof.Machine.execXspiWrite o b s
  | .xspiErase o => Sys2Proof.Machine.execXspiErase o s
  | .xspiQuery o => Sys2Proof.Machine.execXspiQuery o s
  | .xspiNoAnswer cs => Sys2Proof.Machine.execXspiNoAnswer cs s
  | .readCompletion tag r => Sys2Proof.Machine.execReadCompletion tag r s
  | .tagTimeout tag => Sys2Proof.Machine.execTagTimeout tag s
  | .tagQuarantineEnd tag => Sys2Proof.Machine.execTagQuarantineEnd tag s
  | .delayedReadDiscard => Sys2Proof.Machine.execDelayedReadDiscard s
  | .hostLinkLoss => Sys2Proof.Machine.execHostLinkLoss s
  | .msixUnmask u => Sys2Proof.Machine.execMsixUnmask u s
  | .faultQuery o => Sys2Proof.Machine.execFaultQuery o s
  | .faultAck o => Sys2Proof.Machine.execFaultAck o s
  | .faultReset o failed => Sys2Proof.Machine.execFaultReset o failed s
  | .faultInject o => Sys2Proof.Machine.execFaultInject o s
  | .faultRaise srcs => Sys2Proof.Machine.execFaultRaise srcs s
  | .deviceReset r => Sys2Proof.Machine.execDeviceReset r s
  | .heartbeat => Sys2Proof.Machine.execHeartbeat s
  | .runtimeWatchdog => Sys2Proof.Machine.execRuntimeWatchdog s
  | .recoveryEnd => Sys2Proof.Machine.execRecoveryEnd s
  | .powerSet o => Sys2Proof.Machine.execPowerSet o s
  | .powerQuery o => Sys2Proof.Machine.execPowerQuery o s
  | .alarmSet o => Sys2Proof.Machine.execAlarmSet o s
  | .entryHandshakeAnswer block a => Sys2Proof.Machine.execEntryHandshakeAnswer block a s
  | .entryTimeout => Sys2Proof.Machine.execEntryTimeout s
  | .entryComplete => Sys2Proof.Machine.execEntryComplete s
  | .standbyExit => Sys2Proof.Machine.execStandbyExit s
  | .voutAcknowledge vout status => Sys2Proof.Machine.execVoutAcknowledge vout status s
  | .pmbusNoAck => Sys2Proof.Machine.execPmbusNoAck s
  | .pmAlert status => Sys2Proof.Machine.execPmAlert status s
  | .wakeLatch w => Sys2Proof.Machine.execWakeLatch w s
  | .rootTimerWake => Sys2Proof.Machine.execRootTimerWake s
  | .perstNWake => Sys2Proof.Machine.execPerstNWake s
  | .wakeNRelease => Sys2Proof.Machine.execWakeNRelease s
  | .regulatorRetry => Sys2Proof.Machine.execRegulatorRetry s
  | .vcoreBrownout => Sys2Proof.Machine.execVcoreBrownout s
  | .xtal32Start => Sys2Proof.Machine.execXtal32Start s
  | .xtal32Fail => Sys2Proof.Machine.execXtal32Fail s
  | .xtal40Fail => Sys2Proof.Machine.execXtal40Fail s
  | .pfwFall vbat => Sys2Proof.Machine.execPfwFall vbat s
  | .pfwRise vbat => Sys2Proof.Machine.execPfwRise vbat s
  | .crank x => Sys2Proof.Machine.execCrank x s
  | .hwRead o => Sys2Proof.Machine.execHwRead o s
  | .hwQuery o => Sys2Proof.Machine.execHwQuery o s
  | .updWrite o b => Sys2Proof.Machine.execUpdWrite o b s
  | .updArm o => Sys2Proof.Machine.execUpdArm o s
  | .updDisarm o => Sys2Proof.Machine.execUpdDisarm o s
  | .updQuery o => Sys2Proof.Machine.execUpdQuery o s
  | .updConfirm o => Sys2Proof.Machine.execUpdConfirm o s
  | .updReject o => Sys2Proof.Machine.execUpdReject o s
  | .updKeySet o b => Sys2Proof.Machine.execUpdKeySet o b s
  | .trialTimeout => Sys2Proof.Machine.execTrialTimeout s
  | .perfSet o => Sys2Proof.Machine.execPerfSet o s
  | .fabSet o => Sys2Proof.Machine.execFabSet o s
  | .perfRing o => Sys2Proof.Machine.execPerfRing o s
  | .perfSnap o => Sys2Proof.Machine.execPerfSnap o s
  | .perfSample => Sys2Proof.Machine.execPerfSample s
  | .pcCyclesLoRead e => Sys2Proof.Machine.execPcCyclesLoRead e s
  | .fabLoRead n => Sys2Proof.Machine.execFabLoRead n s
  | .ledgerLoRead n => Sys2Proof.Machine.execLedgerLoRead n s
  | .loadDieSupplyLow die x => Sys2Proof.Machine.execLoadDieSupplyLow die x s
  | .lsSupplyHigh x => Sys2Proof.Machine.execLsSupplyHigh x s
  | .supplyReturn x => Sys2Proof.Machine.execSupplyReturn x s
  | .dieOvertemp b t => Sys2Proof.Machine.execDieOvertemp b t s
  | .rootIslandSupplyLoss => Sys2Proof.Machine.execRootIslandSupplyLoss s
  | .busIntegrated n => Sys2Proof.Machine.execBusIntegrated n s
  | .receiveError n why eight => Sys2Proof.Machine.execReceiveError n why eight s
  | .linBusRecessive n => Sys2Proof.Machine.execLinBusRecessive n s
  | .nopInstruction x => Sys2Proof.Machine.execNopInstruction x s
  | .illegalInstruction x w => Sys2Proof.Machine.execIllegalInstruction x w s
  | .xtal40Retry runs => Sys2Proof.Machine.execXtal40Retry runs s
  | .barrierPowerReturn => Sys2Proof.Machine.execBarrierPowerReturn s
  | .bankSensePlausible b sense die => Sys2Proof.Machine.execBankSensePlausible b sense die s
  | .ovSlowEnd vCap => Sys2Proof.Machine.execOvSlowEnd vCap s
  | .xspiOperationEnd cs r => Sys2Proof.Machine.execXspiOperationEnd cs r s

end Sys2Proof.Machine
end

