-- ==== Sys2Proof/Machine/Tick.lean ====
section
/-! DEFINITION. What passes with time alone, on an empty queue (log entry 1, DESIGN CHOICE): DT and RT (R8), quiet engine cycles (R483),
the waits of rings (R490), new duties of bridges (R146), shadows and write buffers (R340, R368 to R371), hand-overs (R375, R377),
answers to host reads (R389), the steps of a start and of a park entry that no command names (R441, R448), turns of waiting
descriptors (R42, R49), conditions left (R21). -/

namespace Sys2Proof.Machine

/-- RT follows DT: one RT tick is 78,125/16 DT ticks (R8). -/
def rtFollows (s : State) : State :=
  let p := s.rtPhase + 16
  if 78125 ≤ p then { s with rt := (s.rt + 1) % 2 ^ 48, rtPhase := p - 78125 } else { s with rtPhase := p }

/-- Cycles of an engine in one DT tick (R432, R443, R483). -/
def cyclesPerTick (s : State) : Nat :=
  match s.pw.state with
  | .run => 4
  | .idle => 2
  | _ => 1

/-- Row 1 of R483: WAIT, a halt, a step of a hand-over that stops the engine. -/
def quietNow (s : State) (e : Fin 16) : Bool :=
  let g := eng s e
  let p := pair s (e / 2)
  engineClock s e && (g.waiting || g.halted || p.halted || (p.phase != .none && p.phase != .holding && p.phase != .ending))

/-- Quiet cycles of the engines. -/
def quietTick (s : State) : State :=
  (idxs 16).foldl (fun s (e : Fin 16) =>
    if quietNow s e then
      let g := eng s e
      slotCycles e (!isShadow s e) { slot := .quiet, n := cyclesPerTick s, o := { occurOf g g.pc with wait := g.waiting } } (cyclesPerTick s) s
    else s) s

/-- A ring waits (R490): a submission ring by R43 or R47, a completion/event ring for a credit. -/
def ringWaits (s : State) (n : Fin 64) (r : Ring) : Bool :=
  r.active && (if r.role then credits r == 0
    else 0 < sub32 r.db r.idx && (32 ≤ inFlight s n || 512 ≤ inFlightAll s || (match at? s.rings r.compRing with | some c => credits c == 0 | none => false)))

/-- One tick of RPC_WAIT. -/
def ringTick (s : State) : State := { s with rings := mapFin s.rings fun n r => if ringWaits s n r then { r with rpcWait := r.rpcWait + 1 } else r }

/-- The shadows execute what has had its lag (R368). -/
def followShadows (s : State) : State :=
  (List.range 8).foldl (fun s k =>
    let p := pair s k
    if p.split || p.trail.isEmpty || !engineClock s (2 * k) then s
    else runShadow k p.trail.length (setPair k (fun p => { p with past := p.past + cyclesPerTick s }) s)) s

/-- Stores in the write buffers complete (R340). -/
def drainBuffers (s : State) : State := (List.range 16).foldl (fun s e => drained e s) s

/-- Reads that the bridge has open (R389). -/
def openReads : Nat := 32

/-- One tick of the clocks: of DT while the fast clocks run, else of RT while the root island has its supply. -/
def clockTick (s : State) : State :=
  if s.pw.clocks then rtFollows { s with dt := (s.dt + 1) % 2 ^ 64 }
  else if s.pw.rootOn then { s with rt := (s.rt + 1) % 2 ^ 48 }
  else s

/-- What the digital die does as its time passes. -/
def dieTick (s : State) : State :=
  let s := advancePairs (drainBuffers (followShadows (ringTick (quietTick s))))
  let s := watchStalls (retireTurns (answerReads openReads s))
  markConditions (entryTick (startTick s))

/-- One tick. -/
def tick (s : State) : State :=
  let s := regTick (clockTick s)
  if s.pw.clocks then
    let s := dutyTick s
    if s.pw.dieOn then dieTick s else s
  else s

end Sys2Proof.Machine
end

