-- ==== Sys2Proof/Safety.lean ====
section
/-! DEFINITION. What counts as a safe run: no command stops the machine, and the invariants that its states keep. -/

namespace Sys2Proof.Safety

open Sys2Proof.Machine

/-- A step answers a next state. -/
def Runs (o : Out) : Prop := ∃ t, o = .next t

/-- A state from which a step answers a next state. -/
def SafeStep (s : State) : Prop := Runs (step s)

/-- Device time fits its 64 bits, root time its 48, the phase lies below one RT tick (R8). -/
def TimeFits (s : State) : Prop := s.dt < 2 ^ 64 ∧ s.rt < 2 ^ 48 ∧ s.rtPhase < 78125

/-- Shared SRAM and MRAM keep their canonical form. -/
def MemoryWf (s : State) : Prop := memWf s.sram = true ∧ memWf s.mram = true

/-- The engines' local RAM, as it stands and as shadows are to take it, the package slots and the programs' images keep their canonical form. -/
def ProgramMemoryWf (s : State) : Prop :=
  (∀ e : Fin 16, memWf s.eng[e].ram = true) ∧ (∀ k : Fin 256, memWf s.pkgs[k].bytes = true) ∧
  (∀ p ∈ s.stg.place.progs, ∀ m, p.image = some m → memWf m = true) ∧
  (∀ r, s.stg.run = some r → ∀ p ∈ r.place.progs, ∀ m, p.image = some m → memWf m = true) ∧
  (∀ (k : Fin 8), ∀ x ∈ s.pairs[k].trail, memWf x.after.ram = true)

/-- Staged, stored and acting tables keep their canonical form. -/
def TablesWf (s : State) : Prop :=
  (∀ (i : Fin 16) (x : Staged), s.stg.staged[i] = some x → memWf x.bytes = true) ∧
  (∀ (c : Fin 2) (i : Fin 16), memWf s.stg.copies[c].tables[i] = true) ∧ (∀ i : Fin 16, memWf s.stg.tables[i] = true) ∧
  (∀ r, s.stg.run = some r → ∀ i : Fin 16, memWf r.newSet[i] = true)

/-! ### Where a command completes -/

/-- The digital die runs, the oldest unstarted descriptor of `o` has opcode `op`, no fence holds it (R37, R42), and it
passes the checks of R40. -/
abbrev Took (s : State) (o : Origin) (op : Nat) (form : State → Desc → OpForm) (d : Desc) : Prop :=
  s.pw.dieOn = true ∧ headOf s o = some d ∧ d.opcode = op ∧ mayStart s o d = true ∧ judge s d (form s d) = none

/-- The state in which a descriptor that has passed the checks has its effect: it has left its origin and joined the
started ones (R42), and its session's idle time starts anew (R83). -/
def begun (o : Origin) (d : Desc) (form : State → Desc → OpForm) (s : State) : State :=
  let t := startRun d (popHead o s)
  if (form s d).session && !d.task then touchSession d.session t else t

/-- The operations with a block: the block of bytes 16-23 and PLEN, or the source of XSPI_WRITE. -/
def blockOp : Instr → Option (Origin × BlockStep × Nat × BlockPlace × (State → Desc → OpForm))
  | .stageWrite o b => some (o, b, 0x0100, paramBlock, stageWriteForm)
  | .keyWrite o b => some (o, b, 0x1C05, paramBlock, keyWriteForm)
  | .pkgWrite o b => some (o, b, 0x2000, paramBlock, pkgWriteForm)
  | .updWrite o b => some (o, b, 0x3810, paramBlock, updWriteForm)
  | .updKeySet o b => some (o, b, 0x3816, paramBlock, updKeySetForm)
  | .xspiWrite o b => some (o, b, 0x2802, xspiSource, xspiForm 2)
  | .canTx o b => some (o, b, 0x1800, paramBlock, canTxForm)
  | _ => none

/-- The command answers `t`, after the unknown opcodes that stand next at the origin have completed (R40); a block whose
descriptor has started is wanted no more (R397). -/
def Ends (c : Instr) (s : State) (o : Origin) (t : State) : Prop :=
  exec c s = .next (if (blockOp c).isSome then clearBlock o s (retireUnknown o pipeMax t) else retireUnknown o pipeMax t)

/-- A descriptor's block has come whole. -/
abbrev BlockHere (o : Origin) (d : Desc) (form : State → Desc → OpForm) (place : BlockPlace) (s : State) (bs : List Byte) (t : State) : Prop :=
  blockThere o place s d = true ∧
  (let u := begun o d form s; blockBytes o (place u d).1 (place u d).2.1 (place u d).2.2 u = (some bs, t))

/-- A read of it has failed, or the link is down. -/
abbrev BlockFailed (o : Origin) (d : Desc) (form : State → Desc → OpForm) (place : BlockPlace) (s t : State) : Prop :=
  blockThere o place s d = true ∧
  (let u := begun o d form s; blockBytes o (place u d).1 (place u d).2.1 (place u d).2.2 u = (none, t))

/-- An instruction is reached by its engine: the engine executes, the fetch does not trap, the instruction stands at PC, and
R359 and R360 allow it there. -/
abbrev Fetched (s : State) (x : Issue) (k : Kind) : Prop :=
  issues s x.engine = true ∧ fetchTrap s x k = none ∧ codeAt s x.engine k = true ∧ misplaced (eng s x.engine) k = false

/-- What an instruction starts from: the state, no cost. -/
def start (s : State) : Cx := { s := s }

/-- An instruction of `s` has completed, going on at `a`, from where its effect has brought it (R340, R348, R489). -/
def ended (x : Issue) (k : Kind) (a : After) (s : State) (c : Cx) : State := complete x k a (eng s x.engine) c.cost (fillPorts x c.s)

/-- An instruction of `s` has trapped; `pc` is saved (R348). -/
def trapped (x : Issue) (k : Kind) (cause code : Nat) (addr : Option Nat) (pc : Word) (v dz : Bool) (cost : Cost) (s : State) : State :=
  takeTrap x cause code addr pc (trapCycles x cost (b2n (usesLoad (eng s x.engine) k))) (setEng x.engine (stick v dz) (fillPorts x s))

/-- A trap that names the instruction and sets nothing (R348). -/
def trapsHere (x : Issue) (k : Kind) (cause : Nat) (addr : Option Nat) (cost : Cost) (s : State) : State :=
  trapped x k cause 0 addr (savedPc (eng s x.engine)) false false cost s

/-- A register has been written, which lane 0 compares (R370). -/
def wrote (e : Nat) (d : RegCode) (v : Word) (c : Cx) : Cx :=
  { c with s := setEng e (wrReg d v) c.s, cost := { c.cost with items := c.cost.items ++ [regItem d v] } }

/-- Further cycles have been spent (R351). -/
def spent (n : Nat) (c : Cx) : Cx := { c with cost := { c.cost with extra := n } }

/-- Flags after an arithmetic result (R354): V and DZ sticky, C where the instruction writes it. -/
def aluFlags (r : Alu) (g : Eng) : Eng :=
  match r.c with
  | some c => setSw swC c (stick r.v r.dz g)
  | none => stick r.v r.dz g

/-- An arithmetic result that no trap bars (R345, R354). -/
abbrev AluFree (g : Eng) (d : RegCode) (r : Alu) : Prop :=
  (r.v = true → swBit g swOvTrap = false) ∧ (r.dz = true → swBit g swDzTrap = false) ∧ (d = 3 → (stkLim g).toNat ≤ r.val.toNat)

/-- A register instruction: who issues it, its shape and cost, where its result goes, and the result. -/
structure AluForm where
  x : Issue
  k : Kind
  cost : Cost := {}
  d : RegCode
  res : Alu

/-- D = f(S, T), with the carry, in one cycle: ALU function `fn`. -/
def aluBin (fn : Nat) (s : State) (x : Issue) (d r t : RegCode) (f : Word → Word → Bool → Alu) : AluForm :=
  let g := eng s x.engine
  { x := x, k := binKind fn d r t, d := d, res := f (rdReg g r) (rdReg g t) (swBit g swC) }
/-- D = f(S), in one cycle, by the word given. -/
def aluUn (w : Word) (s : State) (x : Issue) (d r : RegCode) (f : Word → Alu) : AluForm :=
  { x := x, k := regKind w [r], d := d, res := f (rdReg (eng s x.engine) r) }
/-- D = f(S, T) by MULDIV function `fn`, in `n` cycles. -/
def aluMulDiv (fn n : Nat) (s : State) (x : Issue) (d r t : RegCode) (f : Word → Word → Alu) : AluForm :=
  { aluBin fn s x d r t (fun a b _ => f a b) with k := mulKind fn d r t, cost := { extra := n - 1, muldiv := n - 1 } }

/-- The register instructions and their results: R351 (immediates), R352 (ALU, MULDIV), R353 (comparisons, which write
only G0 to G7), R354 (flags). -/
def aluOf (s : State) : Instr → Option AluForm
  | .add x d r t => some (aluBin 0x00 s x d r t fun a b _ => aluAdd a b false)
  | .sub x d r t => some (aluBin 0x01 s x d r t fun a b _ => aluSub a b false)
  | .adc x d r t => some (aluBin 0x02 s x d r t fun a b c => aluAdd a b c)
  | .sbc x d r t => some (aluBin 0x03 s x d r t fun a b c => aluSub a b c)
  | .and x d r t => some (aluBin 0x04 s x d r t fun a b _ => { val := a &&& b })
  | .or x d r t => some (aluBin 0x05 s x d r t fun a b _ => { val := a ||| b })
  | .xor x d r t => some (aluBin 0x06 s x d r t fun a b _ => { val := a ^^^ b })
  | .min x d r t => some (aluBin 0x0B s x d r t fun a b _ => { val := wMin a b })
  | .max x d r t => some (aluBin 0x0C s x d r t fun a b _ => { val := wMax a b })
  | .minu x d r t => some (aluBin 0x0D s x d r t fun a b _ => { val := wMinU a b })
  | .maxu x d r t => some (aluBin 0x0E s x d r t fun a b _ => { val := wMaxU a b })
  | .shl x d r t => some (aluBin 0x13 s x d r t fun a b _ => { val := wShift .shl a (b.toNat % 64) })
  | .shr x d r t => some (aluBin 0x14 s x d r t fun a b _ => { val := wShift .shr a (b.toNat % 64) })
  | .sar x d r t => some (aluBin 0x15 s x d r t fun a b _ => { val := wShift .sar a (b.toNat % 64) })
  | .rol x d r t => some (aluBin 0x16 s x d r t fun a b _ => { val := wShift .rol a (b.toNat % 64) })
  | .ror x d r t => some (aluBin 0x17 s x d r t fun a b _ => { val := wShift .ror a (b.toNat % 64) })
  | .not x d r => some (aluUn (aluWord 0x07 d r) s x d r fun a => { val := ~~~a })
  | .neg x d r => some (aluUn (aluWord 0x08 d r) s x d r aluNeg)
  | .abs x d r => some (aluUn (aluWord 0x09 d r) s x d r aluAbs)
  | .mov x d r => some (aluUn (aluWord 0x0A d r) s x d r fun a => { val := a })
  | .clz x d r => some (aluUn (aluWord 0x0F d r) s x d r fun a => { val := wClz a })
  | .popc x d r => some (aluUn (aluWord 0x10 d r) s x d r fun a => { val := wPopc a })
  | .sxb x d r => some (aluUn (aluWord 0x11 d r) s x d r fun a => { val := wSxb a })
  | .sxh x d r => some (aluUn (aluWord 0x12 d r) s x d r fun a => { val := wSxh a })
  | .mul x d r t => some (aluMulDiv 0 3 s x d r t aluMul)
  | .mulh x d r t => some (aluMulDiv 1 3 s x d r t fun a b => { val := wMulh a b })
  | .mulhu x d r t => some (aluMulDiv 2 3 s x d r t fun a b => { val := wMulhu a b })
  | .div x d r t => some (aluMulDiv 3 20 s x d r t aluDiv)
  | .divu x d r t => some (aluMulDiv 4 20 s x d r t aluDivU)
  | .rem x d r t => some (aluMulDiv 5 20 s x d r t aluRem)
  | .remu x d r t => some (aluMulDiv 6 20 s x d r t aluRemU)
  | .addi x d r imm => some (aluUn (wordI 0x01 d r imm) s x d r fun a => aluAdd a (imm.signExtend 32) false)
  | .andi x d r imm => some (aluUn (wordI 0x02 d r imm) s x d r fun a => { val := a &&& imm.zeroExtend 32 })
  | .ori x d r imm => some (aluUn (wordI 0x03 d r imm) s x d r fun a => { val := a ||| imm.zeroExtend 32 })
  | .xori x d r imm => some (aluUn (wordI 0x04 d r imm) s x d r fun a => { val := a ^^^ imm.zeroExtend 32 })
  | .ldi x d imm => some { x := x, k := ldiKind d imm, d := d, res := { val := imm.signExtend 32 } }
  | .ldl x d ext => some { x := x, k := ldlKind d ext, cost := { extra := 1 }, d := d, res := { val := ext } }
  | .shi x d r kind amount => some (aluUn (wordH d r kind amount) s x d r fun a => { val := wShift kind a amount.toNat })
  | .cmp x d r t c => if isG d then some { aluBin 0 s x d r t (fun a b _ => { val := wBool (condHolds c a b) }) with k := cmpKind d r t c } else none
  | .cmpi x d r c imm => if isG d then some (aluUn (wordC d r c imm) s x d r fun a => { val := wBool (condHolds c a (imm.signExtend 32)) }) else none
  | _ => none

/-- An arithmetic result has been put: D, then SW (R354, R370). -/
def aluPut (e : Nat) (d : RegCode) (r : Alu) (c : Cx) : Cx := let c := wrote e d r.val c; { c with s := setEng e (aluFlags r) c.s }

/-- A base that an addressing mode has updated (R350). -/
def based (e : Nat) (b : RegCode) (v : Option Word) (c : Cx) : Cx := match v with | some v => wrote e b v c | none => c

/-! ### Families of commands, and what a family leaves as it is -/

/-- The families of the command table, by the files of spec/. -/
inductive Family where
  /-- Rings, register accesses (files 01, 02). -/
  | ring
  /-- Staging and commit (file 03). -/
  | staging
  /-- Sessions and heartwood (files 03, 19). -/
  | session
  /-- Load channels (file 04). -/
  | load
  /-- Wire fusing (file 05). -/
  | wire
  /-- Bridges (file 06). -/
  | bridge
  /-- Valves (file 07). -/
  | valve
  /-- Switch inputs (file 08). -/
  | switch
  /-- Body-builder I/O (file 09). -/
  | field
  /-- CAN FD (file 10). -/
  | can
  /-- LIN and gateway (file 11). -/
  | lin
  /-- Network sleep (file 12). -/
  | sleep
  /-- Access and immobiliser (file 13). -/
  | access
  /-- Pairs (file 15). -/
  | pair
  /-- Host bridge (file 16). -/
  | bridgeHost
  /-- Faults (file 17). -/
  | fault
  /-- Power states (file 18). -/
  | power
  /-- Grafting (file 19). -/
  | update
  /-- Performance counters (file 20). -/
  | perf
  /-- Start-up and supplies (files 01, 05, 18, 21). -/
  | start
  /-- Engines (file 14). -/
  | engine
deriving DecidableEq, Repr

/-- The family of a command. -/
def family : Instr → Family
  | .doorbellWrite .. | .ringStart .. | .ringStop .. | .ringStopped .. | .ringSetupWrite .. | .descriptorFetch ..
  | .irqTimerExpiry .. | .stallTimeout .. | .nop .. | .echo .. | .placementQuery .. | .registerWrite ..
  | .readClear .. | .hostRead .. => .ring
  | .stageWrite .. | .stageLoad .. | .stageDiscard .. | .stageQuery .. | .stgDataWrite .. | .autoCommit ..
  | .stgCtrlCommit .. | .stgCtrlCheck .. | .stgCtrlDiscard .. | .commitCheck .. | .commit ..
  | .checkAndPlacementComplete .. | .newSetHeld .. | .commitTick .. | .mramMarkCommitted .. => .staging
  | .sessionChallenge .. | .sessionOpen .. | .sessionClose .. | .challengeExpiry .. | .sessionLockExpiry ..
  | .sessionExpiry .. | .runtimeSessionOpen .. | .heartwoodRecordWrite .. | .hwRead .. | .hwQuery .. => .session
  | .lchSet .. | .lchTimed .. | .lchSetMask .. | .lchQuery .. | .heatQuery .. | .timedEnd .. | .leafStepUp ..
  | .leafStepDown .. | .pwmPeriodStart .. | .inrushEnd .. | .preheatEnd .. | .budgetAllocation .. | .gangImbalance ..
  | .bankSenseImplausible .. | .cpFreezeEnd .. | .bankSensePlausible .. => .load
  | .wireModelUpdate .. | .restartCountReset .. | .heatSnapshot .. | .ambientStale .. | .shortCircuitLimit ..
  | .envelopeTrip .. | .switchOvertemp .. | .onStateDiagnosis .. | .reverseCurrent .. | .offStateDiagnosis ..
  | .protClear .. | .wireQuery .. | .wireAmbient .. | .diagRun .. => .wire
  | .brDrive .. | .brMove .. | .brPulse .. | .wiperSet .. | .brQuery .. | .brPosSet .. | .hbSet .. | .hbDiagRun ..
  | .brakeEnd .. | .peakTimeTrip .. | .hbShortCircuit .. | .hbOvertemp .. | .hbHeldClear .. | .ripple ..
  | .pinchArm .. | .backEmfCountEnd .. | .stall .. | .wiperParked .. | .wiperInterval .. | .parkTimeout ..
  | .driveTimeout .. | .pulseEnd .. | .hbOffStateDiagnosis .. | .hbOnStateOpenLoad .. => .bridge
  | .vlvFire .. | .vlvRelease .. | .vlvPeriodic .. | .vlvQuery .. | .boostSet .. | .ledgerQuery .. | .vlvDiagRun ..
  | .fireRequestedStart .. | .slotGrant .. | .deferTimeout .. | .peakReached .. | .boostTimeout .. | .peakEnd ..
  | .decayEnd .. | .holdEnd .. | .valveOff .. | .releaseTimeout .. | .periodicFiring .. | .prechargeDone ..
  | .measureDone .. | .boostReady .. | .boostSuspend .. | .boostResume .. | .boostConverterFault ..
  | .boostOvervoltage .. | .ledgerWindow .. | .valveShortCircuit .. | .valveHeldClear .. | .valveOffStateDiagnosis ..
  | .valveOnStateDiagnosis .. | .ledgerLoRead .. | .ovSlowEnd .. => .valve
  | .isSupplyLow .. | .isSupplyReturn .. | .cleaningPulseEnd .. | .ladderInvalid .. | .swiStuck .. | .poll ..
  | .wetThermal .. | .swiQuery .. | .swiSnapshot .. | .swiClean .. => .switch
  | .fioSet .. | .fioQuery .. | .fioSnapshot .. | .fioClear .. | .fsQuery .. | .fsSupplyLow .. | .fsSupplyHigh ..
  | .fsSupplyNormal .. | .barrierPowerFail .. | .fioWire .. | .fioChange .. | .edgeQueueDelivery .. | .fioProt ..
  | .fioRestart .. | .fioCountReset .. | .fioDiag .. | .silenceTimeout .. | .fsSilence .. | .barrierPowerReturn .. => .field
  | .diagnosticRequest .. | .canTx .. | .canTxCancel .. | .canQuery .. | .canRecover .. | .canQueueQuery ..
  | .frameReceived .. | .frameRecordWrite .. | .arbitrationStart .. | .frameTransmitted .. | .transmitAttemptFailed ..
  | .cancelErrorFlag .. | .txTimeout .. | .busoffHoldExpiry .. | .busoffRecoveryComplete .. | .txdDominant ..
  | .busIntegrated .. | .receiveError .. => .can
  | .linWrite .. | .linSched .. | .linDiagReq .. | .linQuery .. | .gwIsolate .. | .gwRouteQuery .. | .linSlotStart ..
  | .linRx .. | .linErr .. | .linBusDominant .. | .gatewayBufferAssign .. | .gatewayMaxAge .. | .gwDrop ..
  | .linBusRecessive .. => .lin
  | .netSleep .. | .netWake .. | .netListen .. | .netQuery .. | .drainEnd .. | .segmentCommit .. | .agreeTimeout ..
  | .wakeUpPattern .. | .wakeUpFrame .. | .decoderErrorCount .. | .decoderSilence .. | .linWake .. | .segmentAwake ..
  | .netAnnounce .. | .maxAwake .. => .sleep
  | .debounceComplete .. | .tokenSearch .. | .releaseStart .. | .releaseEnd .. | .tokenRead .. | .tokenWrite ..
  | .keyWrite .. | .keyQuery .. | .fieldStart .. | .wup .. | .halt .. | .authA .. | .authB .. | .read .. | .write ..
  | .tokenAnswer .. | .releaseFrame .. | .releaseSessionTimeout .. => .access
  | .pairMismatch .. | .pkgWrite .. | .pkgErase .. | .pkgQuery .. | .pairSplit .. | .pairMerge .. | .pairQuery ..
  | .mergeCopyDone .. | .mergeSelftestDone .. => .pair
  | .hostLinkTimeout .. | .hostLinkUp .. | .hbQuery .. | .xspiRead .. | .xspiWrite .. | .xspiErase .. | .xspiQuery ..
  | .xspiNoAnswer .. | .readCompletion .. | .tagTimeout .. | .tagQuarantineEnd .. | .delayedReadDiscard ..
  | .hostLinkLoss .. | .msixUnmask .. | .xspiOperationEnd .. => .bridgeHost
  | .faultQuery .. | .faultAck .. | .faultReset .. | .faultInject .. | .faultRaise .. | .heartbeat ..
  | .runtimeWatchdog .. | .recoveryEnd .. => .fault
  | .powerSet .. | .powerQuery .. | .alarmSet .. | .entryHandshakeAnswer .. | .entryTimeout .. | .entryComplete ..
  | .standbyExit .. | .voutAcknowledge .. | .pmbusNoAck .. | .pmAlert .. | .wakeLatch .. | .rootTimerWake ..
  | .perstNWake .. | .wakeNRelease .. | .regulatorRetry .. | .xtal32Start .. | .xtal32Fail .. | .xtal40Fail ..
  | .pfwFall .. | .pfwRise .. | .crank .. => .power
  | .updWrite .. | .updArm .. | .updDisarm .. | .updQuery .. | .updConfirm .. | .updReject .. | .updKeySet ..
  | .trialTimeout .. => .update
  | .perfSet .. | .fabSet .. | .perfRing .. | .perfSnap .. | .perfSample .. | .pcCyclesLoRead .. | .fabLoRead .. => .perf
  | .rootIslandPowerOn .. | .digitalDieStart .. | .graftBlock .. | .safeEntriesDelivered .. | .linkFailure ..
  | .linkReturn .. | .deviceReset .. | .vcoreBrownout .. | .rootIslandSupplyLoss .. | .loadDieSupplyLow ..
  | .lsSupplyHigh .. | .supplyReturn .. | .dieOvertemp .. | .xtal40Retry .. => .start
  | .add .. | .sub .. | .adc .. | .sbc .. | .and .. | .or .. | .xor .. | .not .. | .neg .. | .abs .. | .mov ..
  | .min .. | .max .. | .minu .. | .maxu .. | .clz .. | .popc .. | .sxb .. | .sxh .. | .shl .. | .shr .. | .sar ..
  | .rol .. | .ror .. | .mul .. | .mulh .. | .mulhu .. | .div .. | .divu .. | .rem .. | .remu .. | .addi .. | .andi ..
  | .ori .. | .xori .. | .ldi .. | .ldl .. | .shi .. | .cmp .. | .cmpi .. | .ld .. | .st .. | .lea .. | .pushm ..
  | .popm .. | .movs .. | .xchg .. | .cas .. | .br .. | .bz .. | .bnz .. | .jr .. | .call .. | .callx .. | .callr ..
  | .ret .. | .loop .. | .loopi .. | .leave .. | .rep .. | .interruptEntry .. | .handlerDispatch ..
  | .handlerCycleBudgetExceeded .. | .inboundQueueDelivery .. | .localTimer .. | .fence .. | .send .. | .recv ..
  | .wait .. | .yield .. | .trap .. | .mfs .. | .mts .. | .reti .. | .nopInstruction .. | .illegalInstruction .. => .engine

/-- A descriptor operation that only answers. -/
def isQuery : Instr → Bool
  | .nop .. | .echo .. | .placementQuery .. | .lchQuery .. | .heatQuery .. | .wireQuery ..
  | .brQuery .. | .vlvQuery .. | .ledgerQuery .. | .swiQuery .. | .swiSnapshot .. | .fioSnapshot .. | .canQuery ..
  | .canQueueQuery .. | .linQuery .. | .gwRouteQuery .. | .netQuery .. | .keyQuery .. | .pkgQuery .. | .pairQuery ..
  | .faultQuery .. | .powerQuery .. | .hwRead .. | .hwQuery .. | .updQuery .. | .hbQuery .. | .xspiQuery .. => true
  | _ => false

/-- The descriptor operations: where the descriptor stands, its opcode, what is asked of it. -/
def descOp : Instr → Option (Origin × Nat × (State → Desc → OpForm))
  | .nop o => some (o, 0x0000, nopForm)
  | .echo o => some (o, 0x0001, echoForm)
  | .placementQuery o => some (o, 0x0002, placementQueryForm)
  | .stageWrite o .run => some (o, 0x0100, stageWriteForm)
  | .stageLoad o => some (o, 0x0101, stageLoadForm)
  | .stageDiscard o => some (o, 0x0102, stageDiscardForm)
  | .stageQuery o => some (o, 0x0103, stageQueryForm)
  | .commitCheck o => some (o, 0x0200, commitCheckForm)
  | .commit o => some (o, 0x0201, commitForm)
  | .sessionChallenge o => some (o, 0x0210, sessionChallengeForm)
  | .sessionOpen o => some (o, 0x0211, sessionOpenForm)
  | .sessionClose o => some (o, 0x0212, sessionCloseForm)
  | .lchSet o => some (o, 0x1000, lchSetForm)
  | .lchTimed o => some (o, 0x1001, lchTimedForm)
  | .lchSetMask o => some (o, 0x1002, lchSetMaskForm)
  | .lchQuery o => some (o, 0x1003, lchQueryForm)
  | .heatQuery o => some (o, 0x1004, heatQueryForm)
  | .protClear o => some (o, 0x1020, protClearForm)
  | .wireQuery o => some (o, 0x1021, wireQueryForm)
  | .wireAmbient o => some (o, 0x1022, wireAmbientForm)
  | .diagRun o _ _ => some (o, 0x1023, diagRunForm)
  | .brDrive o => some (o, 0x1100, brDriveForm)
  | .brMove o => some (o, 0x1101, brMoveForm)
  | .brPulse o => some (o, 0x1102, brPulseForm)
  | .wiperSet o => some (o, 0x1103, wiperSetForm)
  | .brQuery o => some (o, 0x1104, brQueryForm)
  | .brPosSet o => some (o, 0x1105, brPosSetForm)
  | .hbSet o => some (o, 0x1106, hbSetForm)
  | .hbDiagRun o _ _ _ => some (o, 0x1107, hbDiagRunForm)
  | .vlvFire o => some (o, 0x1200, vlvFireForm)
  | .vlvRelease o => some (o, 0x1201, vlvReleaseForm)
  | .vlvPeriodic o => some (o, 0x1202, vlvPeriodicForm)
  | .vlvQuery o => some (o, 0x1203, vlvQueryForm)
  | .boostSet o => some (o, 0x1204, boostSetForm)
  | .ledgerQuery o => some (o, 0x1205, ledgerQueryForm)
  | .vlvDiagRun o _ => some (o, 0x1206, vlvDiagRunForm)
  | .swiQuery o => some (o, 0x1300, swiQueryForm)
  | .swiSnapshot o => some (o, 0x1301, swiSnapshotForm)
  | .swiClean o => some (o, 0x1302, swiCleanForm)
  | .fioSet o _ => some (o, 0x1400, fioSetForm)
  | .fioQuery o _ _ => some (o, 0x1401, fioQueryForm)
  | .fioSnapshot o => some (o, 0x1402, fioSnapshotForm)
  | .fioClear o => some (o, 0x1403, fioClearForm)
  | .fsQuery o _ _ => some (o, 0x1404, fsQueryForm)
  | .canTxCancel o => some (o, 0x1801, canTxCancelForm)
  | .canQuery o => some (o, 0x1802, canQueryForm)
  | .canRecover o => some (o, 0x1803, canRecoverForm)
  | .canQueueQuery o => some (o, 0x1804, canQueueQueryForm)
  | .linWrite o => some (o, 0x1900, linWriteForm)
  | .linSched o => some (o, 0x1901, linSchedForm)
  | .linDiagReq o => some (o, 0x1902, linDiagReqForm)
  | .linQuery o => some (o, 0x1903, linQueryForm)
  | .gwIsolate o => some (o, 0x1904, gwIsolateForm)
  | .gwRouteQuery o => some (o, 0x1905, gwRouteQueryForm)
  | .netSleep o => some (o, 0x1A00, netSleepForm)
  | .netWake o => some (o, 0x1A01, netWakeForm)
  | .netListen o => some (o, 0x1A02, netListenForm)
  | .netQuery o => some (o, 0x1A03, netQueryForm)
  | .releaseEnd o => some (o, 0x1C02, releaseEndForm)
  | .keyWrite o .run => some (o, 0x1C05, keyWriteForm)
  | .keyQuery o => some (o, 0x1C06, keyQueryForm)
  | .pkgWrite o .run => some (o, 0x2000, pkgWriteForm)
  | .pkgErase o => some (o, 0x2001, pkgEraseForm)
  | .pkgQuery o => some (o, 0x2002, pkgQueryForm)
  | .pairSplit o => some (o, 0x2003, pairSplitForm)
  | .pairMerge o => some (o, 0x2004, pairMergeForm)
  | .pairQuery o => some (o, 0x2005, pairQueryForm)
  | .hbQuery o => some (o, 0x2800, hbQueryForm)
  | .xspiQuery o => some (o, 0x2804, xspiQueryForm)
  | .faultQuery o => some (o, 0x3000, faultQueryForm)
  | .faultAck o => some (o, 0x3001, faultAckForm)
  | .faultReset o _ => some (o, 0x3002, faultResetForm)
  | .faultInject o => some (o, 0x3003, faultInjectForm)
  | .powerSet o => some (o, 0x3100, powerSetForm)
  | .powerQuery o => some (o, 0x3101, powerQueryForm)
  | .alarmSet o => some (o, 0x3102, alarmSetForm)
  | .hwRead o => some (o, 0x3800, hwReadForm)
  | .hwQuery o => some (o, 0x3801, hwQueryForm)
  | .updWrite o .run => some (o, 0x3810, updWriteForm)
  | .updArm o => some (o, 0x3811, updArmForm)
  | .updDisarm o => some (o, 0x3812, updDisarmForm)
  | .updQuery o => some (o, 0x3813, updQueryForm)
  | .updConfirm o => some (o, 0x3814, updConfirmForm)
  | .updReject o => some (o, 0x3815, updRejectForm)
  | .updKeySet o .run => some (o, 0x3816, updKeySetForm)
  | .perfSet o => some (o, 0x3C00, perfSetForm)
  | .fabSet o => some (o, 0x3C01, fabSetForm)
  | .perfRing o => some (o, 0x3C02, perfRingForm)
  | .perfSnap o => some (o, 0x3C03, perfSnapForm)
  | .tokenSearch o => some (o, 0x1C00, tokenSearchForm)
  | .releaseStart o => some (o, 0x1C01, releaseStartForm)
  | .tokenRead o => some (o, 0x1C03, tokenReadForm)
  | .tokenWrite o => some (o, 0x1C04, tokenWriteForm)
  | .xspiRead o => some (o, 0x2801, xspiForm 1)
  | .xspiWrite o .run => some (o, 0x2802, xspiForm 2)
  | .xspiErase o => some (o, 0x2803, xspiForm 3)
  | .canTx o .run => some (o, 0x1800, canTxForm)
  | _ => none

/-- Parts of the state that a frame names. -/
inductive Part where
  /-- The waiting commands. -/
  | queue
  /-- DT, RT and the phase between them. -/
  | time
  /-- Rings, descriptors on their way, records and data on their way, shared SRAM. -/
  | records
  /-- Sessions open, challenges, failures, locks; not when a session was last named. -/
  | ses
  | stg
  | mram
  | flt
  | pw
  | hw
  | upd
  | keys
  | ld
  | hbs
  | vs
  | sw
  | fs
  | ns
  | acc
  /-- The engines with their write buffers. -/
  | eng
  | pairs
  | pkgs
  /-- Links that are down, dies that hold SAFE entries. -/
  | links
deriving DecidableEq, Repr

/-- A session number but for the time at which it was last named. -/
def sesView (x : Ses) : Bool × Option (Nat × Nat) × Nat × Option Nat := (x.isOpen, x.challenge, x.fails, x.lockEnd)

/-- A part is the same in two states. -/
def Same (s t : State) : Part → Prop
  | .queue => t.pending = s.pending
  | .time => t.dt = s.dt ∧ t.rt = s.rt ∧ t.rtPhase = s.rtPhase
  | .records => t.sram = s.sram ∧ t.rings = s.rings ∧ t.started = s.started ∧ t.nextUid = s.nextUid ∧ t.engPipe = s.engPipe ∧
      t.diagPipe = s.diagPipe ∧ t.diagAnswer = s.diagAnswer ∧ t.out = s.out ∧ t.transit = s.transit
  | .ses => ∀ n : Fin 4, sesView t.ses[n] = sesView s.ses[n]
  | .stg => t.stg = s.stg
  | .mram => t.mram = s.mram
  | .flt => t.flt = s.flt
  | .pw => t.pw = s.pw
  | .hw => t.hw = s.hw
  | .upd => t.upd = s.upd
  | .keys => t.keys = s.keys
  | .ld => t.ld = s.ld
  | .hbs => t.hbs = s.hbs
  | .vs => t.vs = s.vs
  | .sw => t.sw = s.sw
  | .fs => t.fs = s.fs
  | .ns => t.ns = s.ns
  | .acc => t.acc = s.acc
  | .eng => t.eng = s.eng ∧ t.wbufs = s.wbufs
  | .pairs => t.pairs = s.pairs
  | .pkgs => t.pkgs = s.pkgs
  | .links => t.linkDown = s.linkDown ∧ t.safeHere = s.safeHere

/-- Every part but the named ones is the same. -/
def KeepsBut (may : List Part) (s t : State) : Prop := ∀ p : Part, p ∉ may → Same s t p

/-- The commands of some families change no part but the named ones. -/
def FamilyFrame (fs : List Family) (may : List Part) : Prop :=
  ∀ (c : Instr) (s t : State), family c ∈ fs → exec c s = .next t → KeepsBut may s t

/-- A command that sends nothing, starts no descriptor and ends none. -/
def isSilent : Instr → Bool
  | .rootIslandPowerOn .. | .hostLinkTimeout .. | .autoCommit .. | .readClear .. | .stgDataWrite ..
  | .stgCtrlCommit .. | .stgCtrlCheck .. | .stgCtrlDiscard .. | .challengeExpiry .. | .sessionLockExpiry ..
  | .sessionExpiry .. | .runtimeSessionOpen .. | .leafStepUp .. | .leafStepDown .. | .inrushEnd .. | .preheatEnd ..
  | .gangImbalance .. | .bankSenseImplausible .. | .cpFreezeEnd .. | .heatSnapshot .. | .ambientStale ..
  | .hbHeldClear .. | .pinchArm .. | .backEmfCountEnd .. | .stall .. | .pulseEnd ..
  | .slotGrant .. | .peakEnd .. | .releaseTimeout .. | .boostOvervoltage .. | .ledgerWindow .. | .valveHeldClear ..
  | .isSupplyLow .. | .isSupplyReturn .. | .poll .. | .barrierPowerFail ..
  | .fioRestart .. | .fioCountReset .. | .silenceTimeout .. | .arbitrationStart .. | .busoffHoldExpiry ..
  | .txdDominant .. | .linBusDominant .. | .gatewayBufferAssign .. | .gatewayMaxAge .. | .decoderSilence .. | .wup ..
  | .authA .. | .authB .. | .read .. | .write .. | .localTimer .. | .mergeCopyDone ..
  | .delayedReadDiscard .. | .heartbeat .. | .recoveryEnd .. | .standbyExit .. | .pmAlert .. | .wakeLatch ..
  | .rootTimerWake .. | .perstNWake .. | .wakeNRelease .. | .regulatorRetry .. | .xtal32Start .. | .xtal32Fail ..
  | .crank .. | .trialTimeout .. | .pcCyclesLoRead .. | .fabLoRead .. | .ledgerLoRead ..
  | .busIntegrated .. | .linBusRecessive .. | .barrierPowerReturn .. | .bankSensePlausible ..
  | .ovSlowEnd .. => true
  | _ => false

/-- A command that may write shared SRAM of a hosted device: an instruction, a copy into a buffer, the shadow's steps up to
a mismatch, a loss or return of the digital die's supply. -/
def mayWriteSram (c : Instr) : Bool :=
  family c == .engine || match c with
  | .placementQuery .. | .hwRead .. | .perfSnap .. | .xspiOperationEnd .. | .pairMismatch .. | .entryComplete .. | .deviceReset ..
  | .vcoreBrownout .. | .rootIslandSupplyLoss .. | .digitalDieStart .. => true
  | _ => false

end Sys2Proof.Safety
end

