-- ==== Sys2Proof/Certificates/Slice0/Obligations.lean ====
section
/-! DEFINITION. The statements for the provers. -/

open Sys2Proof Sys2Proof.Machine Sys2Proof.Safety

/-- For every command c and state s whose queue begins with c, step of s is exec of c on s with the rest of the queue
(the queue is the model's own). (01_device_at_a_glance.md; opcode_table.json) -/
def Obligations.StepRunsFrontCommand : Prop :=
  ∀ (c : Instr) (rest : List Instr) (s : State), s.pending = c :: rest → step s = exec c { s with pending := rest }

/-- On an empty queue the step answers a next state with an empty queue; with the fast clocks on, DT rises by 1 modulo
2^64 and RT follows at one tick per 78,125/16 DT ticks modulo 2^48; with them off, DT stands and RT rises by 1 while
the root island has its supply. That an idle step is one tick is the model's choice (log entry 1). (R8 of 00_scope.md) -/
def Obligations.IdleStepCountsTime : Prop :=
  ∀ s : State, s.pending = [] → ∃ t, step s = .next t ∧ t.pending = [] ∧
    (s.pw.clocks = true → t.dt = (s.dt + 1) % 2 ^ 64 ∧
      t.rt = (if 78125 ≤ s.rtPhase + 16 then (s.rt + 1) % 2 ^ 48 else s.rt) ∧
      t.rtPhase + (if 78125 ≤ s.rtPhase + 16 then 78125 else 0) = s.rtPhase + 16) ∧
    (s.pw.clocks = false → t.dt = s.dt ∧ t.rt = (if s.pw.rootOn then (s.rt + 1) % 2 ^ 48 else s.rt))

/-- Every invariant holds at reset; the queue and the memories are empty, the digital die is off, DT and RT are 0, no
ring is active and its registers are 0, no session is open, nothing is in force and every output is held in SAFE,
engines are in supervisor mode with SW 0, every pair is coupled. Zeros without a reset value in the spec are the
model's choice (log entries 2 and 3). (R16 of 01_device_at_a_glance.md; R29, R30, R34 of 02_rings_and_doorbells.md;
R79, R83 of 03_staging_and_commit.md; R344 of 14_engine_instruction_set.md) -/
def Obligations.ResetState : Prop :=
  let s := State.reset
  TimeFits s ∧ MemoryWf s ∧ ProgramMemoryWf s ∧ TablesWf s ∧ s.pending = [] ∧ s.sram = [] ∧ s.mram = [] ∧ s.pw.dieOn = false ∧ s.dt = 0 ∧ s.rt = 0 ∧
  (∀ n : Fin 64, s.rings[n].active = false ∧ s.rings[n].idx = 0 ∧ s.rings[n].base = 0 ∧ s.rings[n].shadow = 0) ∧
  (∀ n : Fin 4, s.ses[n].isOpen = false) ∧ s.stg.inForce = false ∧ (∀ o : OutId, safeHeld s o = true) ∧
  (∀ e : Fin 16, inTask (eng s e) = false ∧ (eng s e).sw = 0) ∧ (∀ k : Fin 8, s.pairs[k].split = false)

/-- From every state a step answers a next state: the model has no fault and refuses no command.
(01_device_at_a_glance.md; R40 of 02_rings_and_doorbells.md) -/
def Obligations.EveryStepAnswers : Prop := ∀ s : State, SafeStep s

/-- If DT < 2^64, RT < 2^48 and the phase between them is below one RT tick, and a step answers t, the same holds of
t. (R8 of 00_scope.md) -/
def Obligations.TimeFitsKept : Prop := ∀ s t : State, TimeFits s → step s = .next t → TimeFits t

/-- If the lists of shared SRAM and of MRAM have rising addresses and no listed 0, and a step answers t, the same
holds of t. (R390 of 16_host_bridge.md; R458 of 19_heartwood_and_grafting.md) -/
def Obligations.MemoryFormKept : Prop := ∀ s t : State, MemoryWf s → step s = .next t → MemoryWf t

/-- If every engine's local RAM, every package slot and every program image is in canonical form, and a step answers
t, the same holds of t. (R338 of 14_engine_instruction_set.md; R380 of 15_pairs_and_comparison.md) -/
def Obligations.ProgramMemoryFormKept : Prop := ∀ s t : State, ProgramMemoryWf s → step s = .next t → ProgramMemoryWf t

/-- If every staged table, both stored copies, the acting tables and the set of a running commit are in canonical
form, and a step answers t, the same holds of t. (R60 to R67 of 03_staging_and_commit.md) -/
def Obligations.TableFormKept : Prop := ∀ s t : State, TablesWf s → step s = .next t → TablesWf t

/-- exec leaves the waiting commands as they are, and outside the start family it leaves DT, RT and their phase as
they are (that commands take no time is log entry 1). (R8 of 00_scope.md) -/
def Obligations.QueueAndClocksKept : Prop :=
  (∀ (c : Instr) (s t : State), exec c s = .next t → t.pending = s.pending) ∧
  (∀ (c : Instr) (s t : State), exec c s = .next t → family c ≠ .start → t.dt = s.dt ∧ t.rt = s.rt ∧ t.rtPhase = s.rtPhase)

/-- While no commit has been applied since the last start-up, every command other than COMMIT_TICK leaves that so, and
every output held in SAFE. (R16 of 01_device_at_a_glance.md) -/
def Obligations.OnlyCommitTickPutsInForce : Prop :=
  ∀ (c : Instr) (s t : State), exec c s = .next t → s.stg.inForce = false → c ≠ .commitTick → t.stg.inForce = false ∧ ∀ o : OutId, safeHeld t o = true

/-- A session that is closed stays closed under every command but SESSION_OPEN, and but, for session 2,
RUNTIME_SESSION_OPEN (at a start the runtime opens it in an idle step, log entry 1). (R79 to R84 of
03_staging_and_commit.md) -/
def Obligations.OnlyOpeningsOpenSessions : Prop :=
  ∀ (c : Instr) (s t : State) (n : Fin 4), exec c s = .next t → (∀ o, c ≠ .sessionOpen o) → (c = .runtimeSessionOpen → n ≠ 2) →
    s.ses[n].isOpen = false → t.ses[n].isOpen = false

/-- Key slots change only by KEY_WRITE, package slots only by PKG_WRITE and PKG_ERASE, MRAM only by a heartwood record
write or a power command. (R80 of 03_staging_and_commit.md; R325 of 13_access_and_immobiliser.md; R380 of
15_pairs_and_comparison.md; R458 of 19_heartwood_and_grafting.md) -/
def Obligations.KeysAndStoresChangeOnlyByTheirCommands : Prop :=
  ∀ (c : Instr) (s t : State), exec c s = .next t →
    ((∀ o b, c ≠ .keyWrite o b) → t.keys = s.keys) ∧
    ((∀ o b, c ≠ .pkgWrite o b) → (∀ o, c ≠ .pkgErase o) → t.pkgs = s.pkgs) ∧
    ((∀ b, c ≠ .heartwoodRecordWrite b) → family c ≠ .power → t.mram = s.mram)

/-- Doorbell writes, ring start, stop and set-up, the descriptor fetch, the interrupt and stall timers, NOP, ECHO,
PLACEMENT_QUERY, register writes and reads answer a next state: the state that the named operation gives, under the
conditions named. (01_device_at_a_glance.md; 02_rings_and_doorbells.md; R26 to R34 of 02_rings_and_doorbells.md; R42,
R43, R46, R49, R55, R56) -/
def Obligations.RingCommandsComplete : Prop :=
  (∀ (n : Fin 64) (v : Word) (s : State),
    s.pw.dieOn = true →
    exec (.doorbellWrite n v) s = .next (doorbellWrite n v.toNat (hostAccess (0x40090000 + 4 * n) 4 s))) ∧
  (∀ (n : Fin 64) (v : Word) (s : State),
    s.pw.dieOn = true →
    (bitN v.toNat 31) = true →
    exec (.ringStart n v) s = .next (ringCfgWrite n v.toNat (hostAccess (ringAddr n .cfg) 4 s))) ∧
  (∀ (n : Fin 64) (v : Word) (s : State),
    s.pw.dieOn = true →
    (bitN v.toNat 30) = true →
    exec (.ringStop n v) s = .next (ringCfgWrite n v.toNat (hostAccess (ringAddr n .cfg) 4 s))) ∧
  (∀ (n : Fin 64) (s : State),
    (s.rings[n].active && s.rings[n].stopping && s.rings[n].pipe.isEmpty && !originBusy s (.ring n)) = true →
    exec (.ringStopped n) s = .next (setRing n (fun r => { r with active := false, stopping := false }) s)) ∧
  (∀ (n : Fin 64) (r : RingReg) (v : Word) (s : State),
    s.pw.dieOn = true →
    exec (.ringSetupWrite n r v) s = .next (ringSetupWrite n r v.toNat (hostAccess (ringAddr n r) 4 s))) ∧
  (∀ (s : State),
    s.pw.dieOn = true →
    exec .descriptorFetch s = .next (fetchNext s)) ∧
  (∀ (n : Fin 64) (s : State),
    (irqTimeUp s.rings[n] s.dt) = true →
    exec (.irqTimerExpiry n) s = .next (signalRing n s)) ∧
  (∀ (n : Fin 64) (s : State),
    (stallTimeUp s n) = true →
    exec (.stallTimeout n) s = .next (if keptBackTaken s n then setRing n (fun r => { r with stalled := true, stallStart := none }) s else stallDrop n s)) ∧
  (∀ (o : Origin) (d : Desc) (s : State), Took s o 0x0000 nopForm d →
    Ends (.nop o) s o (
      let uid := s.nextUid
      let s := begun o d nopForm s
      finish uid 0 0 s)) ∧
  (∀ (o : Origin) (d : Desc) (s : State), Took s o 0x0001 echoForm d →
    Ends (.echo o) s o (
      let uid := s.nextUid
      let s := begun o d echoForm s
      finish uid 0 (d.u 16 64) s)) ∧
  (∀ (o : Origin) (d : Desc) (s : State), Took s o 0x0002 placementQueryForm d →
    Ends (.placementQuery o) s o (
      let uid := s.nextUid
      let s := begun o d placementQueryForm s
      let rep := (s.stg.report.getD []).drop (d.u 28 32)
      if rep.isEmpty then finishFree uid 0x0A s
      else
        let out := rep.take (d.u 24 32)
        finish uid (if rep.length ≤ d.u 24 32 then 0 else 2) (out.length + 2 ^ 32 * ofLe (((s.stg.report.getD []).drop 4).take 4))
          (toBuffer (hostAddressed s d) (d.u 16 64) out s))) ∧
  (∀ (a : Nat) (v : List Word) (be : List (BitVec 4)) (s : State), s.pw.dieOn = true →
    exec (.registerWrite (.device a) v be) s = .next (if inDoorbells a && v.length != 1 then badWrite s else writeWords a (v.zip be) s)) ∧
  (∀ (off : Nat) (v : Word) (be : BitVec 4) (s : State), s.pw.dieOn = true →
    exec (.registerWrite (.config off) [v] [be]) s = .next (cfgWrite off v.toNat be.toNat s)) ∧
  (∀ (addr : Nat) (late : Option Nat) (s : State),
    s.pw.dieOn = true →
    exec (.readClear addr late) s = .next (regClear late addr (hostAccess addr 4 s))) ∧
  (∀ (a len : Nat) (s : State), s.pw.dieOn = true → s.host.inReads.length < inReadMax →
    exec (.hostRead (.device a) len) s = .next (
      if (len = 4 ∨ len = 8) ∧ a % len = 0 then modHost (fun h => { h with inReads := h.inReads ++ [{ addr := a, len := len, dt := s.dt }] }) s
      else raise 13 0x0943 (aerReport aerAbort .completerAbort s))) ∧
  (∀ (off len : Nat) (s : State), s.pw.dieOn = true →
    exec (.hostRead (.config off) len) s = .next (toHost (.readReply (leBytes 4 (cfgReg s off))) s))

/-- Every command of staging and commit, of sessions and of the heartwood answers a next state, the one stated.
(03_staging_and_commit.md; 19_heartwood_and_grafting.md; R62 to R67, R71 to R76, R81 to R85; R462, R480) -/
def Obligations.StagingAndSessionCommandsComplete : Prop :=
  (∀ (o : Origin) (d : Desc) (s t : State) (bs : List Byte), Took s o 0x0100 stageWriteForm d → BlockHere o d stageWriteForm paramBlock s bs t →
    Ends (.stageWrite o .run) s o (
      let uid := s.nextUid
      let s := t
      finishRecorded 0x0010 (stagePayload 0x0100 (d.u 24 16) (d.u 28 32) d.plen) (some d.session) uid 0 d.plen
        (stageBytes (d.u 24 16) (d.u 28 32) bs d.session s))) ∧
  (∀ (o : Origin) (d : Desc) (s : State), Took s o 0x0101 stageLoadForm d →
    Ends (.stageLoad o) s o (
      let uid := s.nextUid
      let s := begun o d stageLoadForm s
      let l := if (committedSet s).valid then namedTables (d.u 24 16) 0xFFFF else []
      let load := fun (i : Fin 16) (x : Option Staged) =>
        if l.contains i then some { bytes := (committedSet s).tables[i], writer := some d.session : Staged } else x
      let s := modStg (fun g => { g with staged := mapFin g.staged load }) s
      finishRecorded 0x0010 (stagePayload 0x0101 (d.u 24 16) 0 0) (some d.session) uid 0 (tableBits l) s)) ∧
  (∀ (o : Origin) (d : Desc) (s : State), Took s o 0x0102 stageDiscardForm d →
    Ends (.stageDiscard o) s o (
      let uid := s.nextUid
      let s := begun o d stageDiscardForm s
      let l := (namedTables (d.u 24 16) 0xFFFF).filter fun i => s.stg.staged[i].isSome
      finishRecorded 0x0010 (stagePayload 0x0102 (d.u 24 16) 0 0) (some d.session) uid 0 (tableBits l) (discardTables l s))) ∧
  (∀ (o : Origin) (d : Desc) (s : State), Took s o 0x0103 stageQueryForm d →
    Ends (.stageQuery o) s o (
      let uid := s.nextUid
      let s := begun o d stageQueryForm s
      finishRecorded 0x0010 (stagePayload 0x0103 0 0 0) (some d.session) uid 0 (stagedMap s + 2 ^ 32 * s.stg.seq) s)) ∧
  (∀ (v : Word) (s : State),
    s.pw.dieOn = true →
    exec (.stgDataWrite v) s = .next (stgDataWrite v.toNat (hostAccess 0x40092008 4 s))) ∧
  (∀ (s : State),
    s.pw.dieOn = true →
    autoAccepts s = true →
    exec .autoCommit s = .next (acceptCommit .auto 2 false 0 (modStg (fun g => { g with autoTried := true }) s))) ∧
  (∀ (s : State),
    s.pw.dieOn = true →
    (autoDue s && s.upd.state == .trial && !s.flt.srcs.toList.any fun x => x.sticky && 2 ≤ x.eff) = true →
    autoAccepts (confirmSet 2 [] s) = true →
    exec .autoCommit s = .next (acceptCommit .auto 2 false 0 (modStg (fun g => { g with autoTried := true }) (confirmSet 2 [] s)))) ∧
  (∀ (v : Word) (s : State),
    s.pw.dieOn = true →
    (bitN v.toNat 31) = true →
    exec (.stgCtrlCommit v) s = .next (stgCtrlWrite v.toNat (hostAccess 0x40092000 4 s))) ∧
  (∀ (v : Word) (s : State),
    s.pw.dieOn = true →
    (bitN v.toNat 30) = true →
    exec (.stgCtrlCheck v) s = .next (stgCtrlWrite v.toNat (hostAccess 0x40092000 4 s))) ∧
  (∀ (v : Word) (s : State),
    s.pw.dieOn = true →
    (bitN v.toNat 29) = true →
    exec (.stgCtrlDiscard v) s = .next (stgCtrlWrite v.toNat (hostAccess 0x40092000 4 s))) ∧
  (∀ (o : Origin) (d : Desc) (s : State), Took s o 0x0200 commitCheckForm d →
    Ends (.commitCheck o) s o (
      let uid := s.nextUid
      let s := begun o d commitCheckForm s
      acceptCommit (.desc uid) d.session true 0 s)) ∧
  (∀ (o : Origin) (d : Desc) (s : State), Took s o 0x0201 commitForm d →
    Ends (.commit o) s o (
      let uid := s.nextUid
      let s := begun o d commitForm s
      acceptCommit (.desc uid) d.session false (d.u 16 64) s)) ∧
  (∀ (s : State),
    s.pw.dieOn = true →
    ∀ c, (runIn s .checking) = some c →
    ¬ (s.dt < c.t0 + us 800) →
    exec .checkAndPlacementComplete s = .next (
      match checkSet s c.newSet with
             | some f => commitEnds c 0x0E (failResult f) f s
             | none =>
               if c.checkOnly then commitEnds c 0 0 noFail s
               else
                 let ts := trimTable c.newSet
                 setRun (fun c => { c with phase := .writing, stepAt := s.dt, newSet := ts, place := placementOf s ts }) s)) ∧
  (∀ (s : State),
    s.pw.dieOn = true →
    ∀ c, (runIn s .writing) = some c →
    ¬ (s.dt < c.stepAt + us 300) →
    exec .newSetHeld s = .next (
      match s.linkDown with
             | d :: _ => commitEnds c 0x12 (linkSource d) noFail s
             | [] =>
               let copy : StoredSet := { tables := c.newSet, seq := w32 (s.stg.seq + 1), valid := true }
               setRun (fun c => { c with phase := .held, stepAt := s.dt }) (modStg (fun g => { g with copies := g.copies.set (inactive g) copy }) s))) ∧
  (∀ (s : State),
    s.pw.dieOn = true →
    ∀ c, (runIn s .held) = some c →
    let earliest := c.stepAt + us 20
    ¬ (s.dt < max c.reqTick earliest) →
    exec .commitTick s = .next (
      let c := { c with tick := if earliest ≤ c.reqTick then c.reqTick else s.dt, phase := .applied, stepAt := s.dt }
      applySet c (setRun (fun _ => c) s))) ∧
  (∀ (s : State),
    s.pw.dieOn = true →
    ∀ c, (runIn s .applied) = some c →
    ¬ (s.dt < c.stepAt + us 20) →
    exec .mramMarkCommitted s = .next (
      let s := modStg (fun g => { g with marked := inactive g, seq := w32 (g.seq + 1) }) s
      commitMaybeDone (setRun (fun c => { c with phase := .marked }) s))) ∧
  (∀ (o : Origin) (d : Desc) (s : State), Took s o 0x0210 sessionChallengeForm d →
    Ends (.sessionChallenge o) s o (
      let uid := s.nextUid
      let s := begun o d sessionChallengeForm s
      let (c, s) := takeFree 64 s
      finish uid 0 c (setSes (d.u 24 8) (fun x => { x with challenge := some (c, s.dt) }) s))) ∧
  (∀ (o : Origin) (d : Desc) (s : State), Took s o 0x0211 sessionOpenForm d →
    Ends (.sessionOpen o) s o (
      let uid := s.nextUid
      let s := begun o d sessionOpenForm s
      let n := d.u 24 8
      let key := ((at? s.keys n).join).getD 0
      let refuse := fun s : State =>
        let (v, s) := takeFree 64 s
        finishRecorded 0x0012 (sessionPayload sesFailed n 0x0211) (some n) uid 0x0F v (raise 5 0xFFFF s)
      match validChallenge s n with
      | none => refuse s
      | some c =>
        if sessionResponse key c n == d.u 16 64 then
          finishGated uid 0 0 (hwPut 0x0012 (sessionPayload sesOpening n 0x0211) [.vector 69, .completion uid] (sessionOpened n s) (some n))
        else refuse (sessionFailure n s))) ∧
  (∀ (o : Origin) (d : Desc) (s : State), Took s o 0x0212 sessionCloseForm d →
    Ends (.sessionClose o) s o (
      let uid := s.nextUid
      let s := begun o d sessionCloseForm s
      if sessionOpen s (d.u 24 8) then finishGated uid 0 0 (sessionClosed (d.u 24 8) sesClosing 0x0212 [.completion uid] s)
      else finish uid 0 0 s)) ∧
  (∀ (n : Fin 4) (s : State),
    (challengeOver s.ses[n] s.dt) = true →
    exec (.challengeExpiry n) s = .next (setSes n (fun x => { x with challenge := none }) s)) ∧
  (∀ (n : Fin 4) (s : State),
    (lockOver s.ses[n] s.rt) = true →
    exec (.sessionLockExpiry n) s = .next (setSes n (fun x => { x with lockEnd := none }) s)) ∧
  (∀ (n : Fin 4) (s : State),
    s.pw.dieOn = true →
    (s.ses[n].isOpen && n.val != 2 && idleTime s != 0 && s.ses[n].lastNamed + sec (idleTime s) ≤ s.dt) = true →
    exec (.sessionExpiry n) s = .next (sessionClosed n sesExpiry 0 [] s)) ∧
  (∀ (s : State),
    s.pw.dieOn = true →
    (!sessionOpen s 2) = true →
    exec .runtimeSessionOpen s = .next (openRuntimeSession s)) ∧
  (∀ (archived : Bool) (s : State),
    s.pw.dieOn = true →
    exec (.heartwoodRecordWrite archived) s = .next (hwWrite archived s)) ∧
  (∀ (o : Origin) (d : Desc) (s : State), Took s o 0x3800 hwReadForm d →
    Ends (.hwRead o) s o (
      let uid := s.nextUid
      let s := begun o d hwReadForm s
      let l := hwOrdered s
      let heldIt := l.any fun x => x.1 == d.u 24 32
      let from' := if heldIt then l.dropWhile fun x => x.1 != d.u 24 32 else l
      let out := from'.take (d.u 28 24)
      let bytes := (out.map (·.2)).flatten
      finish uid (if heldIt then 0 else 2) (out.length + 2 ^ 32 * ((out.head?.map (·.1)).getD 0))
        (toBuffer (bitN d.raw.toNat 248) (d.u 16 64) bytes s))) ∧
  (∀ (o : Origin) (d : Desc) (s : State), Took s o 0x3801 hwQueryForm d →
    Ends (.hwQuery o) s o (
      let uid := s.nextUid
      let s := begun o d hwQueryForm s
      finish uid 0 (s.hw.newest + 2 ^ 32 * s.hw.oldest) s))

/-- Every command and event of load channels and wire fusing answers a next state, the one stated.
(04_load_channels.md; 05_wire_fusing.md; R88 to R114; R116 to R139) -/
def Obligations.LoadAndWireCommandsComplete : Prop :=
  (∀ (o : Origin) (d : Desc) (s : State), Took s o 0x1000 lchSetForm d →
    Ends (.lchSet o) s o (
      let uid := s.nextUid
      let s := begun o d lchSetForm s
      let off := (lch s d.lch).run == 0
      let s := request d.lch (d.u 24 8) (fld (d.u 26 16) 0 12) s
      asked d.lch uid none off s)) ∧
  (∀ (o : Origin) (d : Desc) (s : State), Took s o 0x1001 lchTimedForm d →
    Ends (.lchTimed o) s o (
      let uid := s.nextUid
      let s := begun o d lchTimedForm s
      let off := (lch s d.lch).run == 0
      let s := request d.lch (d.u 24 8) (fld (d.u 26 16) 0 12) s
      asked d.lch uid (some (d.u 28 32)) off s)) ∧
  (∀ (o : Origin) (d : Desc) (s : State), Took s o 0x1002 lchSetMaskForm d →
    Ends (.lchSetMask o) s o (
      let uid := s.nextUid
      let s := begun o d lchSetMaskForm s
      let s := (maskChs d).foldl (fun s n => request n (d.u 24 8) (fld (d.u 26 16) 0 12) s) s
      finish uid 0 (d.u 25 8 + putF s.dt 32 32) s)) ∧
  (∀ (o : Origin) (d : Desc) (s : State), Took s o 0x1003 lchQueryForm d →
    Ends (.lchQuery o) s o (
      let uid := s.nextUid
      let s := begun o d lchQueryForm s
      let n := d.lch
      let c := lch s n
      let v := putF c.duty 0 12 + putF c.dEff 12 12 + putF (leavesNow s n) 24 4 + putF c.mode 28 2 + putF c.i 32 16 + putF (lchStat s n) 48 9
      finish uid 0 (fromCommit s 0 v) s)) ∧
  (∀ (o : Origin) (d : Desc) (s : State), Took s o 0x1004 heatQueryForm d →
    Ends (.heatQuery o) s o (
      let uid := s.nextUid
      let s := begun o d heatQueryForm s
      let k := (s.ld.chs.toList.filter fun c => c.limited).length
      finish uid 0 (2800 + putF s.ld.pNonman 16 16 + putF s.ld.pGrant 32 16 + putF k 48 8) s)) ∧
  (∀ (n : Fin 64) (s : State),
    s.pw.dieOn = true →
    ∀ t, (lch s n).timed = some t →
    ¬ (s.dt < t.endDt.getD (s.dt + 1)) →
    exec (.timedEnd n) s = .next (
      let d := (lch s n).dEff
      let s := applyLch n (setLch n (fun c => { c with timed := none, mode := 0 }) s)
      finish t.uid 0 t.result (lchEvent n 0x1082 d t.onMs s))) ∧
  (∀ (n : Fin 64) (i : Nat) (s : State),
    s.pw.clocks = true →
    let c := lch s n
    (c.run != 0 && beyondStep n c i && !leafForced s n c && c.step < fullStep n) = true →
    exec (.leafStepUp n i) s = .next (setLch n (fun c => { c with step := c.step + 1, lowSince := none, iKnown := false, peak := max c.peak (sat 16 (i / 10)) }) s)) ∧
  (∀ (n : Fin 64) (s : State),
    s.pw.clocks = true →
    let c := lch s n
    ∀ t, c.lowSince = some t →
    (c.run != 0 && t + ms 10 ≤ s.dt && !leafForced s n c && 1 < c.step) = true →
    exec (.leafStepDown n) s = .next (setLch n (fun c => { c with step := c.step - 1, lowSince := none }) s)) ∧
  (∀ (n : Fin 64) (i vs : Nat) (s : State),
    s.pw.clocks = true →
    let c := lch s n
    (isMember s n) = true →
    (onGrid s c n && outDuty s n c != 0) = true →
    exec (.pwmPeriodStart n i vs) s = .next (noteCurrent n i s)) ∧
  (∀ (n : Fin 64) (i vs : Nat) (s : State),
    s.pw.clocks = true →
    let c := lch s n
    ¬ (isMember s n) →
    ¬ (!onGrid s c n || gridIndex s n s.dt ≤ gridIndex s n (sinceDt c)) →
    exec (.pwmPeriodStart n i vs) s = .next (
      let b := bankOf n
      let k := bank s b
      let took := outDuty s n c != 0 && !k.frozen && k.freezeEnd ≤ c.pStart
      let s := if outDuty s n c == 0 then setLch n (fun c => { c with i := 0 }) s else noteCurrent n i s
      let s := if took then setBank b (fun k => { k with v := sat 16 vs, vMin := min k.vMin (sat 16 vs) }) s else s
      let led := level s == 1 && lchLoad s n == 2 && lchCp s n
      let s := setLch n (fun c => { c with vs := if took then vs else c.vs, skip := led && !c.skip }) s
      takeWaits n s)) ∧
  (∀ (n : Fin 64) (s : State),
    s.pw.clocks = true →
    ∀ t, (lch s n).inrush = some t →
    (t ≤ s.dt && !isMember s n) = true →
    exec (.inrushEnd n) s = .next (resumeDwell n (syncGang n (setLch n (fun c => { c with inrush := none, env := 0 }) s)))) ∧
  (∀ (n : Fin 64) (s : State),
    s.pw.clocks = true →
    ∀ p, (lch s n).pre = some p →
    (p.start + ms p.len ≤ s.dt && !isMember s n) = true →
    exec (.preheatEnd n) s = .next (
      let s := setLch n (fun c => { c with pre := none }) s
      resumeDwell n (syncGang n (setLch n (fun c => { c with dEff := if c.run == 1 then dutyNow s n c else c.dEff }) s)))) ∧
  (∀ (o : OtherLoss) (s : State),
    s.pw.dieOn = true →
    ¬ (s.dt < s.ld.budDt + ms 10) →
    exec (.budgetAllocation o) s = .next (
      let other := otherLoss o s
      let mean := fun c : Lch => if c.lossN == 0 then 0 else c.lossSum / c.lossN
      let man := managed s
      let isMan := fun n => man.contains (leaderOf s n)
      let non := other + ((List.range 64).map fun n => if isMan n then 0 else mean (lch s n)).foldl (· + ·) 0
      let total := other + ((List.range 64).map fun n => mean (lch s n)).foldl (· + ·) 0
      let mins := (man.map fun n => (demandOf s n).2).foldl (· + ·) 0
      let avail : Int := (budgetNw : Int) - (non : Nat) - (mins : Nat)
      let (avail, gone) := if avail < 0 then withdraw s man.reverse avail [] else (avail, [])
      let beyond := budgetNw < non + mins
      let grants := grantAll s gone man avail
      let chs' := mapFin s.ld.chs fun n c => { c with pSw := sat 16 (mean c / step10), lossSum := 0, lossN := 0, grant := if isMan n then c.grant else 0xFFFF, cap := if isMan n then c.cap else 0xFFF }
      let s := { s with ld := { s.ld with chs := chs', budDt := s.dt, pNonman := sat 16 (non / step10), pGrant := sat 16 ((grants.map (·.2)).foldl (· + ·) 0 / step10),
                                          pPeak := max s.ld.pPeak (sat 16 (total / step10)) } }
      let s := grants.foldl (fun s x => applyGrant x s) s
      if beyond then raise 8 0xFFFF s else s)) ∧
  (∀ (n : Fin 64) (s : State),
    s.pw.clocks = true →
    let c := lch s n
    ∀ t, c.imbSince = some t →
    (t + ms 100 ≤ s.dt && !c.imbRaised && 1 < (membersOf s n).length) = true →
    exec (.gangImbalance n) s = .next (raise (lsSource n 16) (lchTarget n) (setLch n (fun c => { c with imbRaised := true }) s))) ∧
  (∀ (b : Fin 8) (sense : Int) (die : Nat) (s : State),
    s.pw.clocks = true →
    (senseWrong sense die && !(bank s b).senseBad) = true →
    exec (.bankSenseImplausible b sense die) s = .next (raise (32 * (b.val / 2 + 1) + 17) (256 * (b.val / 2) + 32 + b.val % 2) (setBank b (fun k => { k with senseBad := true }) s))) ∧
  (∀ (b : Fin 8) (s : State),
    s.pw.clocks = true →
    let k := bank s b
    let lim := (List.range 8).any fun j => (lch s (8 * b.val + j)).scLim
    (k.frozen && !lim && k.freezeFrom + us 200 ≤ s.dt) = true →
    exec (.cpFreezeEnd b) s = .next (setBank b (fun k => { k with frozen := false, freezeEnd := s.dt }) s)) ∧
  (∀ (b : Fin 8) (sense : Int) (die : Nat) (s : State),
    s.pw.clocks = true →
    (!senseWrong sense die) = true →
    exec (.bankSensePlausible b sense die) s = .next (setBank b (fun k => { k with senseBad := false }) s)) ∧
  (∀ (m : Vector ChSample 64) (b : Vector BankSample 8) (h : Vector HbSample 16) (s : State),
    s.pw.clocks = true →
    ¬ (s.dt < s.ld.updDt + ms 1) →
    exec (.wireModelUpdate m b h) s = .next (
      let live := fun n : Nat => !s.ld.logicReset.contains (lchDie n)
      let s := (idxs 8).foldl (fun s (i : Fin 8) => noteBank i b[i] s) s
      let s := (idxs 64).foldl (fun s (i : Fin 64) => if live i then noteSample i m[i] s else s) s
      let s := (idxs 16).foldl (fun s (i : Fin 16) => noteHb i h[i] s) s
      let s0 := s
      let s := { s with ld := { s.ld with updDt := s.dt, chs := mapFin s.ld.chs fun n c => if live n then wireStep (ambientOf s0 n c.wire) (modelQ s0 m n) c else c } }
      let s := (List.range 64).foldl (fun s n => if live n then wireJudge n s else s) s
      let s := (gangs s).foldl (fun s g =>
        setLch g.1 (fun c => if imbalanced s g.1 then { c with imbSince := c.imbSince <|> some s.dt } else { c with imbSince := none, imbRaised := false }) s) s
      mirrorAll ((gangs s).foldl (fun s g => balanceGang g.1 s) s))) ∧
  (∀ (n : Fin 64) (s : State),
    s.pw.clocks = true →
    ((lch s n).lastProt + sec (wireU s n 8 2) ≤ s.dt && !isMember s n) = true →
    exec (.restartCountReset n) s = .next (setLch n (fun c => { c with count := 0 }) (tryRestart n s))) ∧
  (∀ (s : State),
    s.pw.dieOn = true →
    s.ld.snapDt + ms 256 ≤ s.dt →
    exec .heatSnapshot s = .next (writeSnap false s)) ∧
  (∀ (g : Fin 4) (s : State),
    s.pw.dieOn = true →
    let a := s.ld.amb[g]
    (!a.stale && takesAmb s g && max a.setDt s.pw.releaseDt + sec 10 ≤ s.dt) = true →
    exec (.ambientStale g) s = .next (raise 10 0xFFFF (modLd (fun l => { l with amb := upd l.amb g fun a => { a with stale := true } }) s))) ∧
  (∀ (n : Fin 64) (i : Nat) (s : State),
    s.pw.clocks = true →
    ¬ ((lch s n).run == 0 || i < limMin n) →
    exec (.shortCircuitLimit n i) s = .next (
      let s := freezeBank (bankOf n) (forceLeaves n (setLch n (fun c => { c with scLim := true, peak := max c.peak (sat 16 (i / 10)) }) s))
      setLch n (fun c => { c with scLim := false }) (protOff n 1 (i / 10) s))) ∧
  (∀ (n : Fin 64) (i : Nat) (s : State),
    s.pw.clocks = true →
    let c := lch s n
    (!isMember s n && c.run != 0 && c.inrush.isSome && c.env != 0 && c.env < i) = true →
    exec (.envelopeTrip n i) s = .next (protOff n 4 (i / 10) s)) ∧
  (∀ (n : Fin 64) (t : Int) (s : State),
    s.pw.clocks = true →
    ¬ ((lch s n).run == 0 || t < 2640) →
    exec (.switchOvertemp n t) s = .next (protOff n 2 (lch s n).i (setLch n (fun c => { c with tSw := t, tSwMax := max c.tSwMax t }) s))) ∧
  (∀ (n : Fin 64) (v : Nat) (s : State),
    s.pw.clocks = true →
    let c := lch s n
    ∀ t, c.olSince = some t →
    (t + ms 10 ≤ s.dt && onDiagActive s n c) = true →
    exec (.onStateDiagnosis n v) s = .next (diagResult n (if 4000 < v then 4 else 2) 0 true (setLch n (fun c => { c with olSince := none }) s))) ∧
  (∀ (n : Fin 64) (i : Nat) (s : State),
    s.pw.clocks = true →
    (onDiagActive s n (lch s n) && 500 ≤ i) = true →
    exec (.reverseCurrent n i) s = .next (diagResult n 4 0 true s)) ∧
  (∀ (n : Fin 64) (v1 v2 : Nat) (s : State),
    s.pw.clocks = true →
    (lchEn s n && !isMember s n && bitN (wireU s n 0 1) 4 && offDiagRuns s n && (lch s n).offDiagDt + ms (wireU s n 14 2) ≤ s.dt && entriesAct s) = true →
    exec (.offStateDiagnosis n v1 v2) s = .next ((offDiag n v1 v2 s).2.2)) ∧
  (∀ (o : Origin) (d : Desc) (s : State), Took s o 0x1020 protClearForm d →
    Ends (.protClear o) s o (
      let uid := s.nextUid
      let s := begun o d protClearForm s
      let n := d.lch
      let before := fld (protReg s n) 0 16
      let s := endTimed n 0x10 none s
      let s := setLch n (fun c => { c with count := 0, latched := false, cleared := c.held, mode := 0 }) s
      finish uid 0 before (syncGang n (applyLch n s)))) ∧
  (∀ (o : Origin) (d : Desc) (s : State), Took s o 0x1021 wireQueryForm d →
    Ends (.wireQuery o) s o (
      let uid := s.nextUid
      let s := begun o d wireQueryForm s
      let c := lch s d.lch
      finish uid 0 (t16F c.tC + putF (sat 16 (c.theta1 / 2 ^ 28)) 16 16 + putF (sat 16 (c.theta2 / 2 ^ 28)) 32 16 + putF (tripTime c) 48 16) s)) ∧
  (∀ (o : Origin) (d : Desc) (s : State), Took s o 0x1022 wireAmbientForm d →
    Ends (.wireAmbient o) s o (
      let uid := s.nextUid
      let s := begun o d wireAmbientForm s
      let a : Amb := { value := some (toSigned 16 (d.u 26 16)), setDt := s.dt, stale := false }
      finish uid 0 (d.u 26 16) (modLd (fun l => { l with amb := updN l.amb (d.u 24 8) fun _ => a }) s))) ∧
  (∀ (o : Origin) (v1 v2 : Nat) (d : Desc) (s : State), Took s o 0x1023 diagRunForm d →
    Ends (.diagRun o v1 v2) s o (
      let uid := s.nextUid
      let s := begun o d diagRunForm s
      let (res, r, s) := offDiag d.lch v1 v2 s
      finish uid 0 (res + putF r 16 16 + putF (sat 16 v1) 32 16) s))

/-- Every command and event of half-bridges, bridges, valve groups, the boost converter and the charge ledger answers
a next state, the one stated. (06_motor_bridges.md; 07_valve_groups.md) -/
def Obligations.BridgeAndValveCommandsComplete : Prop :=
  (∀ (o : Origin) (d : Desc) (s : State), Took s o 0x1100 brDriveForm d →
    Ends (.brDrive o) s o (
      let uid := s.nextUid
      let s := begun o d brDriveForm s
      (withBridge d fun c s =>
           let h := d.hb
           match d.u 24 8 with
           | 0 => brDone d uid c (coastEnd h (replaced h s))
           | 3 => brDone d uid c (brakeHold h (startOp h { kind := 1, uid := none, cfg := c } s))
           | dir =>
             let t := d.u 28 32
             driveDir h dir (startOp h { kind := 1, uid := some uid, cfg := c, dir := dir, duty := brDuty d, norm := bitN (d.u 25 8) 0
                                         endDt := if t == 0 then none else some (s.dt + ms t) } s)) s)) ∧
  (∀ (o : Origin) (d : Desc) (s : State), Took s o 0x1101 brMoveForm d →
    Ends (.brMove o) s o (
      let uid := s.nextUid
      let s := begun o d brMoveForm s
      (withBridge d fun c s =>
           let h := d.hb
           let t := d.u 28 16
           let p := (hb s h).pos
           if t == p then
             let was := driven s h
             let s := replaced h s
             let s := if was then brakeEnd h 20 0 0 0xFFFF (setHb h (fun b => { b with op := some { kind := 2, uid := none, cfg := c, target := t } }) s) else s
             brDone d uid c s
           else
             let dir := if p < t then 1 else 2
             driveDir h dir (startOp h { kind := 2, uid := some uid, cfg := c, dir := dir, duty := brDuty d, override := bitN (d.u 25 8) 0, target := t } s)) s)) ∧
  (∀ (o : Origin) (d : Desc) (s : State), Took s o 0x1102 brPulseForm d →
    Ends (.brPulse o) s o (
      let uid := s.nextUid
      let s := begun o d brPulseForm s
      (withBridge d fun c s =>
           let len := if d.u 28 16 == 0 then c.pulseMs else d.u 28 16
           driveDir d.hb (d.u 24 8) (startOp d.hb { kind := 3, uid := some uid, cfg := c, dir := d.u 24 8, duty := brDuty d, len := len } s)) s)) ∧
  (∀ (o : Origin) (d : Desc) (s : State), Took s o 0x1103 wiperSetForm d →
    Ends (.wiperSet o) s o (
      let uid := s.nextUid
      let s := begun o d wiperSetForm s
      (withBridge d fun c s =>
           let h := d.hb
           let m := d.u 24 8
           match m, wipesOn s h with
           | 2, some x =>
             let s := finishOp h { x with status := 0x10, reason := 0, src := 0xFFFF } s
             setHb h (fun b => { b with op := some { x with uid := none, wnext := some { interval := d.u 28 16, duty := brDuty d, uid := uid }, wipes := 0 } }) s
           | _, _ =>
             driveDir h 1 (startOp h { kind := 4, uid := some uid, cfg := c, dir := 1, duty := brDuty d, wmode := m, interval := d.u 28 16, parkDt := lastPark s h } s)) s)) ∧
  (∀ (o : Origin) (d : Desc) (s : State), Took s o 0x1104 brQueryForm d →
    Ends (.brQuery o) s o (
      let uid := s.nextUid
      let s := begun o d brQueryForm s
      let b := hb s d.hb
      finish uid 0 (b.pos + putF (ofSigned 16 b.i) 16 16 + putF (hbStat s d.hb) 32 16 + putF (b.peakT / 4) 48 16) s)) ∧
  (∀ (o : Origin) (d : Desc) (s : State), Took s o 0x1105 brPosSetForm d →
    Ends (.brPosSet o) s o (
      let uid := s.nextUid
      let s := begun o d brPosSetForm s
      (withBridge d fun c s =>
           brDone d uid c (mirrorPos d.hb (setHb d.hb (fun b => { b with pos := d.u 28 16, posValid := true }) s))) s)) ∧
  (∀ (o : Origin) (d : Desc) (s : State), Took s o 0x1106 hbSetForm d →
    Ends (.hbSet o) s o (
      let uid := s.nextUid
      let s := begun o d hbSetForm s
      let h := d.hb
      let s := setHb h (fun b => { b with mode := d.u 24 8, duty := if d.u 24 8 == 2 then brDuty d else b.duty }) (endSet h 0x10 s)
      if d.u 24 8 == 2 && (hb s h).run == 2 && (hb s h).base != brDuty d then
        setHb h (fun b => { b with due := some (nextPeriod b.driveDt (hbU s h 4 2) s.dt), setUid := some uid }) s
      else finish uid 0 hbSetRes (applyHb h s))) ∧
  (∀ (o : Origin) (v1 v2 v3 : Nat) (d : Desc) (s : State), Took s o 0x1107 hbDiagRunForm d →
    Ends (.hbDiagRun o v1 v2 v3) s o (
      let uid := s.nextUid
      let s := begun o d hbDiagRunForm s
      let res := hbDiagCode (bridgeAt s d.hb).isSome v1 v2 v3
      finish uid 0 res (hbDiagResult d.hb res false (setHb d.hb (fun b => { b with offDiagDt := s.dt }) s)))) ∧
  (∀ (h : Fin 16) (s : State),
    s.pw.clocks = true →
    let b := hb s h
    ∀ t next, b.brake = some (t, next) →
    ¬ (s.dt < t) →
    exec (.brakeEnd h) s = .next (
      match next with
      | .drive d => startDrive h d s
      | .reverse => startDrive h 2 (setHb h (fun b => { b with op := b.op.map fun o => { o with kind := 5, dir := 2 } }) s)
      | .interval => wiperEvent h (toCoast h s)
      | .park => coastEnd h (wiperEvent h s)
      | .coast => coastEnd h s)) ∧
  (∀ (h : Fin 16) (s : State),
    s.pw.clocks = true →
    (legLive s h && 2000 ≤ (hb s h).peakT) = true →
    exec (.peakTimeTrip h) s = .next (hbTrip h 3 (hb s h).i.natAbs s)) ∧
  (∀ (h : Fin 16) (i : Nat) (s : State),
    s.pw.clocks = true →
    (legLive s h && 34000 ≤ i) = true →
    exec (.hbShortCircuit h i) s = .next (setHb h (fun b => { b with scLim := false }) (hbTrip h 1 (i / 10) (setHb h (fun b => { b with scLim := true, peak := max b.peak (sat 16 (i / 10)) }) s)))) ∧
  (∀ (h : Fin 16) (t : Int) (s : State),
    s.pw.clocks = true →
    (legLive s h && 2640 ≤ t) = true →
    exec (.hbOvertemp h t) s = .next (hbTrip h 2 (hb s h).i.natAbs (setHb h (fun b => { b with tSw := t, tSwMax := max b.tSwMax t }) s))) ∧
  (∀ (h : Fin 16) (s : State),
    s.pw.clocks = true →
    ∀ p, (hb s h).held = some p →
    (legCool s h && legCool s p) = true →
    exec (.hbHeldClear h) s = .next (setHb p (fun b => { b with held := none, mode := 0 }) (setHb h (fun b => { b with held := none, mode := 0 }) s))) ∧
  (∀ (h : Fin 16) (i v period : Nat) (s : State),
    s.pw.clocks = true →
    let b := hb s h
    ∀ c, (actingCfg s h) = some c →
    let drv := driving b
    ¬ (!c.ripple || !(drv || b.countFrom.isSome)) →
    exec (.ripple h i v period) s = .next (
      if !drv && (50000 < period || countOver b s.dt) then mirrorPos h (setHb h (fun b => { b with countFrom := none }) s)
           else
             let p := if b.lastDir == 2 then b.pos - 1 else min c.posMax (b.pos + 1)
             let s := setHb h (fun b => { b with pos := p, ripDt := s.dt, period := sat 16 period }) s
             if drv then rippleArrive h (pinchJudge h i v s) else s)) ∧
  (∀ (h : Fin 16) (s : State),
    s.pw.clocks = true →
    let b := hb s h
    (pinches b && b.state == 1 && b.driveDt + ms 150 ≤ s.dt && !b.pinchTime) = true →
    exec (.pinchArm h) s = .next (setHb h (fun b => { b with pinchTime := true, hist := [], beyond := 0 }) s)) ∧
  (∀ (h : Fin 16) (s : State),
    s.pw.clocks = true →
    let b := hb s h
    (b.countFrom.isSome && (countOver b s.dt || b.ripDt + ms 50 < s.dt)) = true →
    exec (.backEmfCountEnd h) s = .next (mirrorPos h (setHb h (fun b => { b with countFrom := none }) s))) ∧
  (∀ (h : Fin 16) (s : State),
    s.pw.clocks = true →
    let b := hb s h
    ∀ o, b.op = some o →
    ¬ (!driving b || !(stallByCurrent b o s.dt || stallByRipple b o s.dt)) →
    exec (.stall h) s = .next (
      if atEndStop b o then
             let p := if !o.cfg.ripple then b.pos else if b.state == 1 then o.cfg.posMax else 0
             let early := (o.kind == 2 && o.target != p) || o.kind == 3
             let s := setHb h (fun b => { b with last := 4, pos := p, posValid := b.posValid || (o.norm && o.cfg.ripple) }) s
             brakeEnd h 50 (if early then 0x02 else 0) 1 0xFFFF s
           else
             brakeEnd h 50 0x02 3 (hbSource h 21) (raise (hbSource h 21) (hbTarget h) (setHb h (fun b => { b with last := 4 }) s)))) ∧
  (∀ (x : ParkReading) (s : State),
    s.pw.clocks = true →
    exec (.wiperParked x) s = .next (parkSettle x.h s.dt (x.l.foldl (fun s r => parkRead x.h r s) s))) ∧
  (∀ (h : Fin 16) (s : State),
    s.pw.clocks = true →
    let b := hb s h
    ∀ o, b.op = some o →
    (o.kind == 4 && o.wmode == 2 && b.state == 0 && o.parkDt + ms o.interval ≤ s.dt) = true →
    exec (.wiperInterval h) s = .next (driveDir h 1 s)) ∧
  (∀ (h : Fin 16) (s : State),
    s.pw.clocks = true →
    let b := hb s h
    ∀ o, b.op = some o →
    ∀ t, b.lookFrom = some t →
    (o.kind == 4 && b.state == 1 && t + sec 5 ≤ s.dt) = true →
    exec (.parkTimeout h) s = .next (endNow h 0x02 5 (hbSource h 26) (raise (hbSource h 26) (hbTarget h) s))) ∧
  (∀ (h : Fin 16) (s : State),
    s.pw.clocks = true →
    ∀ o, (hb s h).op = some o →
    o.kind = 1 →
    ∀ t, o.endDt = some t →
    (t ≤ s.dt && o.reason != 2 && drivesOrWill (hb s h)) = true →
    exec (.driveTimeout h) s = .next (endNow h 0x02 5 0xFFFF s)) ∧
  (∀ (h : Fin 16) (s : State),
    s.pw.clocks = true →
    ∀ o, (hb s h).op = some o →
    o.kind = 3 →
    ∀ t, o.endDt = some t →
    (t ≤ s.dt && driving (hb s h)) = true →
    exec (.pulseEnd h) s = .next (brakeEnd h 20 0 0 0xFFFF s)) ∧
  (∀ (h : Fin 16) (v1 v2 v3 : Nat) (s : State),
    s.pw.dieOn = true →
    (s.stg.inForce && bitN (hbU s h 0 1) 3 && hbDiagRuns s h && (hb s h).offDiagDt + ms 100 ≤ s.dt) = true →
    exec (.hbOffStateDiagnosis h v1 v2 v3) s = .next (hbDiagResult h (hbDiagCode (bridgeAt s h).isSome v1 v2 v3) false (setHb h (fun b => { b with offDiagDt := s.dt }) s))) ∧
  (∀ (h : Fin 16) (s : State),
    s.pw.dieOn = true →
    ∀ t, (hb s h).olFrom = some t →
    (t + ms 50 ≤ s.dt && !diagSuspended s (hbBank h)) = true →
    exec (.hbOnStateOpenLoad h) s = .next (hbDiagResult h 2 true (setHb h (fun b => { b with olFrom := none }) s))) ∧
  (∀ (o : Origin) (d : Desc) (s : State), Took s o 0x1200 vlvFireForm d →
    Ends (.vlvFire o) s o (
      let uid := s.nextUid
      let s := begun o d vlvFireForm s
      let t := d.u 16 64
      let (n, s) := takeOrder s
      let f : Fire := { valve := d.ch, uid := some uid, start := if t == 0 then s.dt else t, order := n, holdMs := d.u 24 32, cfg := vlvCfg s d.ch }
      if t ≤ s.dt then requestFire f s else modVs (fun x => { x with pend := x.pend ++ [f] }) s)) ∧
  (∀ (o : Origin) (d : Desc) (s : State), Took s o 0x1201 vlvReleaseForm d →
    Ends (.vlvRelease o) s o (
      let uid := s.nextUid
      let s := begun o d vlvReleaseForm s
      let v := d.ch
      let slow := bitN (d.u 24 8) 0 || relSlow s v
      match (vlv s v).state with
      | 0 => finish uid 0 0 s
      | 1 => finish uid 0 0 (dropWaiting v 0x10 0xFFFF s)
      | 6 => setVlv v (fun x => { (if slow then slowDown x else x) with relUids := x.relUids ++ [uid] }) s
      | _ => setVlv v (fun x => { x with relUids := x.relUids ++ [uid] }) (releaseEarly v slow 0x10 0xFFFF s))) ∧
  (∀ (o : Origin) (d : Desc) (s : State), Took s o 0x1202 vlvPeriodicForm d →
    Ends (.vlvPeriodic o) s o (
      let uid := s.nextUid
      let s := begun o d vlvPeriodicForm s
      let v := d.ch
      if d.u 24 8 == 1 then finish uid 0 0 (setVlv v (fun x => { x with perNext := some (d.u 16 64) }) s)
      else
        let x := vlv s v
        let s := setVlv v (fun x => { x with perNext := none }) s
        if x.perNext.isNone || x.state == 0 then finish uid 0 0 s else setVlv v (fun x => { x with stopUid := some uid }) s)) ∧
  (∀ (o : Origin) (d : Desc) (s : State), Took s o 0x1203 vlvQueryForm d →
    Ends (.vlvQuery o) s o (
      let uid := s.nextUid
      let s := begun o d vlvQueryForm s
      finish uid 0 (fld (vlvStat s d.ch) 16 16 + putF (vlv s d.ch).i 16 16 + putF (vgStat s (d.ch / 6)) 32 16) s)) ∧
  (∀ (o : Origin) (d : Desc) (s : State), Took s o 0x1204 boostSetForm d →
    Ends (.boostSet o) s o (
      let uid := s.nextUid
      let s := begun o d boostSetForm s
      let s := if d.u 24 8 == 0 then boostTo .off s else if s.vs.boost == .off then boostTo .precharge s else s
      finish uid 0 (boostCode s.vs.boost) s)) ∧
  (∀ (o : Origin) (d : Desc) (s : State), Took s o 0x1205 ledgerQueryForm d →
    Ends (.ledgerQuery o) s o (
      let uid := s.nextUid
      let s := begun o d ledgerQueryForm s
      finish uid 0 (ofSigned 32 s.vs.resid + putF s.vs.cMeas 32 16 + putF (s.vs.vCap / 10) 48 16) s)) ∧
  (∀ (o : Origin) (m : VgDiag) (d : Desc) (s : State), Took s o 0x1206 vlvDiagRunForm d →
    Ends (.vlvDiagRun o m) s o (
      let uid := s.nextUid
      let s := begun o d vlvDiagRunForm s
      let s := vgDiagnose (d.ch / 6) m ((vgValves (d.ch / 6)).filter fun v => vlvEn s v && (v == d.ch || (vlv s v).state == 0)) s
      finish uid 0 (vlv s d.ch).offRes s)) ∧
  (∀ (v : Fin 24) (s : State),
    s.pw.dieOn = true →
    ∀ f, (s.vs.pend.find? fun f => f.valve == v.val && f.start ≤ s.dt) = some f →
    exec (.fireRequestedStart v) s = .next (requestFire f (modVs (fun x => { x with pend := x.pend.filter (·.order != f.order) }) s))) ∧
  (∀ (g : Fin 4) (s : State),
    s.pw.clocks = true →
    ∀ f, (firstWaiting (vg s g).waiting) = some f →
    (slotFree s g && capReady s f.cfg) = true →
    exec (.slotGrant g) s = .next (grantSlot f s)) ∧
  (∀ (v : Fin 24) (s : State),
    s.pw.clocks = true →
    (vlv s v).state = 1 →
    ∀ f, (vlv s v).fire = some f →
    ¬ (s.dt < f.start + f.maxDefer) →
    exec (.deferTimeout v) s = .next (
      let first := (firstWaiting (vg s (v / 6)).waiting).any fun x => x.order == f.order
      if first && slotFree s (v / 6) && !capReady s f.cfg then dropWaiting v 0x13 173 (raise 173 (vlvTarget v) s)
      else dropWaiting v 0x0D 164 (raise 164 (vlvTarget v) s))) ∧
  (∀ (v : Fin 24) (m : VlvCurs) (q : Nat) (s : State),
    s.pw.clocks = true →
    let x := vlv s v
    let c := vlvActs s v
    ¬ (x.state != 2 || m.i < c.iPeak) →
    exec (.peakReached v m q) s = .next (
      let short := (s.dt - x.since) / 80 < c.tBoostMin && c.diagOn
      let s := boostPhaseEnds v q (noteVlvCur v m.i m.hi s)
      if short then enterRelease v (relSlow s v) 0x12 167 (vlvDiag v 4 true s) else enterPeak v s)) ∧
  (∀ (v : Fin 24) (q : Nat) (s : State),
    s.pw.clocks = true →
    ((vlv s v).state == 2 && (vlv s v).since + us (vlvActs s v).tBoostMax ≤ s.dt) = true →
    exec (.boostTimeout v q) s = .next (enterRelease v (relSlow s v) 0x12 171 (raise 171 (vlvTarget v) (boostPhaseEnds v q s)))) ∧
  (∀ (v : Fin 24) (s : State),
    s.pw.clocks = true →
    ((vlv s v).state == 3 && (vlv s v).since + us (vlvActs s v).tPeak ≤ s.dt) = true →
    exec (.peakEnd v) s = .next (enterDecay v s)) ∧
  (∀ (v : Fin 24) (m : VlvCurs) (q : Nat) (s : State),
    s.pw.clocks = true →
    let x := vlv s v
    let c := vlvActs s v
    ¬ (x.state != 4 || (c.iHold < m.i && s.dt < x.since + us c.decMax)) →
    exec (.decayEnd v m q) s = .next (
      let s := noteVlvCur v m.i m.hi s
      let s := if allSlow x then s else ledgerAdd 2 q (setVlv v (fun x => { x with lastRet := sat 16 q }) s)
      enterHold v s)) ∧
  (∀ (v : Fin 24) (s : State),
    s.pw.clocks = true →
    (vlv s v).state = 5 →
    ∀ t, (vlv s v).holdEnd = some t →
    (t ≤ s.dt && !(safeHeld s (.vlv v) && (safeKind s (.vlv v) == 1 || safeKind s (.vlv v) == 2))) = true →
    exec (.holdEnd v) s = .next (vlvEvent v 0x1281 v (w32 (vlv s v).holdMs) (enterRelease v (relSlow s v) 0 0xFFFF s))) ∧
  (∀ (v : Fin 24) (m : VlvReturn) (s : State),
    s.pw.clocks = true →
    let x := vlv s v
    ¬ (x.state != 6) →
    exec (.valveOff v m) s = .next (
      let q := if allSlow x then 0 else m.q
      let s := if allSlow x then s else ledgerAdd 2 q (setVlv v (fun x => { x with lastRet := sat 16 q }) s)
      noteVlvCur v 0 m.hi (reachOff v q s))) ∧
  (∀ (v : Fin 24) (s : State),
    s.pw.clocks = true →
    let x := vlv s v
    (x.state == 6 && x.since + us (4 * x.decMax) ≤ s.dt && !x.relLate) = true →
    exec (.releaseTimeout v) s = .next (raise 167 (vlvTarget v) (setVlv v (fun x => { x with relLate := true }) s))) ∧
  (∀ (v : Fin 24) (s : State),
    s.pw.dieOn = true →
    ∀ t, (vlv s v).perNext = some t →
    ¬ (s.dt < t) →
    exec (.periodicFiring v) s = .next (
      let (n, s) := takeOrder (setVlv v (fun x => { x with perNext := some (t + ms (vlvU s v 16 2)) }) s)
      requestFire { valve := v, uid := none, start := t, order := n, holdMs := vlvU s v 18 2, cfg := vlvCfg s v, periodic := true } s)) ∧
  (∀ (vCap vbat : Nat) (s : State),
    s.pw.clocks = true →
    ¬ (s.vs.boost != .precharge) →
    exec (.prechargeDone vCap vbat) s = .next (
      let s := noteCap vCap s
      if vbat ≤ vCap + 1700 then boostTo .measure s
      else if s.vs.boostDt + ms 50 ≤ s.dt then raise 162 boostTarget (boostTo .fault s)
      else s)) ∧
  (∀ (rise vCap : Nat) (s : State),
    s.pw.clocks = true →
    ¬ (s.vs.boost != .measure) →
    exec (.measureDone rise vCap) s = .next (
      let c := 5 * rise
      let nom := 100 * boostU s 2 1
      let s := modVs (fun x => { x with cMeas := sat 16 c }) (noteCap vCap s)
      if 3 * nom ≤ 4 * c && 4 * c ≤ 5 * nom then boostTo .charging s else raise 162 boostTarget (boostTo .fault s))) ∧
  (∀ (vCap : Nat) (s : State),
    s.pw.clocks = true →
    (s.vs.boost == .charging && vReady s ≤ vCap) = true →
    exec (.boostReady vCap) s = .next (boostTo .ready (noteCap vCap s))) ∧
  (∀ (x : HeldV) (s : State),
    s.pw.clocks = true →
    ¬ (!boostOut s x.v || s.dt < x.since + ms 1) →
    (s.vs.boost == .ready) = true →
    exec (.boostSuspend x) s = .next (raise 160 boostTarget (boostTo .suspended (noteVbat x.v s)))) ∧
  (∀ (x : HeldV) (s : State),
    s.pw.clocks = true →
    ¬ (!boostOut s x.v || s.dt < x.since + ms 1) →
    ¬ (s.vs.boost == .ready) →
    (s.vs.boost == .charging) = true →
    exec (.boostSuspend x) s = .next (boostTo .suspended (noteVbat x.v s))) ∧
  (∀ (x : HeldV) (s : State),
    s.pw.clocks = true →
    (s.vs.boost == .suspended && !boostOut s x.v && s.vs.boostDt ≤ x.since && x.since + ms 10 ≤ s.dt) = true →
    exec (.boostResume x) s = .next (boostTo .charging (noteVbat x.v s))) ∧
  (∀ (s : State),
    s.pw.clocks = true →
    (s.vs.boost == .ready || s.vs.boost == .charging) = true →
    exec .boostConverterFault s = .next (raise 172 boostTarget (boostTo .fault s))) ∧
  (∀ (vCap : Nat) (s : State),
    s.pw.clocks = true →
    ¬ (vCap ≤ vBoost s + 4000) →
    exec (.boostOvervoltage vCap) s = .next (
      let s := modVs (fun x => { x with ovSlow := true }) (noteCap vCap s)
      if vBoost s + 6000 ≤ vCap then raise 161 boostTarget s else s)) ∧
  (∀ (qIn qLoss vCap : Nat) (s : State),
    s.pw.clocks = true →
    ¬ (s.dt < s.vs.winDt + sec 1) →
    exec (.ledgerWindow qIn qLoss vCap) s = .next (
      let s := ledgerAdd 3 qLoss (ledgerAdd 0 qIn (noteCap vCap s))
      let x := s.vs
      let draw := x.ledger[1] - x.winDraw
      let ret := x.ledger[2] - x.winRet
      let stored : Int := (x.cMeas : Int) * ((vCap : Int) - (x.winV : Int)) / 10000
      let resid : Int := (qIn : Int) + (ret : Int) - (draw : Int) - (qLoss : Int) - stored
      let tol := (qIn + ret + draw) / 50 + 50
      let bad := tol < resid.natAbs
      let run := if x.winOut then x.failRun else if bad then sat 8 (x.failRun + 1) else 0
      let s := modVs (fun x => { x with winDt := s.dt, winDraw := x.ledger[1], winRet := x.ledger[2], winV := vCap, winOut := false
                                        resid := if x.winOut then x.resid else resid, tol := sat 16 tol, failRun := run }) s
      if !x.winOut && bad && 3 ≤ run then raise 163 boostTarget s else s)) ∧
  (∀ (t : VsTrip) (s : State),
    s.pw.clocks = true →
    ∀ v i, t = .lowSide v i →
    let x := vlv s v
    (2 ≤ x.state && x.state ≤ 5 && 350 ≤ i) = true →
    exec (.valveShortCircuit t) s = .next (
      let on := (vlvActs s v).diagOn
      let s := raise 169 (vlvTarget v) (setVlv v (fun x => { x with i := sat 16 i, peak := max x.peak (sat 16 i) }) s)
      tripValve 169 true v (if on then vlvDiag v 4 true s else s))) ∧
  (∀ (t : VsTrip) (s : State),
    s.pw.clocks = true →
    ∀ g i, t = .highSide g i →
    ¬ (commonOf s g == 0 || i < 1400) →
    exec (.valveShortCircuit t) s = .next ((vgValves g).foldl (fun s v => tripValve 168 false v s) (raise 168 (vgTarget g) (noteVgCur g i s)))) ∧
  (∀ (t : VsTrip) (s : State),
    s.pw.clocks = true →
    ∀ g k, t = .overTemp g k →
    ¬ (k < 2640) →
    exec (.valveShortCircuit t) s = .next ((vgValves g).foldl (fun s v => tripValve 170 false v s) (raise 170 (vgTarget g) s))) ∧
  (∀ (v : Fin 24) (t : Int) (s : State),
    s.pw.clocks = true →
    ∀ t0, (vlv s v).held = some t0 →
    (t ≤ 2400 && t0 + ms 100 ≤ s.dt) = true →
    exec (.valveHeldClear v t) s = .next (setVlv v (fun x => { x with held := none }) s)) ∧
  (∀ (g : Fin 4) (m : VgDiag) (s : State),
    s.pw.dieOn = true →
    let l := vgDiagSet s g
    (s.stg.inForce && !l.isEmpty && vgDiagRuns s g l && (vg s g).diagDt + ms 100 ≤ s.dt) = true →
    exec (.valveOffStateDiagnosis g m) s = .next (vgDiagnose g m l (setVg g (fun x => { x with diagDt := s.dt }) s))) ∧
  (∀ (f : VsFinding) (s : State),
    s.pw.clocks = true →
    (!crankRange s.pw.vbat) = true →
    ∀ v i since, f = .openLoad v i since →
    ((vlv s v).state == 2 && (vlvActs s v).diagOn && i < (vlvActs s v).iPeak && (vlv s v).since ≤ since && since + us 200 ≤ s.dt) = true →
    exec (.valveOnStateDiagnosis f) s = .next (releaseEarly v (relSlow s v) 0x12 165 (vlvDiag v 2 true s))) ∧
  (∀ (f : VsFinding) (s : State),
    s.pw.clocks = true →
    (!crankRange s.pw.vbat) = true →
    ∀ g high lows since, f = .shortGround g high lows since →
    ¬ (commonOf s g == 0 || high ≤ lows + 300 || s.dt < since + ms 1) →
    exec (.valveOnStateDiagnosis f) s = .next (((vgValves g).filter fun v => vlvEn s v && bitN (vlvU s v 0 1) 4).foldl (fun s v => vlvDiag v 3 true s) s)) ∧
  (∀ (n : Fin 4) (s : State),
    s.pw.dieOn = true →
    exec (.ledgerLoRead n) s = .next (latchLedger n s)) ∧
  (∀ (vCap : Nat) (s : State),
    s.pw.clocks = true →
    vCap < vBoost s + 2000 →
    exec (.ovSlowEnd vCap) s = .next (modVs (fun x => { x with ovSlow := false }) (noteCap vCap s)))

/-- Every command and event of switch inputs and of the field die answers a next state, the one stated.
(08_switch_inputs.md; 09_body_builder_io.md) -/
def Obligations.SwitchAndFieldCommandsComplete : Prop :=
  (∀ (vbat : Nat) (s : State),
    s.pw.dieOn = true →
    (vbat < 6000 && !s.sw.frozen) = true →
    exec (.isSupplyLow vbat) s = .next (raise 194 0xFFFF (modSw (fun x => { x with frozen := true }) (noteVbat vbat s)))) ∧
  (∀ (m : HeldV) (s : State),
    s.pw.dieOn = true →
    (6500 ≤ m.v && s.sw.frozen && m.since + ms 1 ≤ s.dt) = true →
    exec (.isSupplyReturn m) s = .next (modSw (fun x => { x with frozen := false, inputs := x.inputs.map fun v => { v with deb := debAgain s.dt v.deb } }) (noteVbat m.v s))) ∧
  (∀ (n : Fin 48) (s : State),
    s.pw.dieOn = true →
    ∀ w1 t, (swi s n).clean = some (w1, t) →
    t ≤ s.dt →
    exec (.cleaningPulseEnd n) s = .next (endClean n s)) ∧
  (∀ (n : Fin 48) (s : State),
    s.pw.dieOn = true →
    let v := swi s n
    let t := swiU s n 8 2
    (swiEn s n && v.valid && v.level && !s.sw.frozen && !v.stuck && t != 0 && v.actDt + sec t ≤ s.dt) = true →
    exec (.swiStuck n) s = .next (raise 192 (swiTarget n) (emitOn .base (swiU s n 6 1) 0x1381 (swiTarget n) n t (setSwi n (fun v => { v with stuck := true }) s)))) ∧
  (∀ (g : Fin 8) (m : PollReading) (s : State),
    ∀ p, s.sw.polls[g] = some p →
    (rootPolls s && pollDue p s.rt) = true →
    exec (.poll g m) s = .next (
      let p := { p with lastRt := some s.rt, seen := pollSeen p m.vbat m.v s.rt }
      modSw (fun x => { x with polls := x.polls.set g (some p) }) s)) ∧
  (∀ (t : Int) (s : State),
    s.pw.dieOn = true →
    (2400 ≤ t && !s.sw.thermCap) = true →
    exec (.wetThermal t) s = .next (raise 195 0xFFFF ((List.range 48).foldl (fun s n => endClean n s) (modSw (fun x => { x with thermCap := true }) s)))) ∧
  (∀ (t : Int) (s : State),
    s.pw.dieOn = true →
    ¬ (2400 ≤ t && !s.sw.thermCap) →
    (t < 2160 && s.sw.thermCap) = true →
    exec (.wetThermal t) s = .next ((List.range 8).foldl (fun s _ => serveClean s) (modSw (fun x => { x with thermCap := false }) s))) ∧
  (∀ (o : Origin) (d : Desc) (s : State), Took s o 0x1300 swiQueryForm d →
    Ends (.swiQuery o) s o (
      let uid := s.nextUid
      let s := begun o d swiQueryForm s
      let v := swi s d.ch
      finish uid 0 (b2n v.level + 2 * b2n (swiRaw s d.ch) + 4 * b2n v.valid + putF v.band 4 4 + putF v.code 8 12 + putF v.lastDt 32 32) s)) ∧
  (∀ (o : Origin) (d : Desc) (s : State), Took s o 0x1301 swiSnapshotForm d →
    Ends (.swiSnapshot o) s o (
      let uid := s.nextUid
      let s := begun o d swiSnapshotForm s
      finish uid 0 (swiLevels s) s)) ∧
  (∀ (o : Origin) (d : Desc) (s : State), Took s o 0x1302 swiCleanForm d →
    Ends (.swiClean o) s o (
      let uid := s.nextUid
      let s := begun o d swiCleanForm s
      startClean d.ch (some uid) s)) ∧
  (∀ (o : Origin) (rb : Bool) (d : Desc) (s : State), Took s o 0x1400 fioSetForm d →
    Ends (.fioSet o rb) s o (
      let uid := s.nextUid
      let s := begun o d fioSetForm s
      let s := applyFio d.ch (setFio d.ch (fun c => { c with mode := d.u 24 8 == 1, readback := rb }) s)
      finish uid 0 (b2n rb + putF (fio s d.ch).swDt 32 32) s)) ∧
  (∀ (o : Origin) (rb : Bool) (i : Nat) (d : Desc) (s : State), Took s o 0x1401 fioQueryForm d →
    Ends (.fioQuery o rb i) s o (
      let uid := s.nextUid
      let s := begun o d fioQueryForm s
      let s := noteFioCur d.ch i (setFio d.ch (fun c => if fioOut s d.ch then { c with readback := rb } else c) s)
      let c := fio s d.ch
      let r := b2n (c.level && !c.wire) + 2 * b2n c.valid + 4 * b2n c.wire + 8 * b2n c.on + 16 * b2n c.readback + putF c.diag 5 3 + putF c.i 8 16
      finish uid 0 (r + putF (if fioOut s d.ch then c.swDt else c.lastDt) 32 32) s)) ∧
  (∀ (o : Origin) (d : Desc) (s : State), Took s o 0x1402 fioSnapshotForm d →
    Ends (.fioSnapshot o) s o (
      let uid := s.nextUid
      let s := begun o d fioSnapshotForm s
      finish uid 0 (fsLevels s + 2 ^ 32 * fioBits s (·.wire)) s)) ∧
  (∀ (o : Origin) (d : Desc) (s : State), Took s o 0x1403 fioClearForm d →
    Ends (.fioClear o) s o (
      let uid := s.nextUid
      let s := begun o d fioClearForm s
      let before := fld (fioStat s d.ch) 0 16
      finish uid 0 before (applyFio d.ch (setFio d.ch (fun c => { c with count := 0, latched := false, mode := false }) s)))) ∧
  (∀ (o : Origin) (v gap : Nat) (d : Desc) (s : State), Took s o 0x1404 fsQueryForm d →
    Ends (.fsQuery o v gap) s o (
      let uid := s.nextUid
      let s := begun o d fsQueryForm s
      let g := sat 16 (max gap s.fs.gapMax)
      let s := modFs (fun x => { x with gapMax := 0 }) (noteFl v s)
      finish uid 0 (s.fs.v + putF s.fs.edgeDrop 16 16 + putF g 32 16) s)) ∧
  (∀ (x : HeldV) (s : State),
    (s.fs.powered && x.v < 16500) = true →
    exec (.fsSupplyLow x) s = .next (
      let s := if s.fs.supply == 1 || s.dt < x.since + ms 1 then noteFl x.v s else supplyCond 1 x.v s
      if s.fs.backup && x.v < 12000 then fsUnpowered s else s)) ∧
  (∀ (x : HeldV) (s : State),
    (s.fs.powered && 33500 < x.v && s.fs.supply != 2 && x.since + ms 1 ≤ s.dt) = true →
    exec (.fsSupplyHigh x) s = .next (supplyCond 2 x.v s)) ∧
  (∀ (x : HeldV) (s : State),
    (s.fs.powered && x.since + ms 10 ≤ s.dt && ((s.fs.supply == 1 && 17000 ≤ x.v) || (s.fs.supply == 2 && x.v ≤ 33000))) = true →
    exec (.fsSupplyNormal x) s = .next (fsEvent 0x1483 0 (sat 16 x.v) (applyFios (modFs (fun f => { f with supply := 0 }) (noteFl x.v s))))) ∧
  (∀ (v : Nat) (s : State),
    exec (.barrierPowerFail v) s = .next (barrierLost v s)) ∧
  (∀ (n : Fin 32) (i since : Nat) (s : State),
    (s.fs.powered && fioEn s n && !fioOut s n && fioFunc s n == 1 && s.fs.supply != 1 && since + ms (fioU s n 8 2) ≤ s.dt) = true →
    exec (.fioWire n i since) s = .next (
      let c := fio s n
      let low := decide (i < fioU s n 6 2)
      let s := noteFioCur n i s
      if low && !c.wire then
        fsRaise 226 (fioTarget n) (fioEvent n 0x1481 (n + 256) (sat 16 i) (setFio n (fun c => { c with wire := true, level := false }) s))
      else if !low && c.wire then
        fioEvent n 0x1481 n (sat 16 i) (setFio n (fun c => { c with wire := false, valid := false, level := false, initial := true, deb := debAgain s.dt c.deb }) s)
      else s)) ∧
  (∀ (n : Fin 32) (l : List FioReading) (s : State),
    (fioFunc s n == 2) = true →
    exec (.fioChange n l) s = .next (fioTrace n l s)) ∧
  (∀ (s : State),
    (fsFrames s && !s.fs.unreported && barrierFree s.fs s.dt) = true →
    ∀ e rest, s.fs.queue = e :: rest →
    exec .edgeQueueDelivery s = .next (
      let s := modFs (fun f => { f with queue := rest, overTold := f.overTold && !rest.isEmpty, lastDelivery := some s.dt }) s
      let s := fioChange e.ch e.level e.initial true e.bounces e.i e.stamp s
      if rest.length < 32 && s.fs.drops != 0 then fsEvent 0x1485 (w32 s.fs.drops) 0 (modFs (fun f => { f with drops := 0 }) s) else s)) ∧
  (∀ (n : Fin 32) (hot : Bool) (i since : Nat) (s : State),
    ((fio s n).on && (hot || (700 ≤ i && since + ms 9 ≤ s.dt))) = true →
    exec (.fioProt n hot i since) s = .next (
      let c := fio s n
      let latch := c.count == fioU s n 14 1
      let cause := if hot then 2 else 1
      let s := setFio n (fun c => { c with held := if latch then none else some s.dt, latched := latch, mode := c.mode && !latch, lastProt := s.dt }) (noteFioCur n i s)
      let s := fioEvent n 0x1482 (n + putF cause 8 4 + putF c.count 12 4 + putF (b2n latch) 16 1) (sat 16 i) (applyFio n s)
      let s := fsRaise (226 + cause) (fioTarget n) s
      if latch then fsRaise 229 (fioTarget n) s else s)) ∧
  (∀ (n : Fin 32) (t : Int) (s : State),
    ∀ h, (fio s n).held = some h →
    (h + ms 100 ≤ s.dt && t ≤ 2400) = true →
    exec (.fioRestart n t) s = .next (applyFio n (setFio n (fun c => { c with held := none, count := sat 4 (c.count + 1) }) s))) ∧
  (∀ (n : Fin 32) (s : State),
    (fio s n).lastProt + sec 10 ≤ s.dt →
    exec (.fioCountReset n) s = .next (setFio n (fun c => { c with count := 0 }) s)) ∧
  (∀ (n : Fin 32) (x : FioFinding) (i since : Nat) (s : State),
    (s.fs.powered && fioEn s n && fioOut s n && s.fs.supply == 0) = true →
    let c := fio s n
    let r := fioResult x
    ¬ (!fioFound s n x i since) →
    exec (.fioDiag n x i since) s = .next (
      let s := noteFioCur n i (setFio n (fun c => { c with diag := r, readback := fioReadback c.readback c.on x }) s)
      let s := if c.diag == r then s else fioEvent n 0x1486 (n + putF r 8 3) (sat 16 i) s
      if r == 1 then s else fsRaise (if r == 2 then 231 else 230) (fioTarget n) s)) ∧
  (∀ (gap : Nat) (s : State),
    ∀ t, (silenceMs s) = some t →
    (s.fs.powered && !s.fs.parked && !s.fs.unreported && 1000 * t ≤ gap) = true →
    exec (.silenceTimeout gap) s = .next (
      let s := modFs (fun x => { x with unreported := true, fio := x.fio.map fun c => { c with silent := true } }) s
      (List.range 32).foldl (fun s n => fioEnter n s) s)) ∧
  (∀ (len last : Nat) (s : State),
    (fsFrames s && s.fs.unreported) = true →
    exec (.fsSilence len last) s = .next (
      let s := modFs (fun x => { x with unreported := false, gapMax := max x.gapMax len }) s
      raise 233 fsTarget (fsEvent 0x1484 (sat 32 len) (w32 last) s))) ∧
  (∀ (s : State),
    s.pw.clocks = true →
    exec .barrierPowerReturn s = .next (barrierBack s))

/-- Every command and event of the CAN FD controllers answers a next state, the one stated; CAN_TX with its data in
the descriptor and with a block. (10_can_fd.md; R252 to R269) -/
def Obligations.CanCommandsComplete : Prop :=
  (∀ (n : Fin 8) (f : CanFrame) (s : State),
    s.pw.dieOn = true →
    let w := memLe (tblM s 9) 276 4
    ¬ (diagCan s != n || !canHears s n s.dt || s.diagBusy || !f.fd || dlcLen f.fd f.dlc != 32 || f.ide != bitN w 29 || f.ident != fld w 0 29) →
    exec (.diagnosticRequest n f) s = .next { s with diagBusy := true, diagPipe := some { origin := .diag, raw := BitVec.ofNat 256 (ofLe (f.data.take 32)) } }) ∧
  (∀ (o : Origin) (d : Desc) (s t : State) (bs : List Byte), Took s o 0x1800 canTxForm d → BlockHere o d canTxForm paramBlock s bs t →
    Ends (.canTx o .run) s o (canTxPlace d s.nextUid (if d.plen = 0 then leBytes 8 (d.u 16 64) else bs) t)) ∧
  (∀ (o : Origin) (d : Desc) (s : State), Took s o 0x1801 canTxCancelForm d →
    Ends (.canTxCancel o) s o (
      let uid := s.nextUid
      let s := begun o d canTxCancelForm s
      match (can s d.ch).bufs.find? fun b => match b.src with | .desc _ t => t == d.u 16 64 | _ => false with
      | none => finish uid 0 3 s
      | some b => registerStop d.ch b false (some uid) s)) ∧
  (∀ (o : Origin) (d : Desc) (s : State), Took s o 0x1802 canQueryForm d →
    Ends (.canQuery o) s o (
      let uid := s.nextUid
      let s := begun o d canQueryForm s
      let c := can s d.ch
      finish uid 0 (sat 8 c.tec + putF (sat 8 c.errs) 8 8 + putF c.st 16 2 + putF (b2n c.recovering) 18 1 + putF c.lec 20 3 + putF (txUsed c) 24 6 +
        putF (seg s d.ch).xcvr 30 2 + putF c.meas 32 7) s)) ∧
  (∀ (o : Origin) (d : Desc) (s : State), Took s o 0x1803 canRecoverForm d →
    Ends (.canRecover o) s o (
      let uid := s.nextUid
      let s := begun o d canRecoverForm s
      finish uid 0 0 (setCan d.ch (fun c => { c with recovering := true, recovSeq := 0 }) s))) ∧
  (∀ (o : Origin) (d : Desc) (s : State), Took s o 0x1804 canQueueQueryForm d →
    Ends (.canQueueQuery o) s o (
      let uid := s.nextUid
      let s := begun o d canQueueQueryForm s
      let q := (at? (can s d.ch).q (d.u 24 8)).getD {}; finish uid 0 (q.matched + 2 ^ 32 * q.dropped) s)) ∧
  (∀ (n : Fin 8) (f : CanFrame) (sof : Nat) (s : State),
    s.pw.dieOn = true →
    (!dieDown s .base && sof ≤ s.dt) = true →
    exec (.frameReceived n f sof) s = .next (
      let s := busActive n s
      if !canHears s n sof then s else if f.fd && !canFlagAt s n sof 1 then receiveError n 2 1 s else takeFrame n f sof s)) ∧
  (∀ (n : Fin 8) (s : State),
    s.pw.dieOn = true →
    ∀ h rest, (can s n).hold = h :: rest →
    exec (.frameRecordWrite n) s = .next (
      let s := setCan n (fun c => { c with hold := rest }) s
      let recs := rxRecords n h
      match fin? 64 h.ring with
      | none => dropFrame n h.queue h.ring s
      | some r =>
        let x := s.rings[r]
        if x.active && x.role && recs.length ≤ credits x then
          let s := recs.foldl (fun s e => toPrograms e (putRecord r e false s)) s
          watchStalls (modQueue n h.queue (fun q => { q with accepted := w32 (q.accepted + 1), seen := true }) s)
        else dropFrame n h.queue h.ring s)) ∧
  (∀ (n : Fin 8) (s : State),
    s.pw.dieOn = true →
    let c := can s n
    ¬ (!segOpen s n || (seg s n).xcvr != 0 || segStopped s n || dieDown s .base || c.st == 2 || c.integ.isSome || c.attempt.isSome) →
    exec (.arbitrationStart n) s = .next (
      let s := ownBufs n s
      match bestBuf (readyBufs s n) with
      | none => s
      | some b => setCan n (fun c => { c with attempt := some { order := b.order, sof := s.dt, boundary := boundaryOf s n s.dt b.frame }
                                              bufs := c.bufs.map fun x => if x.order == b.order then { x with attempts := x.attempts + 1, last := 0, frame := { x.frame with esi := x.frame.fd && c.st == 1 } } else x }) s)) ∧
  (∀ (n : Fin 8) (edges : List Nat) (s : State),
    s.pw.dieOn = true →
    ∀ a b, (running s n) = some (a, b) →
    ¬ (s.dt < a.boundary || flagStops s n a b || (seg s n).xcvr == 1) →
    exec (.frameTransmitted n edges) s = .next (
      let s := setCan n (fun c => { c with attempt := none }) (dropBuf n b.order s)
      let s := sidGood n b.frame (measure n a.sof b.frame edges s)
      let s := transmitCounts n ((can s n).tec - 1) s
      let s := if canFlagAt s n a.sof 5 then filterFrame n b.frame a.sof true s else s
      match b.src with
      | .route r => routeForwarded r s
      | .announce => setSeg n (fun g => { g with annSent := some a.sof }) s
      | .release => relSent s
      | _ => txEnds b (match b.stop with | some t => if t.timeout then 0x00 else 0x11 | none => 0) a.sof 2 s)) ∧
  (∀ (n : Fin 8) (why : AttemptFail) (edges : Option (List Nat)) (s : State),
    s.pw.dieOn = true →
    ∀ a b, (running s n) = some (a, b) →
    exec (.transmitAttemptFailed n why edges) s = .next (
      let s := match edges with | some l => measure n a.sof b.frame l s | none => s
      match why with
      | .arbitrationLost => attemptOver n b 1 s
      | .error lec exempt inData =>
        let s := setCan n (fun c => { c with lec := lec }) s
        let s := if inData && (lec.val == 4 || lec.val == 5) then sidBad n b.frame s else s
        txError n exempt (attemptOver n b 2 s))) ∧
  (∀ (n : Fin 8) (s : State),
    s.pw.dieOn = true →
    ∀ a b, (running s n) = some (a, b) →
    ∀ t, b.stop = some t →
    (t.before && canFlagAt s n a.sof 7 && a.boundary < s.dt && (seg s n).xcvr != 1) = true →
    exec (.cancelErrorFlag n) s = .next (txError n false (attemptOver n b 3 s))) ∧
  (∀ (n : Fin 8) (s : State),
    s.pw.dieOn = true →
    exec (.txTimeout n) s = .next (
      let due := (can s n).bufs.filter fun b => match b.deadline with | some t => t ≤ s.dt | none => false
      due.foldl (fun s b => registerStop n b true none s) s)) ∧
  (∀ (n : Fin 8) (s : State),
    s.pw.dieOn = true →
    ((can s n).st == 2 && !(can s n).recovering && canFlag s n 4 && !dieDown s .base && (can s n).busoffDt + ms (canU s n 14 2) ≤ s.dt) = true →
    exec (.busoffHoldExpiry n) s = .next (setCan n (fun c => { c with recovering := true, recovSeq := 0 }) s)) ∧
  (∀ (x : SeqCount) (s : State),
    s.pw.dieOn = true →
    ((can s x.n).st == 2 && (can s x.n).recovering && (seg s x.n).xcvr == 0 && !dieDown s .base) = true →
    exec (.busoffRecoveryComplete x) s = .next (
      let k := min 128 ((can s x.n).recovSeq + x.seqs)
      let s := setCan x.n (fun c => { c with recovSeq := k }) s
      if k < 128 then s else setCounts x.n 0 0 (setCan x.n (fun c => { c with recovering := false }) s))) ∧
  (∀ (n : Fin 8) (s : State),
    s.pw.dieOn = true →
    (canEn s n && (seg s n).xcvr == 0 && !dieDown s .base) = true →
    exec (.txdDominant n) s = .next (raise 205 (netTarget n) s)) ∧
  (∀ (n : Fin 8) (s : State),
    s.pw.dieOn = true →
    (canEn s n && (seg s n).xcvr ≤ 1 && !dieDown s .base) = true →
    exec (.busIntegrated n) s = .next (setCan n (fun c => { c with integ := none }) s)) ∧
  (∀ (n : Fin 8) (why : RxError) (eight : Bool) (s : State),
    s.pw.dieOn = true →
    (!dieDown s .base && why.sof ≤ s.dt) = true →
    exec (.receiveError n why eight) s = .next (
      let s := busActive n s
      if !canHears s n why.sof then s
      else match why.kind with
        | .error lec => receiveError n lec (if eight then 8 else 1) s
        | .resBit => if canFlagAt s n why.sof 6 then setCan n (fun c => { c with integ := some 0 }) s else receiveError n 2 1 s))

/-- Every command and event of LIN, the gateway and network sleep answers a next state, the one stated.
(11_lin_and_gateway.md; 12_network_sleep.md) -/
def Obligations.LinAndSleepCommandsComplete : Prop :=
  (∀ (o : Origin) (d : Desc) (s : State), Took s o 0x1900 linWriteForm d →
    Ends (.linWrite o) s o (
      let uid := s.nextUid
      let s := begun o d linWriteForm s
      finish uid 0 (putF s.dt 32 32) (pubWrite (d.ch - 8) (d.u 24 8) (d.u 25 8) (leBytes (d.u 26 8) (d.u 16 64)) none s))) ∧
  (∀ (o : Origin) (d : Desc) (s : State), Took s o 0x1901 linSchedForm d →
    Ends (.linSched o) s o (
      let uid := s.nextUid
      let s := begun o d linSchedForm s
      let n := d.ch - 8
      let s := setLin n (fun l => { l with pend := l.pend ++ [(uid, d.u 24 8, bitN (d.u 25 8) 0)] }) s
      if (lin s n).sched.isNone && (lin s n).slotEnd ≤ s.dt then takeScheds n true (lin s n).pend s else s)) ∧
  (∀ (o : Origin) (d : Desc) (s : State), Took s o 0x1902 linDiagReqForm d →
    Ends (.linDiagReq o) s o (
      let uid := s.nextUid
      let s := begun o d linDiagReqForm s
      setLin (d.ch - 8) (fun l => { l with diag := some (uid, leBytes 8 (d.u 16 64)) }) s)) ∧
  (∀ (o : Origin) (d : Desc) (s : State), Took s o 0x1903 linQueryForm d →
    Ends (.linQuery o) s o (
      let uid := s.nextUid
      let s := begun o d linQueryForm s
      let l := lin s (d.ch - 8)
      finish uid 0 (l.sched.getD 0xFF + putF l.slot 8 12 + putF (b2n l.coll.isSome) 20 1 + putF (seg s d.ch).xcvr 21 2 + putF l.errs 32 32) s)) ∧
  (∀ (o : Origin) (d : Desc) (s : State), Took s o 0x1904 gwIsolateForm d →
    Ends (.gwIsolate o) s o (
      let uid := s.nextUid
      let s := begun o d gwIsolateForm s
      let b := d.u 24 8
      let on := d.u 25 8 == 1
      let s := setSeg b (fun g => { g with isoHost := on, swk := g.swk && !on, swkErr := if on then 0 else g.swkErr }) s
      let s := if on then gwDropFor b 3 s else s
      finish uid 0 (isoMap s) s)) ∧
  (∀ (o : Origin) (d : Desc) (s : State), Took s o 0x1905 gwRouteQueryForm d →
    Ends (.gwRouteQuery o) s o (
      let uid := s.nextUid
      let s := begun o d gwRouteQueryForm s
      let c := routeCnt s (d.u 28 16); finish uid 0 (c.matched + 2 ^ 32 * c.forwarded) s)) ∧
  (∀ (n : Fin 8) (s : State),
    s.pw.dieOn = true →
    (lin s n).slotEnd ≤ s.dt →
    (linRuns s n && ((lin s n).sched.isSome || !(lin s n).pend.isEmpty)) = true →
    exec (.linSlotStart n) s = .next (startSlot n s)) ∧
  (∀ (n : Fin 8) (s : State),
    s.pw.dieOn = true →
    (lin s n).slotEnd ≤ s.dt →
    ¬ (linRuns s n && ((lin s n).sched.isSome || !(lin s n).pend.isEmpty)) →
    (linHears s n && !segStopped s (8 + n) && (seg s (8 + n)).st == .drain && !sleepCmdOut s n) = true →
    exec (.linSlotStart n) s = .next (startSleepCmd n s)) ∧
  (∀ (n : Fin 8) (data : List Byte) (cks : Byte) (s : State),
    s.pw.dieOn = true →
    ∀ c, (lin s n).cur = some c →
    ¬ (!linHears s n || !c.sub || data.length != c.len || cks.toNat != linCks c.fid c.enhanced data || c.brk + c.tMax < s.dt) →
    exec (.linRx n data cks) s = .next (
      let assoc := if c.kind == 1 then fld ((data.head?.map (·.toNat)).getD 0) 0 6 else c.fid
      let s := setPub n c.fid (fun p => { p with run := 0 }) (setLin n (fun l => { l with cur := some { c with sub := false } }) s)
      let d1 := c.fid + putF (pidOf c.fid) 8 8 + putF c.len 16 4 + putF (b2n c.enhanced) 20 1 + putF (b2n (c.kind == 1)) 21 1
      let s := emitAt c.rxRing 0x1980 (netTarget (8 + n)) d1 (ofLe data) c.brk false s
      routeFrom (routesAt s c.brk) true n assoc false data s)) ∧
  (∀ (n : Fin 8) (code : Fin 7) (got : Nat) (header : Bool) (s : State),
    s.pw.dieOn = true →
    ∀ c, (lin s n).cur = some c →
    let k := code.val
    ¬ (!linErrFits c k s.dt || !linHears s n) →
    exec (.linErr n code got header) s = .next (
      let noRes := k == 1 || k == 2
      let run := if noRes then sat 8 ((pub s n c.fid).run + 1) else 0
      let was := (pub s n c.fid).run
      let s := setPub n c.fid (fun p => { p with run := run }) s
      let bad := k == 5 && header && !c.hdrBad
      let hdr := if bad then (lin s n).hdrRun + 1 else (lin s n).hdrRun
      let s := setLin n (fun l => { l with cur := some { c with sub := false, hdrBad := c.hdrBad || bad }, lastErr := k, errs := sat 32 (l.errs + 1), hdrRun := hdr
                                           noResp := if noRes then sat 16 (l.noResp + 1) else l.noResp
                                           other := if noRes then l.other else sat 16 (l.other + 1)
                                           collPend := if k == 6 && c.collSched != 0xFF && l.coll.isNone then some c.collSched else l.collPend }) s
      let s := emit c.evtRing 0x1981 (netTarget (8 + n)) (c.fid + putF k 8 3 + putF (sat 8 got) 16 8 + putF run 24 8) 0 s
      if noRes && run == c.nrRun && was < run then raise 206 (netTarget (8 + n)) s
      else if k == 3 then raise 207 (netTarget (8 + n)) s
      else if bad && hdr == 3 then raise 208 (netTarget (8 + n)) s
      else s)) ∧
  (∀ (n : Fin 8) (s : State),
    let b := 8 + n.val
    ((seg s b).arm.isSome) = true →
    exec (.linBusDominant n) s = .next (setSeg b (fun g => { g with domLate := true }) s)) ∧
  (∀ (n : Fin 8) (s : State),
    let b := 8 + n.val
    ¬ ((seg s b).arm.isSome) →
    s.pw.dieOn = true →
    (linEn s n && !(lin s n).busDom) = true →
    ((seg s b).st == .asleep) = true →
    (nsDetects s b) = true →
    exec (.linBusDominant n) s = .next (setSeg b (fun g => { g with domLate := true }) s)) ∧
  (∀ (n : Fin 8) (s : State),
    let b := 8 + n.val
    ¬ ((seg s b).arm.isSome) →
    s.pw.dieOn = true →
    (linEn s n && !(lin s n).busDom) = true →
    ¬ ((seg s b).st == .asleep) →
    exec (.linBusDominant n) s = .next (raise 208 (netTarget b) (setSeg b (fun g => { g with quietSince := s.dt }) (setLin n (fun l => { l with busDom := true, cur := none }) s)))) ∧
  (∀ (n : Fin 8) (s : State),
    s.pw.dieOn = true →
    ∀ h, (s.ns.holding.find? fun h => h.can == n.val) = some h →
    ¬ (gwTxBuf s n ≤ txGw (can s n) || 32 ≤ txUsed (can s n)) →
    exec (.gatewayBufferAssign n) s = .next (
      let s := modNs (fun x => { x with holding := x.holding.erase h }) s
      addBuf n (fun k => { src := .route h.route, frame := h.frame, valid := h.valid, maxAge := h.maxAge, order := k }) s)) ∧
  (∀ (s : State),
    s.pw.dieOn = true →
    exec .gatewayMaxAge s = .next (
      let late := fun valid maxAge : Nat => decide (valid + ms maxAge ≤ s.dt)
      let held := s.ns.holding.filter fun h => late h.valid h.maxAge
      let isLate := fun b : TxBuf => match b.src with | .route _ => b.attempts == 0 && late b.valid b.maxAge | _ => false
      let bufs := ((List.range 8).map fun n => (can s n).bufs.filter isLate).flatten
      let s := modNs (fun x => { x with holding := x.holding.filter fun h => !late h.valid h.maxAge
                                        can := x.can.map fun c => { c with bufs := c.bufs.filter fun b => !isLate b } }) s
      let rs := held.map (·.route) ++ bufs.filterMap fun b => match b.src with | .route r => some r | _ => none
      rs.foldl (fun s r => routeDrop r 1 s) s)) ∧
  (∀ (r : Nat) (s : State),
    s.pw.dieOn = true →
    let c := routeCnt s r
    ∀ t, c.interval = some t →
    t + ms 100 ≤ s.dt →
    exec (.gwDrop r) s = .next (emit (gwRing s) 0x1983 gwTarget (fld r 0 11 + putF c.reason 11 3) c.since (setRoute r (fun c => { c with since := 0, interval := none }) s))) ∧
  (∀ (n : Fin 8) (s : State),
    s.pw.dieOn = true →
    ((lin s n).busDom) = true →
    exec (.linBusRecessive n) s = .next (busActive (8 + n) (setLin n (fun l => { l with busDom := false, slotEnd := s.dt }) s))) ∧
  (∀ (o : Origin) (d : Desc) (s : State), Took s o 0x1A00 netSleepForm d →
    Ends (.netSleep o) s o (
      let uid := s.nextUid
      let s := begun o d netSleepForm s
      let b := d.ch
      let s := if b < 8 && (seg s b).xcvr != 0 then setCan b (fun c => { c with integ := some 0 }) s else s
      let s := setSeg b (fun g => { g with released := true, sleep := some (uid, s.dt), tQuiet := segU s b 2 2, tAgree := netU s 0 2, awakeSince := some s.dt, keeper := none, xcvr := 0 }) s
      let s := segState b .drain 0 s
      if b < 8 then
        let run := (can s b).attempt.map (·.order)
        let idle := fun x : TxBuf => (match x.src with | .desc _ _ => true | .diag => true | _ => false) && run != some x.order
        let gone := (can s b).bufs.filter idle
        let s := setCan b (fun c => { c with bufs := c.bufs.filter fun x => !idle x }) s
        let s := gone.foldl (fun s x => txEnds x 0x10 (txFailRes x 0) 0 s) s
        gwDropFor b 4 s
      else
        let n := b - 8
        let s := match (lin s n).diag with | some (u, _) => finishFree u 0x10 (setLin n (fun l => { l with diag := none }) s) | none => s
        s)) ∧
  (∀ (o : Origin) (d : Desc) (s : State), Took s o 0x1A01 netWakeForm d →
    Ends (.netWake o) s o (
      let uid := s.nextUid
      let s := begun o d netWakeForm s
      let b := d.ch
      let g := seg s b
      if g.st == .awake then finish uid 0 (putF g.changeDt 32 32) s
      else
        let s := setSeg b (fun x => { x with wakeUids := x.wakeUids ++ [(uid, segCode g.st)] }) s
        if g.st == .waking then s else segWake b 1 true s)) ∧
  (∀ (o : Origin) (d : Desc) (s : State), Took s o 0x1A02 netListenForm d →
    Ends (.netListen o) s o (
      let uid := s.nextUid
      let s := begun o d netListenForm s
      let was := (seg s d.ch).xcvr
      let s := setSeg d.ch (fun g => { g with xcvr := d.u 24 8 }) s
      let s := if was == 1 && d.u 24 8 == 0 then setCan d.ch (fun c => { c with integ := some 0 }) s else s
      finish uid 0 0 s)) ∧
  (∀ (o : Origin) (d : Desc) (s : State), Took s o 0x1A03 netQueryForm d →
    Ends (.netQuery o) s o (
      let uid := s.nextUid
      let s := begun o d netQueryForm s
      let g := seg s d.ch
      finish uid 0 (segCode g.st + putF g.xcvr 4 2 + putF (b2n g.released) 6 1 + putF (b2n g.isoHost) 7 1 + putF (b2n g.isoAuto) 8 1 + putF (b2n (segArmed s d.ch)) 9 1 +
        putF (awakeSecs s d.ch) 16 16 + putF g.changeDt 32 32) s)) ∧
  (∀ (b : Fin 16) (s : State),
    s.pw.dieOn = true →
    let n := b.val - 8
    let ready := if b.val < 8 then (can s b).attempt.isNone else sleepCmdOut s n && (lin s n).slotEnd ≤ s.dt
    ¬ ((seg s b).st != .drain || !ready) →
    exec (.drainEnd b) s = .next (
      let s := if b.val < 8 then s else setLin n (fun l => { l with cur := none }) s
      segState b .quiet 0 (setSeg b (fun g => { g with quietSince := s.dt }) s))) ∧
  (∀ (b : Fin 16) (s : State),
    s.pw.dieOn = true →
    ((seg s b).st == .quiet && !(8 ≤ b.val && (lin s (b - 8)).busDom) && (seg s b).quietSince + ms (quietMs s b) ≤ s.dt) = true →
    exec (.segmentCommit b) s = .next (
      let s := segState b .asleep 0 (setSeg b (fun g => { g with xcvr := 2, awakeSince := none, awakeKept := 0 }) s)
      endSleep b 0 (putF s.dt 32 32) s)) ∧
  (∀ (b : Fin 16) (s : State),
    s.pw.dieOn = true →
    ∀ u t, (seg s b).sleep = some (u, t) →
    t + ms (seg s b).tAgree ≤ s.dt →
    exec (.agreeTimeout b) s = .next (raise 212 (netTarget b) (finishFree u 0x13 (setSeg b (fun g => { g with sleep := none }) s)))) ∧
  (∀ (n : Fin 8) (s : State),
    (rootDecodes s n) = true →
    exec (.wakeUpPattern n) s = .next (startDecoder n s)) ∧
  (∀ (n : Fin 8) (s : State),
    ¬ (rootDecodes s n) →
    s.pw.dieOn = true →
    (nsDetects s n) = true →
    exec (.wakeUpPattern n) s = .next (if segFlag s n 1 then startDecoder n s else wakeSeen n 3 0 0 s)) ∧
  (∀ (n : Fin 8) (w : CanFrame × Nat) (s : State),
    s.pw.dieOn = true →
    (nsDetects s n && segFlag s n 1 && (seg s n).swk && (seg s n).swkDt + us 100 ≤ w.2 && w.2 ≤ s.dt && isWuf (armOf s n) w.1) = true →
    exec (.wakeUpFrame n w) s = .next (wakeSeen n 2 (idWord w.1) (dataAt w.1 0 8) s)) ∧
  (∀ (x : DecodedFrame) (s : State),
    let n := x.n
    ¬ (!(seg s n).swk || !afterRamp s x) →
    exec (.decoderErrorCount x) s = .next (
      let s := decoderActive n s
      let c := decoderCount (seg s n).swkErr x.bad
      let count := setSeg n (fun g => { g with swkErr := c })
      if rootDecodes s n then count s
      else whenOn (onlyIf (nsDetects s n && segFlag s n 1) fun s =>
        if c < 32 then count s else raise 213 (netTarget n) (wakeSeen n 5 0 0 (count s))) s)) ∧
  (∀ (n : Fin 8) (s : State),
    ((seg s n).swk && decoderSilent s n) = true →
    exec (.decoderSilence n) s = .next (setSeg n (fun g => { g with swk := false, swkErr := 0 }) s)) ∧
  (∀ (n : Fin 8) (s : State),
    s.pw.dieOn = true →
    let b := 8 + n.val
    (nsDetects s b) = true →
    exec (.linWake n) s = .next (wakeSeen b 4 0 0 s)) ∧
  (∀ (n : Fin 8) (s : State),
    s.pw.dieOn = true →
    let b := 8 + n.val
    let st := (seg s b).st
    ¬ (nsDetects s b) →
    (segEn s b && (st == .drain || st == .quiet)) = true →
    exec (.linWake n) s = .next (segWake b 4 true s)) ∧
  (∀ (b : Fin 16) (s : State),
    s.pw.dieOn = true →
    let g := seg s b
    ¬ (g.st != .waking || !segEn s b || dieDown s .base || (2 ≤ g.xcvr && s.dt < g.changeDt + us 10) || (8 ≤ b.val && s.dt < g.changeDt + ms (1 + g.linWake.getD (netU s 4 2)))) →
    exec (.segmentAwake b) s = .next (
      let s := setSeg b (fun g => { g with xcvr := 0, wakeUids := [], domLate := false, annSince := g.annSince.map fun _ => s.dt }) s
      let s := segStarts b (g.xcvr != 0) (segState b .awake 0 s)
      let s := g.wakeUids.foldl (fun s x => finish x.1 0 (x.2 + putF s.dt 32 32) s) s
      if g.domLate then raise 208 (netTarget b) s else s)) ∧
  (∀ (n : Fin 8) (s : State),
    s.pw.dieOn = true →
    ∀ sof, (seg s n).annSent = some sof →
    exec (.netAnnounce n) s = .next (emit (netRing s) 0x1A83 (netTarget n) (n + 16) sof (annOver n s))) ∧
  (∀ (n : Fin 8) (s : State),
    s.pw.dieOn = true →
    (seg s n).annSent = none →
    ∀ t, (seg s n).annSince = some t →
    (t + ms 100 ≤ s.dt && !annRuns s n) = true →
    exec (.netAnnounce n) s = .next (emit (netRing s) 0x1A83 (netTarget n) n 0 (annOver n s))) ∧
  (∀ (b : Fin 16) (s : State),
    s.pw.dieOn = true →
    let g := seg s b
    ∀ t, g.awakeSince = some t →
    let lim := segU s b 4 2
    ¬ (lim == 0 || !g.released || g.st == .asleep || s.dt < t + sec lim) →
    exec (.maxAwake b) s = .next (
      let secs := awakeSecs s b
      let keep := g.keeper.getD 0
      let s := setSeg b (fun g => { g with isoAuto := true, xcvr := 2, awakeSince := none, awakeKept := secs, swk := false }) s
      let s := segState b .asleep 7 s
      let s := endSleep b 0x02 (7 + putF s.dt 32 32) s
      let s := gwDropFor b 3 (if b.val < 8 then setCan b (fun c => { c with attempt := none }) s else s)
      let told : Report := .event (netRing s) 0x1A82 (netTarget b) (b + putF (b2n g.keeper.isSome) 32 1 + putF keep 33 29 + putF (keep / 2 ^ 29) 62 1) secs s.dt false
      let word := keep + (if g.keeper.isSome then 2 ^ 31 else 0)
      raise 211 (netTarget b) (hwPut 0x0031 (leBytes 1 b.val ++ leBytes 4 word) [told] s)))

/-- Every command and event of access and the immobiliser, of pairs and of the package store answers a next state, the
one stated. (13_access_and_immobiliser.md; 15_pairs_and_comparison.md) -/
def Obligations.AccessAndPairCommandsComplete : Prop :=
  (∀ (n : DebIn) (t : DebTrace) (s : State),
    ∀ i, n = .switch i →
    ∀ l, t = .switch l →
    s.pw.dieOn = true →
    exec (.debounceComplete n t) s = .next (swiTrace i l s)) ∧
  (∀ (n : DebIn) (t : DebTrace) (s : State),
    ∀ i, n = .field i →
    ∀ l, t = .field l →
    s.pw.clocks = true →
    exec (.debounceComplete n t) s = .next (debounceField i l s)) ∧
  (∀ (n : Fin 48) (l : List SwiReading) (s : State),
    s.pw.dieOn = true →
    exec (.ladderInvalid n l) s = .next (ladderJudge n (swiTrace n l s))) ∧
  (∀ (o : Origin) (d : Desc) (s : State), Took s o 0x1C00 tokenSearchForm d →
    Ends (.tokenSearch o) s o (
      let s1 := begun o d tokenSearchForm s
      startSearch .search d s.nextUid s1)) ∧
  (∀ (o : Origin) (d : Desc) (s : State), Took s o 0x1C01 releaseStartForm d →
    Ends (.releaseStart o) s o (
      let s1 := begun o d releaseStartForm s
      startSearch .release d s.nextUid s1)) ∧
  (∀ (o : Origin) (d : Desc) (s : State), Took s o 0x1C02 releaseEndForm d →
    Ends (.releaseEnd o) s o (
      let uid := s.nextUid
      let s := begun o d releaseEndForm s
      endRelease (some uid) s)) ∧
  (∀ (o : Origin) (d : Desc) (s : State), Took s o 0x1C03 tokenReadForm d →
    Ends (.tokenRead o) s o (
      let s1 := begun o d tokenReadForm s
      startToken .read d s.nextUid s1)) ∧
  (∀ (o : Origin) (d : Desc) (s : State), Took s o 0x1C04 tokenWriteForm d →
    Ends (.tokenWrite o) s o (
      let s1 := begun o d tokenWriteForm s
      startToken .write d s.nextUid s1)) ∧
  (∀ (o : Origin) (d : Desc) (s t : State) (bs : List Byte), Took s o 0x1C05 keyWriteForm d → BlockHere o d keyWriteForm paramBlock s bs t →
    Ends (.keyWrite o .run) s o (
      let uid := s.nextUid
      let s := t
      let k := d.u 24 8
      let got := match key s 4 with
        | some kek => (keyUnwrap kek (ofBe (bs.take 8)) [ofBe ((bs.drop 8).take 8), ofBe (bs.drop 16)]).map fun l => l.getD 0 0 * 2 ^ 64 + l.getD 1 0
        | none => none
      match got with
      | none => finishFree uid 0x08 (raise 222 relTarget s)
      | some new =>
        if k == 6 && key s 6 == some new then finishFree uid 0x0C s
        else
          let s := { s with keys := updN s.keys k fun _ => some new }
          let s := if k == 6 then modAcc (fun a => { a with nr := 0, stored := 0, cntBad := false }) s else s
          finishRecorded 0x0014 (leBytes 1 k ++ leBytes 3 (kcv new)) (some d.session) uid 0 (kcv new) s)) ∧
  (∀ (o : Origin) (d : Desc) (s : State), Took s o 0x1C06 keyQueryForm d →
    Ends (.keyQuery o) s o (
      let uid := s.nextUid
      let s := begun o d keyQueryForm s
      finish uid 0 (match key s (d.u 24 8) with | some k => kcv k + 2 ^ 24 | none => 0) s)) ∧
  (∀ (i : Nat) (s : State),
    s.pw.dieOn = true →
    ∀ o, s.acc.op = some o →
    ¬ (o.phase != .fieldDue) →
    exec (.fieldStart i) s = .next (
      let n := o.coil
      let s := modAcc (fun a => { a with lfPeak := updN a.lfPeak n fun p => max p (sat 16 i) }) s
      let d := if 1900 ≤ i then 2 else if 2 * i < o.coilU n 2 2 then 1 else 0
      if d == 0 then
        let s := modAcc (fun a => { a with field := some n, lfDiag := updN a.lfDiag n fun _ => 0 }) s
        let next := if o.kind == .search || o.kind == .release then AirPhase.wupDue else .process
        setOp (fun o => { o with phase := next, worked := true, haltDue := false, ready := s.dt + ms (o.coilU n 4 1) }) s
      else
        let s := modAcc (fun a => { a with lfDiag := updN a.lfDiag n fun _ => d }) s
        let s := raise (215 + d) (lfTarget n) (accEvent 0x1C82 (lfTarget n) (n + putF d 2 2) (sat 16 i) s)
        nextCoil (setOp (fun o => { o with lastSrc := 215 + d }) s))) ∧
  (∀ (seed : Byte) (s : State),
    s.pw.dieOn = true →
    ∀ o, s.acc.op = some o →
    ¬ (o.phase != .wupDue || s.dt < o.ready) →
    exec (.wup seed) s = .next (
      let s := modAcc (fun a => { a with sent := airFrame [0x01, seed, BitVec.ofNat 8 (o.round + 1)] }) s
      let start := s.dt + us 11000
      setOp (fun o => { o with round := o.round + 1, seed := seed.toNat, garbled := false, heads := [], phase := .slots 0 start, nominal := start + us 250 }) s)) ∧
  (∀ (s : State),
    s.pw.dieOn = true →
    ∀ o, s.acc.op = some o →
    ¬ (o.phase != .process || !o.haltDue || s.dt < o.ready) →
    exec .halt s = .next (
      let s := modAcc (fun a => { a with sent := airFrame (0x02 :: leBytes 4 o.serial) }) s
      match o.kind with
      | .search | .release => nextHead (setOp (fun o => { o with heads := o.heads.tail, haltDue := false, ready := s.dt + us 14500 }) s)
      | _ => finish o.uid 0x12 218 (airEnd s))) ∧
  (∀ (rnd : BitVec 64) (s : State),
    s.pw.dieOn = true →
    ∀ o, s.acc.op = some o →
    ¬ (o.phase != .process || o.haltDue || s.dt < o.ready) →
    exec (.authA rnd) s = .next (
      let s := setOp (fun o => { o with rndD := rnd.toNat }) s
      sendDown (0x10 :: leBytes 4 o.serial ++ leBytes 8 rnd.toNat) 30500 2000 36250 .c1 s)) ∧
  (∀ (s : State),
    s.pw.dieOn = true →
    ∀ o, s.acc.op = some o →
    ¬ (o.phase != .authBDue || s.dt < o.ready) →
    exec .authB s = .next (
      let c2 := aesEnc (tokenKey s o.serial) (ofBe (leBytes 8 o.rndT ++ leBytes 8 o.rndD))
      sendDown (0x11 :: leBytes 4 o.serial ++ beBytes 16 c2) 46500 2000 6250 .ack s)) ∧
  (∀ (s : State),
    s.pw.dieOn = true →
    ∀ o, s.acc.op = some o →
    ¬ (o.phase != .cmdDue || o.kind != .read || s.dt < o.ready) →
    exec .read s = .next (
      let o := { o with n := o.n + 1 }
      let s := setOp (fun _ => o) s
      sendDown (0x20 :: leBytes 4 o.serial ++ [BitVec.ofNat 8 o.block] ++ airMac o o.n 0x20 []) 24500 2000 28250 .data s)) ∧
  (∀ (s : State),
    s.pw.dieOn = true →
    ∀ o, s.acc.op = some o →
    ¬ (o.phase != .cmdDue || o.kind != .write || s.dt < o.ready) →
    exec .write s = .next (
      let o := { o with n := o.n + 1 }
      let s := setOp (fun _ => o) s
      let enc := xorBytes (leBytes 8 o.value) (airStream o)
      sendDown (0x21 :: leBytes 4 o.serial ++ [BitVec.ofNat 8 o.block] ++ enc ++ airMac o o.n 0x21 enc) 40500 4000 14250 .data s)) ∧
  (∀ (a : TokenAnswer) (s : State),
    s.pw.dieOn = true →
    ∀ o, s.acc.op = some o →
    ∀ k start, o.phase = .slots k start →
    exec (.tokenAnswer a) s = .next (slotAnswer o k start a s)) ∧
  (∀ (a : TokenAnswer) (s : State),
    s.pw.dieOn = true →
    ∀ o, s.acc.op = some o →
    o.phase = .c1 →
    exec (.tokenAnswer a) s = .next (
      exchange o 16 a (fun p s =>
        let plain := beBytes 16 (aesDec (tokenKey s o.serial) (ofBe p))
        if ofLe (plain.take 8) == o.rndD then setOp (fun o => { o with phase := .authBDue, rndT := ofLe (plain.drop 8) }) s
        else airFails true false s) s)) ∧
  (∀ (a : TokenAnswer) (s : State),
    s.pw.dieOn = true →
    ∀ o, s.acc.op = some o →
    o.phase = .ack →
    exec (.tokenAnswer a) s = .next (
      exchange o 1 a (fun p s =>
        if p == [0x5A] then
          let x := leBytes 8 (Nat.xor o.rndD o.rndT)
          if o.kind == .search || o.kind == .release then tokenFound o s
          else setOp (fun o => { o with phase := .cmdDue, ks := aesEnc (tokenKey s o.serial) (ofBe (x ++ x)), n := 0 }) s
        else airFails true false s) s)) ∧
  (∀ (a : TokenAnswer) (s : State),
    s.pw.dieOn = true →
    ∀ o, s.acc.op = some o →
    o.phase = .data →
    exec (.tokenAnswer a) s = .next (
      let isRead := o.kind == .read
      exchange o (if isRead then 12 else 5) a (fun p s =>
        let body := p.take (if isRead then 8 else 1)
        if p.drop body.length == airMac o (o.n + 2 ^ 63) (if isRead then 0x20 else 0x21) body then
          finish o.uid 0 (if isRead then ofLe (xorBytes body (airStream o)) else ofLe body) (airEnd s)
        else airFails true false s) s)) ∧
  (∀ (s : State),
    s.pw.dieOn = true →
    ∀ r, s.acc.rel = some r →
    r.next ≤ s.dt →
    exec .releaseFrame s = .next (
      let s := relWithdraw s
      relPut 0xA5 r.basis (modAcc (fun a => { a with rel := some { r with next := r.next + ms 100 } }) s))) ∧
  (∀ (s : State),
    s.pw.dieOn = true →
    s.acc.rel = none →
    (s.acc.blockNext ≤ s.dt && (s.acc.blocked != 0 || s.acc.unsent)) = true →
    exec .releaseFrame s = .next (
      let s := modAcc (fun a => { a with blockNext := a.blockNext + ms 100 }) (relWithdraw s)
      if s.acc.blocked == 0 then releaseEndDone s
      else relPut 0x5A s.acc.blockBasis (modAcc (fun a => { a with blocked := a.blocked - 1 }) s))) ∧
  (∀ (s : State),
    s.pw.dieOn = true →
    (s.acc.session.isSome && !relSession s) = true →
    exec .releaseSessionTimeout s = .next (endRelSession 0 0 s)) ∧
  (∀ (k : Fin 8) (lane : Fin 4) (bit : Fin 128) (s : State),
    let n := entriesTo lane (pair s k).trail
    (compares s k && bit.val < laneWidth lane && n < (pair s k).trail.length) = true →
    exec (.pairMismatch k lane bit) s = .next (
      let s := shadowSteps k n s
      let g := eng s (2 * k)
      let src := if k.val < 2 then 246 else 243
      let run := (pair s k).run
      let ev : Report := .event (pairRing s) 0x2081 (pairTarget k) (k + 16 * lane + 256 * bit + putF g.retired 32 32) g.pc.toNat s.dt false
      let s := engRecord 2 k 0 lane bit g.pc.toNat g.retired s [ev]
      let s := setPair k (fun p => { p with halted := true, held := [], trail := [], phase := .none, run := none, mmPc := g.pc.toNat, mmLane := lane, mmBit := bit }) s
      let s := raise src (pairTarget k) (stillEng (2 * k + 1) (stillEng (2 * k) (stopPair k s)))
      match run with
      | some h => endHandover k h 0x12 src s
      | none => s)) ∧
  (∀ (o : Origin) (d : Desc) (s t : State) (bs : List Byte), Took s o 0x2000 pkgWriteForm d → BlockHere o d pkgWriteForm paramBlock s bs t →
    Ends (.pkgWrite o .run) s o (
      let uid := s.nextUid
      let s := t
      let off := d.u 28 32
      finish uid 0 d.plen { s with pkgs := updN s.pkgs (d.u 24 16) fun x => { bytes := memWriteL x.bytes off bs, len := max x.len (off + d.plen) } })) ∧
  (∀ (o : Origin) (d : Desc) (s : State), Took s o 0x2001 pkgEraseForm d →
    Ends (.pkgErase o) s o (
      let uid := s.nextUid
      let s := begun o d pkgEraseForm s
      finish uid 0 0 { s with pkgs := updN s.pkgs (d.u 24 16) fun _ => {} })) ∧
  (∀ (o : Origin) (d : Desc) (s : State), Took s o 0x2002 pkgQueryForm d →
    Ends (.pkgQuery o) s o (
      let uid := s.nextUid
      let s := begun o d pkgQueryForm s
      finish uid 0 (slotLen s (d.u 24 16) + 2 ^ 32 * pkgU s (d.u 24 16) 36 4) s)) ∧
  (∀ (o : Origin) (d : Desc) (s : State), Took s o 0x2003 pairSplitForm d →
    Ends (.pairSplit o) s o (
      let uid := s.nextUid
      let s := begun o d pairSplitForm s
      startHandover d.pairNo (some uid) true s)) ∧
  (∀ (o : Origin) (d : Desc) (s : State), Took s o 0x2004 pairMergeForm d →
    Ends (.pairMerge o) s o (
      let uid := s.nextUid
      let s := begun o d pairMergeForm s
      startHandover d.pairNo (some uid) false s)) ∧
  (∀ (o : Origin) (d : Desc) (s : State), Took s o 0x2005 pairQueryForm d →
    Ends (.pairQuery o) s o (
      let uid := s.nextUid
      let s := begun o d pairQueryForm s
      finish uid 0 (pairReg s d.pairNo 0 + 2 ^ 32 * pairReg s d.pairNo 4) s)) ∧
  (∀ (k : Fin 8) (s : State),
    (copyDue (pair s k) s.dt) = true →
    exec (.mergeCopyDone k) s = .next (testBegins (setPhase k .testing (copyEngine k s)))) ∧
  (∀ (k : Fin 8) (failed : List (Fin 203)) (s : State),
    let p := pair s k
    let ok := failed.isEmpty
    ∀ h, p.run = some h →
    (p.phase == .testing && h.stepDt + (if ok then 412 else 404) ≤ s.dt) = true →
    exec (.mergeSelftestDone k failed) s = .next (if ok then testEnds (couple k s) else testEnds (mergeFails k h s)))

/-- Every command and event of the host bridge, xSPI and the performance counters answers a next state, the one
stated. (16_host_bridge.md; 20_performance_counters.md; R407, R491) -/
def Obligations.HostBridgeAndCounterCommandsComplete : Prop :=
  (∀ (s : State),
    s.pw.dieOn = true →
    (!s.host.selfHosted && !s.host.reachedL0 && !s.host.l0Late && s.pw.releaseDt + sec 1 ≤ s.dt) = true →
    exec .hostLinkTimeout s = .next (raise 11 0x0943 { s with host := { s.host with l0Late := true } })) ∧
  (∀ (speed : Fin 3) (width : Fin 2) (s : State),
    s.pw.dieOn = true →
    (!s.host.linkUp && !s.host.selfHosted) = true →
    exec (.hostLinkUp speed width) s = .next (
      let h := { s.host with linkUp := true, reachedL0 := true, linkSpeed := speed + 1, linkWidth := width + 1, firstLost := none }
      emit h.evtRing 0x2882 0x0943 (1 + putF (speed + 1) 2 2 + putF (width + 1) 4 2) h.lost { s with host := h })) ∧
  (∀ (o : Origin) (d : Desc) (s : State), Took s o 0x2800 hbQueryForm d →
    Ends (.hbQuery o) s o (
      let uid := s.nextUid
      let s := begun o d hbQueryForm s
      finish uid 0 (putF (tagsOut s) 0 8 + putF s.host.inReads.length 8 6 + putF s.host.linkSpeed 14 2 + putF s.host.linkWidth 16 2 + putF s.host.tagTo 32 32) s)) ∧
  (∀ (o : Origin) (d : Desc) (s : State), Took s o 0x2801 (xspiForm 1) d →
    Ends (.xspiRead o) s o (
      let s1 := begun o d (xspiForm 1) s
      xspiStart 1 [] d s.nextUid s1)) ∧
  (∀ (o : Origin) (d : Desc) (s t : State) (bs : List Byte), Took s o 0x2802 (xspiForm 2) d → BlockHere o d (xspiForm 2) xspiSource s bs t →
    Ends (.xspiWrite o .run) s o (xspiStart 2 bs d s.nextUid t)) ∧
  (∀ (o : Origin) (d : Desc) (s : State), Took s o 0x2803 (xspiForm 3) d →
    Ends (.xspiErase o) s o (
      let s1 := begun o d (xspiForm 3) s
      xspiStart 3 [] d s.nextUid s1)) ∧
  (∀ (o : Origin) (d : Desc) (s : State), Took s o 0x2804 xspiQueryForm d →
    Ends (.xspiQuery o) s o (
      let uid := s.nextUid
      let s := begun o d xspiQueryForm s
      let mib := fun cs : Fin 2 => match s.host.xspi[cs].geometry with | some g => g.mib | none => 0
      let g := s.host.xspi[(0 : Fin 2)].geometry <|> s.host.xspi[(1 : Fin 2)].geometry
      finish uid 0 (putF (mib 0) 0 16 + putF (mib 1) 16 16 + putF ((g.map (·.eraseLog2)).getD 0) 32 8 + putF ((g.map (·.pageLog2)).getD 0) 40 8) s)) ∧
  (∀ (cs : Fin 2) (s : State),
    s.pw.dieOn = true →
    (xspiAnswers s cs && s.host.xspiOps.any fun o => xspiCs o.addr == cs && o.start + ms 10 ≤ s.dt) = true →
    exec (.xspiNoAnswer cs) s = .next (
      let gone := s.host.xspiOps.filter fun o => xspiCs o.addr == cs
      let h := { s.host with xspi := upd s.host.xspi cs fun x => { x with failed := true }
                             xspiOps := s.host.xspiOps.filter fun o => xspiCs o.addr != cs }
      raise 16 0x0940 (gone.foldl (fun s o => finishFree o.uid 0x0C s) { s with host := h }))) ∧
  (∀ (tag : Fin 128) (r : ReadResult) (s : State),
    s.pw.dieOn = true →
    exec (.readCompletion tag r) s = .next (readCompletion tag r s)) ∧
  (∀ (tag : Fin 128) (s : State),
    s.pw.dieOn = true →
    ∀ rd addr bytes sent, s.host.tags[tag] = .out rd addr bytes sent →
    sent + ms s.host.tagToMs ≤ s.dt →
    exec (.tagTimeout tag) s = .next (
      let s := setTag tag (.quarantined (s.dt + 2 * ms s.host.tagToMs)) { s with host := { s.host with tagTo := w32 (s.host.tagTo + 1) } }
      serveConfirms (firstTimeout (readFails tag rd addr bytes .timeout s)))) ∧
  (∀ (tag : Fin 128) (s : State),
    s.pw.dieOn = true →
    ∀ u, s.host.tags[tag] = .quarantined u →
    u ≤ s.dt →
    exec (.tagQuarantineEnd tag) s = .next (serveConfirms (setTag tag .free s))) ∧
  (∀ (s : State),
    s.pw.dieOn = true →
    exec .delayedReadDiscard s = .next (discardReads s)) ∧
  (∀ (s : State),
    s.pw.dieOn = true →
    s.host.linkUp = true →
    exec .hostLinkLoss s = .next (linkLoss s)) ∧
  (∀ (u : Unmask) (s : State),
    s.pw.dieOn = true →
    exec (.msixUnmask u) s = .next (
      let h := match u with
        | .vector v => { s.host with msix := upd s.host.msix v fun e => { e with masked := false } }
        | .function => { s.host with fnMask := false }
        | .enable => { s.host with msixEn := true }
      sendPending { s with host := h })) ∧
  (∀ (cs : Fin 2) (r : XspiResult) (s : State),
    s.pw.dieOn = true →
    ∀ op, (s.host.xspiOps.find? fun o => xspiCs o.addr == cs) = some op →
    (xspiEndFits op r s) = true →
    exec (.xspiOperationEnd cs r) s = .next (xspiEnd op r s)) ∧
  (∀ (o : Origin) (d : Desc) (s : State), Took s o 0x3C00 perfSetForm d →
    Ends (.perfSet o) s o (
      let uid := s.nextUid
      let s := begun o d perfSetForm s
      let p : Pmc := { count := d.u 28 32, event := d.u 25 8, priv := fld (d.u 26 8) 0 2, sample := fld (d.u 26 8) 2 1 == 1, cls := fld (d.u 26 8) 3 5,
                       prog := d.u 27 8, addrLo := d.u 16 32, addrHi := d.u 20 32, startVal := d.u 28 32 }
      match at? s.perf.engines d.ch with
      | none => s
      | some ep =>
        let old := (at? ep.pmc (d.u 24 8)).elim 0 (·.count)
        finish uid 0 old { s with perf := { s.perf with engines := updN s.perf.engines d.ch fun ep => { ep with pmc := updN ep.pmc (d.u 24 8) fun _ => p } } })) ∧
  (∀ (o : Origin) (d : Desc) (s : State), Took s o 0x3C01 fabSetForm d →
    Ends (.fabSet o) s o (
      let uid := s.nextUid
      let s := begun o d fabSetForm s
      let old := (at? s.perf.fabs (d.u 24 8)).elim 0 (·.count)
      let f : Fab := { event := d.u 25 8, ports := fld (d.u 26 8) 0 4, master := d.u 27 8, lo := d.u 16 32, hi := d.u 20 32 }
      finish uid 0 old { s with perf := { s.perf with fabs := updN s.perf.fabs (d.u 24 8) fun g => { f with latchedHi := g.latchedHi } } })) ∧
  (∀ (o : Origin) (d : Desc) (s : State), Took s o 0x3C02 perfRingForm d →
    Ends (.perfRing o) s o (
      let uid := s.nextUid
      let s := begun o d perfRingForm s
      finish uid 0 0 { s with perf := { s.perf with sampleRing := d.u 24 8 } })) ∧
  (∀ (o : Origin) (d : Desc) (s : State), Took s o 0x3C03 perfSnapForm d →
    Ends (.perfSnap o) s o (
      let uid := s.nextUid
      let s := begun o d perfSnapForm s
      let bytes := if d.device then deviceSnap s else (fin? 16 d.ch).elim [] (engineSnap s)
      finish uid 0 bytes.length (toBuffer (bitN d.raw.toNat 192) (d.u 16 64) bytes s))) ∧
  (∀ (s : State),
    s.pw.dieOn = true →
    ∀ x, (nextSample [] s.perf.samples) = some x →
    exec .perfSample s = .next (
      let rest := s.perf.samples.erase x
      let d1 := putF x.engine 0 4 + putF x.counter 4 2 + putF (b2n x.task) 6 1 + putF (b2n x.skid) 7 1 + putF x.prog 8 8 + putF x.la 16 3 + putF (b2n x.repa) 19 1 + putF x.pc 32 32
      sendVector 71 (emit s.perf.sampleRing 0x3C80 (0x0E00 + x.engine) d1 x.cycles { s with perf := { s.perf with samples := rest } }))) ∧
  (∀ (e : Fin 16) (s : State),
    s.pw.dieOn = true →
    exec (.pcCyclesLoRead e) s = .next (latchFixed e (hostAccess (0x401A0000 + 0x100 * e) 4 s))) ∧
  (∀ (n : Fin 4) (s : State),
    s.pw.dieOn = true →
    exec (.fabLoRead n) s = .next (latchFab n (hostAccess (0x401A1000 + 8 * n) 4 s)))

/-- Every command and event of fault collection and of the power states answers a next state, the one stated.
(17_fault_collection.md; 18_power_states.md; R411 to R431; R432 to R457) -/
def Obligations.FaultAndPowerCommandsComplete : Prop :=
  (∀ (o : Origin) (d : Desc) (s : State), Took s o 0x3000 faultQueryForm d →
    Ends (.faultQuery o) s o (
      let uid := s.nextUid
      let s := begun o d faultQueryForm s
      finish uid 0 (srcBits s (d.u 24 8) (·.sticky) + 2 ^ 32 * srcBits s (d.u 24 8) (·.esc)) s)) ∧
  (∀ (o : Origin) (d : Desc) (s : State), Took s o 0x3001 faultAckForm d →
    Ends (.faultAck o) s o (
      let uid := s.nextUid
      let s := begun o d faultAckForm s
      let b := d.u 24 8
      let named := fun i : Fin 256 => i.val / 32 == b && bitN (d.u 28 32) (i.val % 32)
      let acked := Nat.land (srcBits s b (·.sticky)) (d.u 28 32)
      let clear := fun (i : Fin 256) (x : Source) => if named i then { x with sticky := false, esc := false, eff := 0, reraises := 0 } else x
      finish uid 0 acked (modFlt (fun f => { f with srcs := mapFin f.srcs clear }) s))) ∧
  (∀ (o : Origin) (failed : List (Fin 203)) (d : Desc) (s : State), Took s o 0x3002 faultResetForm d →
    Ends (.faultReset o failed) s o (
      let uid := s.nextUid
      let s := begun o d faultResetForm s
      if d.device then finish uid 0 0 (modFlt (fun f => { f with resetDue := some (s.dt + ms 1, .faultReset) }) s)
      else
        let sc := (resetScope s d.target).getD []
        let k := d.ch - 16
        if d.slice == 0xE && (!failed.isEmpty || testedBad s k) then finish uid 0x12 245 (pairTestFailed k s)
        else
          let rel := sc.filter fun x => inC2 s x
          let s := safeRelease rel (leaveC2 rel s)
          let s := if d.slice == 0xE then restartPair k s else s
          finish uid 0 (rel.filter isOutput).length s)) ∧
  (∀ (o : Origin) (d : Desc) (s : State), Took s o 0x3003 faultInjectForm d →
    Ends (.faultInject o) s o (
      let uid := s.nextUid
      let s := begun o d faultInjectForm s
      match fin? 256 (d.u 24 8) with
      | none => s
      | some n =>
        let was := s.flt.srcs[n].sticky
        let s := collect n (d.u 26 16) true s.dt false (if was then [] else [.completion uid]) s
        let x := s.flt.srcs[n]
        let res := putF x.eff 0 2 + 4 * b2n x.esc
        if was then finish uid 0 res s else finishGated uid 0 res s)) ∧
  (∀ (srcs : List (Fin 256)) (s : State), s.pw.dieOn = true →
    exec (.faultRaise srcs) s = .next (((idxs 256).filter fun n => srcs.contains n).foldl (fun s n => arrive n s) s)) ∧
  (∀ (s : State),
    s.pw.dieOn = true →
    exec .heartbeat s = .next (modFlt (fun f => { f with wdArmed := true, lastBeat := s.dt }) s)) ∧
  (∀ (s : State),
    s.pw.dieOn = true →
    (s.flt.wdArmed && s.flt.wdFired.isNone && s.flt.lastBeat + ms 100 ≤ s.dt) = true →
    exec .runtimeWatchdog s = .next (
      let s := raise 7 0xFFFF (modFlt (fun f => { f with wdFired := some s.dt, wdArmed := false }) s)
      safeEntry allOuts 7 (modFlt (fun f => { f with c3 := true, c3Src := 7, c3Latch := f.c3Latch || f.phase != .normal }) s))) ∧
  (∀ (s : State),
    s.flt.recoveryStart + sec 10 ≤ s.dt →
    exec .recoveryEnd s = .next (
      modFlt (fun f =>
        { f with phase := if f.phase == .recovery then .normal else f.phase
                 interrupted := if f.interrupted == .recovery then .normal else f.interrupted }) s)) ∧
  (∀ (o : Origin) (d : Desc) (s : State), Took s o 0x3100 powerSetForm d →
    Ends (.powerSet o) s o (
      let uid := s.nextUid
      let s := begun o d powerSetForm s
      let t := pstateOf (d.u 24 8)
      if t == s.pw.state then finish uid 0 (powerResult s 0xF 0 0xFFFF s.dt) s
      else if t == .run && s.pw.vout.isSome then modPw (fun w => { w with vout := w.vout.map fun r => { r with uid := some uid } }) s
      else if t == .run || t == .idle then changeState (some uid) t s
      else
        let ask := fun k : Fin 11 => if t == .standby && k.val != 10 then Answer.granted else Answer.asked
        watchStalls (modPw (fun w => { w with run := some { uid := uid, target := t, t0 := s.dt, answers := Vector.ofFn ask } }) s))) ∧
  (∀ (o : Origin) (d : Desc) (s : State), Took s o 0x3101 powerQueryForm d →
    Ends (.powerQuery o) s o (
      let uid := s.nextUid
      let s := begun o d powerQueryForm s
      finish uid 0 (pcode s.pw.state + putF s.pw.wakeSrc 8 4 + putF s.pw.vbat 16 16 + putF s.pw.vMeas 32 16) s)) ∧
  (∀ (o : Origin) (d : Desc) (s : State), Took s o 0x3102 alarmSetForm d →
    Ends (.alarmSet o) s o (
      let uid := s.nextUid
      let s := begun o d alarmSetForm s
      let arm := d.u 24 8 == 1
      let s := modPw (fun w => { w with alarmEn := arm, alarm := if arm then d.u 16 48 else w.alarm }) s
      finish uid 0 (putF s.pw.alarm 0 48 + putF (b2n arm) 48 1) s)) ∧
  (∀ (block : Fin 11) (a : BlockAnswer) (s : State),
    ∀ p, s.pw.run = some p →
    ¬ (p.tc.isSome) →
    a = .grant →
    ¬ (blockDelays block s || blockRefuses block s || !(p.answers[block] == .asked || p.answers[block] == .delayed)) →
    exec (.entryHandshakeAnswer block a) s = .next (
      let p' := { p with answers := p.answers.set block .granted }
      let s := modPw (fun w => { w with run := some p', blocker := if w.blocker == blockCode block then 0xF else w.blocker }) s
      if p'.answers.toList.all fun x => x == .granted then handshakeDone p' s else s)) ∧
  (∀ (block : Fin 11) (a : BlockAnswer) (s : State),
    ∀ p, s.pw.run = some p →
    ¬ (p.tc.isSome) →
    a = .delay →
    (blockDelays block s && (p.answers[block] == .asked || p.answers[block] == .delayed)) = true →
    exec (.entryHandshakeAnswer block a) s = .next (modPw (fun w => { w with run := some { p with answers := p.answers.set block .delayed }, blocker := blockCode block }) s)) ∧
  (∀ (block : Fin 11) (a : BlockAnswer) (s : State),
    ∀ p, s.pw.run = some p →
    ¬ (p.tc.isSome) →
    a = .refuse →
    (blockRefuses block s && (p.answers[block] == .asked || p.answers[block] == .delayed)) = true →
    exec (.entryHandshakeAnswer block a) s = .next (endEntry p.uid 0x0C (blockCode block) 0 0xFFFF s)) ∧
  (∀ (block : Fin 11) (a : BlockAnswer) (s : State),
    ∀ p, s.pw.run = some p →
    ¬ (p.tc.isSome) →
    a = .withdraw →
    ∀ cause, p.answers[block] = .withdrawn cause →
    exec (.entryHandshakeAnswer block a) s = .next (endEntry p.uid 0x10 0xF cause 0xFFFF s)) ∧
  (∀ (s : State),
    ∀ p, s.pw.run = some p →
    ∀ k, ((idxs 11).find? fun k => p.answers[k] == .delayed) = some k →
    (p.tc.isNone && p.t0 + ms (10 * s.pw.entryTo) ≤ s.dt) = true →
    exec .entryTimeout s = .next (endEntry p.uid 0x13 (blockCode k) 0 0xFFFF s)) ∧
  (∀ (s : State),
    ∀ p, s.pw.run = some p →
    ∀ t, p.step4 = some t →
    t + ms 1 ≤ s.dt →
    exec .entryComplete s = .next (entryComplete s)) ∧
  (∀ (s : State),
    (s.pw.state == .standby && s.pw.exitTrigger && s.pw.vout.isNone && s.pw.run.isNone) = true →
    exec .standbyExit s = .next (requestVcore 800 true none .run (modPw (fun w => { w with exitTrigger := false }) s))) ∧
  (∀ (vout status : Nat) (s : State),
    ∀ r, s.pw.vout = some r →
    ¬ (s.dt < r.sentDt + changeMin s r || r.sentDt + ms 2 < s.dt) →
    exec (.voutAcknowledge vout status) s = .next (
      let s := modPw (fun w => { w with vMeas := sat 16 vout }) s
      if !voutAcked r vout status then s
      else
        let s := modPw (fun w => { w with vout := none }) s
        if s.pw.startDue.isSome then s
        else
        let s := if r.rise then modPw (fun w => { w with state := r.target, enginePll := true, exitTrigger := false }) s else s
        let s := powerEvent r.target r.old (if r.uid.isSome then 0 else 1) s.dt s
        match r.uid with
        | some u => finish u 0 (powerResult s 0xF 0 0xFFFF s.dt) s
        | none => s)) ∧
  (∀ (s : State),
    ∀ r, s.pw.vout = some r →
    ¬ (s.dt < r.sentDt + ms 2) →
    exec .pmbusNoAck s = .next (
      if r.tries == 0 then modPw (fun w => { w with vout := some { r with tries := 1, sentDt := s.dt } }) s
           else
             let s := raise 251 0xFFFF (modPw (fun w => { w with vout := none }) s)
             if r.rise then
               match r.uid with
               | some u => finish u 0x12 (powerResult s 0xF 0 251 s.dt) s
               | none => s
             else
               let s := powerEvent r.target r.old 3 s.dt s
               match r.uid with
               | some u => finish u 2 (powerResult s 0xF 0 0xFFFF s.dt) s
               | none => s)) ∧
  (∀ (status : Nat) (s : State),
    s.pw.dieOn = true →
    exec (.pmAlert status) s = .next (
      let s := hwPut 0x0032 (leBytes 2 status) [] s
      if voutFault status then raise 254 0xFFFF s else s)) ∧
  (∀ (w : WakeKind) (s : State),
    (wakeWatch s) = true →
    ∀ b wuf, w = .network b wuf →
    (netArmed b wuf s) = true →
    exec (.wakeLatch w) s = .next (latchWake 1 b (netLatch b wuf s.pw.run.isSome s))) ∧
  (∀ (w : WakeKind) (s : State),
    (wakeWatch s) = true →
    ∀ g i, w = .switchPoll g i →
    ((pollWakes s g i).isSome) = true →
    ¬ (s.pw.latched.isSome) →
    exec (.wakeLatch w) s = .next (latchWake 2 i (pollLatch g i s))) ∧
  (∀ (w : WakeKind) (s : State),
    (wakeWatch s) = true →
    w = .resetPin →
    exec (.wakeLatch w) s = .next (latchWake 5 0 s)) ∧
  (∀ (s : State),
    (wakeWatch s && s.pw.alarmEn && s.pw.alarm ≤ s.rt) = true →
    exec .rootTimerWake s = .next (latchWake 3 0 (modPw (fun w => { w with alarmEn := false }) s))) ∧
  (∀ (s : State),
    (wakeWatch s && s.pw.hostWakeEn) = true →
    exec .perstNWake s = .next (latchWake 4 0 s)) ∧
  (∀ (s : State),
    s.pw.wakeN = true →
    exec .wakeNRelease s = .next (modPw (fun w => { w with wakeN := false }) s)) ∧
  (∀ (s : State),
    (s.pw.rootOn && !s.pw.dieOn && s.pw.regWake && s.pw.regWakeRt + 820 ≤ s.rt) = true →
    exec .regulatorRetry s = .next (
      let s := stopClocks s
      if s.pw.tries + 1 < 3 then modPw (fun w => { w with tries := w.tries + 1, regWake := false, regRise := some (s.rt + 1639) }) s
      else raise 254 0xFFFF (modPw (fun w => { w with tries := 0, regWake := false, latched := none, state := if w.state == .deep then .deep else .park }) s))) ∧
  (∀ (s : State),
    (s.pw.rootOn && !s.pw.xtal32 && s.rt ≤ s.pw.xtalEnd) = true →
    exec .xtal32Start s = .next (modPw (fun w => { w with xtal32 := true }) s)) ∧
  (∀ (s : State),
    s.pw.xtal32 = true →
    exec .xtal32Fail s = .next (raise 249 0xFFFF (modPw (fun w => { w with xtal32 := false }) s))) ∧
  (∀ (s : State),
    (s.pw.clocks && !s.pw.xtal40Bad) = true →
    exec .xtal40Fail s = .next (xtal40Failed s)) ∧
  (∀ (vbat : Nat) (s : State),
    (awake s && !s.pw.pfw) = true →
    exec (.pfwFall vbat) s = .next (
      let s := heatExact (modPw (fun w => { w with pfw := true, vbat := vbat }) s)
      let s := hwWriteAll (s.hw.queue.length + s.hw.heldBack.length + 1) s
      sendVector 67 (powerFailEvent true vbat (raise 252 0xFFFF s)))) ∧
  (∀ (vbat : Nat) (s : State),
    (awake s && s.pw.pfw) = true →
    exec (.pfwRise vbat) s = .next (powerFailEvent false vbat (modPw (fun w => { w with pfw := false, vbat := vbat }) s))) ∧
  (∀ (x : HeldV) (s : State),
    (awake s && x.v < 6000 && x.since + ms 1 ≤ s.dt && !s.pw.crank) = true →
    exec (.crank x) s = .next (raise 253 0xFFFF (modPw (fun w => { w with crank := true, vbat := x.v }) s))) ∧
  (∀ (runs : Bool) (s : State),
    (s.pw.xtal40Bad && s.pw.xtal40RetryRt + 16384 ≤ s.rt) = true →
    exec (.xtal40Retry runs) s = .next (
      let s := modPw (fun w => { w with xtal40Bad := !runs, xtal40RetryRt := s.rt }) s
      if runs && s.pw.dieOn && !s.pw.clocks then
        let s := { s with dt := dtAgain s }
        let s := modPw (fun w => { w with clocks := true, pairDt := s.dt, pairRt := s.rt }) (decayAll s)
        (List.range 64).foldl (fun s n => applyLch n s) s
      else s))

/-- Every command and event of grafting, of the start-up and of the supplies answers a next state, the one stated.
(19_heartwood_and_grafting.md; 01_device_at_a_glance.md; 18_power_states.md; 21_pins_package_electrical.md) -/
def Obligations.UpdateAndStartCommandsComplete : Prop :=
  (∀ (o : Origin) (d : Desc) (s t : State) (bs : List Byte), Took s o 0x3810 updWriteForm d → BlockHere o d updWriteForm paramBlock s bs t →
    Ends (.updWrite o .run) s o (
      let uid := s.nextUid
      let s := t
      let a := slotAddr s (d.u 24 8) + d.u 28 32
      finish uid 0 d.plen (xspiMem (xspiCs a) (fun m => memWriteL m (xspiOff a) bs) s))) ∧
  (∀ (o : Origin) (d : Desc) (s : State), Took s o 0x3811 updArmForm d →
    Ends (.updArm o) s o (
      let uid := s.nextUid
      let s := begun o d updArmForm s
      let slot := d.u 24 8
      if slotU s slot 60 4 != crc32 (slotBytes s slot 0 60) then finishFree uid 0x0A s
      else match badImage s slot with
        | some i => finish uid 0x0A (slotU s slot 8 4 + putF i 32 3) s
        | none =>
          let id := slotU s slot 8 4
          let s := modUpd (fun u => { u with state := .armed, armedSlot := slot, setId := id, flipped := [], part := 0, blocks := 0 }) s
          let n := (imageOffsets s slot).length
          finishRecorded 0x0050 (leBytes 1 1 ++ leBytes 4 id) (some d.session) uid 0 (id + putF n 32 3) s)) ∧
  (∀ (o : Origin) (d : Desc) (s : State), Took s o 0x3812 updDisarmForm d →
    Ends (.updDisarm o) s o (
      let uid := s.nextUid
      let s := begun o d updDisarmForm s
      if slotArmed s (d.u 24 8) then
        finishRecorded 0x0050 (leBytes 1 2 ++ leBytes 4 s.upd.setId) (some d.session) uid 0 0 (modUpd (fun u => { u with state := .idle }) s)
      else finish uid 0 0 s)) ∧
  (∀ (o : Origin) (d : Desc) (s : State), Took s o 0x3813 updQueryForm d →
    Ends (.updQuery o) s o (
      let uid := s.nextUid
      let s := begun o d updQueryForm s
      finish uid 0 (updStat s + 2 ^ 32 * s.upd.lastSetId) s)) ∧
  (∀ (o : Origin) (d : Desc) (s : State), Took s o 0x3814 updConfirmForm d →
    Ends (.updConfirm o) s o (
      let uid := s.nextUid
      let s := begun o d updConfirmForm s
      finishGated uid 0 s.upd.setId (confirmSet d.session [.completion uid] s))) ∧
  (∀ (o : Origin) (d : Desc) (s : State), Took s o 0x3815 updRejectForm d →
    Ends (.updReject o) s o (
      let uid := s.nextUid
      let s := begun o d updRejectForm s
      finish uid 0 s.upd.setId (modFlt (fun f => { f with resetDue := some (s.dt + ms 1, .trialTimeout) }) s))) ∧
  (∀ (o : Origin) (d : Desc) (s t : State) (bs : List Byte), Took s o 0x3816 updKeySetForm d → BlockHere o d updKeySetForm paramBlock s bs t →
    Ends (.updKeySet o .run) s o (
      let uid := s.nextUid
      let s := t
      let key := bs.take 64
      let h := sha256 key
      let ok := match s.upd.key with
        | none => true
        | some k => d.plen == 128 && ecdsaOk (ofBe (k.take 32)) (ofBe (k.drop 32)) h (ofBe ((bs.drop 64).take 32)) (ofBe (bs.drop 96))
      if ok then
        finishRecorded 0x0050 (leBytes 1 7) (some d.session) uid 0 (ofLe ((beBytes 32 h).take 3)) (modUpd (fun u => { u with key := some key }) s)
      else finishFree uid 0x08 s)) ∧
  (∀ (s : State),
    s.pw.dieOn = true →
    (s.upd.state == .trial && s.upd.trialStart + sec 600 ≤ s.dt && s.flt.resetDue.isNone) = true →
    exec .trialTimeout s = .next (modFlt (fun f => { f with resetDue := some (s.dt, .trialTimeout) }) s)) ∧
  (∀ (vbat : Nat) (s : State),
    (!s.pw.rootOn) = true →
    exec (.rootIslandPowerOn vbat) s = .next (
      { s with rt := 0, rtPhase := 0, flt := { s.flt with c3Latch := false, rstCause := 0, leftC3 := false, ended := [], riHeld := [] }
               ses := s.ses.map fun x => { x with fails := 0, lockEnd := none }
               pw := { rootOn := true, regRise := some 14, vbat := vbat } })) ∧
  (∀ (found : StartFindings) (s : State),
    (s.pw.rootOn && !s.pw.dieOn && s.pw.regWake && s.pw.regWakeRt + 10 ≤ s.rt && !s.pw.xtal40Bad) = true →
    exec (.digitalDieStart found) s = .next (digitalDieStart found s)) ∧
  (∀ (writeOk : Bool) (s : State),
    (s.pw.dieOn && s.upd.graftOn && s.upd.state == .grafting) = true →
    exec (.graftBlock writeOk) s = .next ((graftBlock writeOk s).2)) ∧
  (∀ (die : Die) (s : State),
    (s.pw.ready && die != .digital && !dieDown s die && !s.safeHere.contains die) = true →
    exec (.safeEntriesDelivered die) s = .next (safeDelivered die { s with safeHere := s.safeHere ++ [die] })) ∧
  (∀ (die : Die) (s : State),
    s.pw.dieOn = true →
    (die != .digital && !dieDown s die) = true →
    exec (.linkFailure die) s = .next (commitLinkLost (linkSource die) (dieLost die (linkSource die) (raise (linkSource die) 0xFFFF { s with linkDown := s.linkDown ++ [die] })))) ∧
  (∀ (die : Die) (s : State),
    s.pw.dieOn = true →
    (dieDown s die) = true →
    exec (.linkReturn die) s = .next (dieBack die (deliverHeld (· == die) { s with linkDown := s.linkDown.filter (· != die) }))) ∧
  (∀ (r : ResetSource) (s : State),
    r = .resetPin →
    s.pw.dieOn = true →
    exec (.deviceReset r) s = .next (deviceReset 1 s)) ∧
  (∀ (r : ResetSource) (s : State),
    r = .faultReset →
    ∀ t, s.flt.resetDue = some (t, .faultReset) →
    t ≤ s.dt →
    exec (.deviceReset r) s = .next (deviceReset 2 (modHw (fun h => { h with marker := some h.newest }) s))) ∧
  (∀ (r : ResetSource) (s : State),
    r = .watchdog →
    ∀ t, s.flt.wdFired = some t →
    t + ms 10 ≤ s.dt →
    exec (.deviceReset r) s = .next (deviceReset 3 s)) ∧
  (∀ (r : ResetSource) (s : State),
    r = .trialTimeout →
    ∀ t, s.flt.resetDue = some (t, .trialTimeout) →
    t ≤ s.dt →
    exec (.deviceReset r) s = .next (
      let (c, s) := takeFree 4 s
      deviceReset c s)) ∧
  (∀ (s : State),
    s.pw.dieOn = true →
    exec .vcoreBrownout s = .next (
      let was := s.flt.c3
      let s := modPw (fun w => { w with regWakeRt := s.rt + 7 }) s
      let s := safeEntry (allOuts.filter fun o => outDie o != .digital) 254 (modFlt (fun f => { f with c3 := true }) s)
      raise 254 0xFFFF (deviceReset 4 (modFlt (fun f => { f with c3 := was }) s) true))) ∧
  (∀ (s : State),
    s.pw.rootOn = true →
    exec .rootIslandSupplyLoss s = .next (
      let old := s
      let s := familySupplyLoss { dieOff false false s with fs := old.fs }
      let ofField := fun l : List (Die × Raise) => l.filter fun h => h.1 == .field
      let held := if s.fs.powered then ofField old.flt.held ++ ofField s.flt.held else []
      let evs := if s.fs.powered then old.heldEvents.filter (fun h => h.1 == .field) ++ s.heldEvents else []
      { s with flt := { held := held }, heldEvents := evs, pw := { rootOn := false }, ses := s.ses.map fun x => { isOpen := x.isOpen : Ses } })) ∧
  (∀ (d : Die) (x : HeldV) (s : State),
    (hasSupply d && x.v < 4200 && supplyStands x.since s) = true →
    exec (.loadDieSupplyLow d x) s = .next (
      let s := if x.v < 3000 && d != .base && !s.ld.logicReset.contains d then { s with ld := { s.ld with logicReset := d :: s.ld.logicReset } } else s
      dieOutputsOff d (noteSupply d x.v s))) ∧
  (∀ (x : DieSupply) (s : State),
    (hasSupply x.die && 44000 ≤ x.v && supplyStands x.since s) = true →
    exec (.lsSupplyHigh x) s = .next ((dieSlices x.die).foldl (fun s k => raise (32 * (k + 1) + 27) 0xFFFF s) (dieOutputsOff x.die (noteSupply x.die x.v s)))) ∧
  (∀ (x : DieSupply) (s : State),
    (supplyHolds s x.die && 4500 ≤ x.v && x.v ≤ 43000 && (x.since + ms 10 ≤ s.dt || !s.pw.clocks)) = true →
    exec (.supplyReturn x) s = .next (
      let d := x.die
      let s := noteSupply d x.v s
      let reset := s.ld.logicReset.contains d
      let s := { s with ld := { s.ld with supplyOff := s.ld.supplyOff.filter fun x => x != d, logicReset := s.ld.logicReset.filter fun x => x != d } }
      let s := applyDie d (if reset then reloadMirror d s else s)
      let s := ((List.range 16).filter fun h => hbDie h == d && safeHeld s (.hb h) && (hb s h).safeAct && !driven s h).foldl
        (fun s h => hbSafe 0xFFFF h (setHb h (fun b => if hbSingle s h then b else { b with safeAct := false }) s)) s
      if d == .base then
        let s := if s.vs.boostAsk && s.vs.boost == .off then boostTo .precharge (modVs (fun x => { x with boostAsk := false }) s) else s
        ((List.range 24).filter fun v => safeHeld s (.vlv v)).foldl (fun s v => vlvSafe 0xFFFF v (setVlv v (fun x => { x with safeAct := false }) s)) s
      else s)) ∧
  (∀ (b : Fin 8) (t : Int) (s : State),
    s.pw.dieOn = true →
    2480 ≤ t →
    exec (.dieOvertemp b t) s = .next (
      let s := { s with ld := { s.ld with banks := s.ld.banks.set b { s.ld.banks[b] with dieT := t } } }
      raise (32 * (b / 2 + 1) + 28) (256 * (b / 2) + 32 + b % 2) (dieHotHbs b (dieHotChs b s))))

/-- LD, ST, LEA, PUSHM, POPM, MOVS, XCHG and CAS that no trap bars and that do not wait complete: the accesses, the
base and SP updates, the destination, as stated. (14_engine_instruction_set.md; R338 to R341; R350, R357) -/
def Obligations.EngineMemoryComplete : Prop :=
  (∀ (x : Issue) (d b : RegCode) (m : Amode) (sz : Size) (sx : Bool) (s : State) (v : Nat) (c : Cx),
    let g := eng s x.engine
    let n := sizeBytes sz
    Fetched s x (ldKind d b m sz sx) → modeOk b m = true → modeBreaksStack g b n m = false → (modeUpdates m && d == b) = false →
    memLoad x (modeAddr g b n m).toNat n (start s) = .ok (v, c) →
    let c2 := based x.engine b (modeBase g b n m) c
    (d = 3 → (stkLim (eng c2.s x.engine)).toNat ≤ (extend sz sx v).toNat) →
    exec (.ld x d b m sz sx) s = .next (ended x (ldKind d b m sz sx) .next s (wrote x.engine d (extend sz sx v) c2))) ∧
  (∀ (x : Issue) (d b : RegCode) (m : Amode) (sz : Size) (s : State) (c : Cx),
    let g := eng s x.engine
    let n := sizeBytes sz
    Fetched s x (stKind d b m sz) → modeOk b m = true → modeBreaksStack g b n m = false →
    memStore x (modeAddr g b n m).toNat n ((rdReg g d).toNat % 2 ^ (8 * n)) (start s) = .ok ((), c) →
    exec (.st x d b m sz) s = .next (ended x (stKind d b m sz) .next s (based x.engine b (modeBase g b n m) c))) ∧
  (∀ (x : Issue) (d b : RegCode) (m : Amode) (s : State),
    let g := eng s x.engine
    Fetched s x (leaKind d b m) → modeUpdates m = false → modeOk b m = true → modeBreaksStack g b 1 m = false →
    (d = 3 → (stkLim g).toNat ≤ (modeAddr g b 1 m).toNat) →
    exec (.lea x d b m) s = .next (ended x (leaKind d b m) .next s (wrote x.engine d (modeAddr g b 1 m) (start s)))) ∧
  (∀ (x : Issue) (mask : BitVec 11) (s : State) (c : Cx),
    let l := maskRegs mask
    let sp := (rdReg (eng s x.engine) 3).toNat
    Fetched s x (pushmKind mask) → 4 * l.length ≤ sp → (stkLim (eng s x.engine)).toNat ≤ sp - 4 * l.length →
    storeWords x (sp - 4 * l.length) (l.map (rdReg (eng s x.engine)))
      (wrote x.engine 3 (BitVec.ofNat 32 (sp - 4 * l.length)) (spent l.length (start s))) = .ok ((), c) →
    exec (.pushm x mask) s = .next (ended x (pushmKind mask) .next s c)) ∧
  (∀ (x : Issue) (mask : BitVec 11) (s : State) (ws : List Word) (c c2 : Cx),
    let l := maskRegs mask
    let sp := rdReg (eng s x.engine) 3
    Fetched s x (popmKind mask) → loadWords x sp.toNat l.length (spent l.length (start s)) = .ok (ws, c) →
    putWords x.engine l ws c = .ok ((), c2) → (stkLim (eng c2.s x.engine)).toNat ≤ (sp + BitVec.ofNat 32 (4 * l.length)).toNat →
    exec (.popm x mask) s = .next (ended x (popmKind mask) .next s (wrote x.engine 3 (sp + BitVec.ofNat 32 (4 * l.length)) c2))) ∧
  (∀ (x : Issue) (d b : RegCode) (sz : Size) (s : State) (v : Nat) (c c2 : Cx),
    let g := eng s x.engine
    let n := sizeBytes sz
    Fetched s x (movsKind d b sz) →
    isBase d = true → isBase b = true → modeBreaksStack g d n .postInc = false → modeBreaksStack g b n .postInc = false →
    memLoad x (rdReg g b).toNat n (start s) = .ok (v, c) → memStore x (rdReg g d).toNat n v c = .ok ((), c2) →
    exec (.movs x d b sz) s = .next (ended x (movsKind d b sz) .next s (spent 1
      (if d = b then wrote x.engine d (Config.freeValue 32 c2.s.free) { c2 with s := { c2.s with free := c2.s.free + 1 } }
       else wrote x.engine d (rdReg g d + BitVec.ofNat 32 n) (wrote x.engine b (rdReg g b + BitVec.ofNat 32 n) c2))))) ∧
  (∀ (x : Issue) (d b : RegCode) (disp : BitVec 12) (s : State) (old : Word) (c : Cx),
    let g := eng s x.engine
    Fetched s x (xchgKind d b disp) →
    atomic x (rdReg g b + disp.signExtend 32).toNat (fun _ => some (rdReg g d)) (spent 1 (start s)) = .ok (old, c) →
    (d = 3 → (stkLim (eng c.s x.engine)).toNat ≤ old.toNat) →
    exec (.xchg x d b disp) s = .next (ended x (xchgKind d b disp) .next s (wrote x.engine d old c))) ∧
  (∀ (x : Issue) (d r t : RegCode) (s : State) (old : Word) (c : Cx),
    let g := eng s x.engine
    Fetched s x (casKind d r t) →
    (areaOf s (rdReg g r).toNat = some .sram ∨ areaOf s (rdReg g r).toNat = some .loc) →
    atomic x (rdReg g r).toNat (fun v => if BitVec.ofNat 32 v == rdReg g d then some (rdReg g t) else none) (spent 1 (start s)) = .ok (old, c) →
    (d = 3 → (stkLim (eng c.s x.engine)).toNat ≤ old.toNat) →
    exec (.cas x d r t) s = .next (ended x (casKind d r t) .next s (wrote x.engine d old c)))

/-- BR, BZ, BNZ, JR, CALL, CALLX, CALLR, RET, LOOP, LOOPI, LEAVE and REP that no trap bars complete: the next PC,
frames, loop levels, as stated. (14_engine_instruction_set.md; R351, R353; R355 to R360) -/
def Obligations.EngineFlowComplete : Prop :=
  (∀ (x : Issue) (off : BitVec 22) (s : State), Fetched s x (brKind off) →
    (branchTarget (eng s x.engine) off).toNat % 4 = 0 →
    exec (.br x off) s = .next (ended x (brKind off) (.jump (branchTarget (eng s x.engine) off)) s { start s with cost := { wasted := 1 } })) ∧
  (∀ (x : Issue) (c : RegCode) (off : BitVec 22) (s : State), Fetched s x (condKind true c off) → isG c = true →
    (branchTarget (eng s x.engine) off).toNat % 4 = 0 →
    exec (.bz x c off) s = .next (
      if rdReg (eng s x.engine) c = 0 then ended x (condKind true c off) (.jump (branchTarget (eng s x.engine) off)) s { start s with cost := { wasted := 1 } }
      else ended x (condKind true c off) .next s (start s))) ∧
  (∀ (x : Issue) (c : RegCode) (off : BitVec 22) (s : State), Fetched s x (condKind false c off) → isG c = true →
    (branchTarget (eng s x.engine) off).toNat % 4 = 0 →
    exec (.bnz x c off) s = .next (
      if rdReg (eng s x.engine) c ≠ 0 then ended x (condKind false c off) (.jump (branchTarget (eng s x.engine) off)) s { start s with cost := { wasted := 1 } }
      else ended x (condKind false c off) .next s (start s))) ∧
  (∀ (x : Issue) (r : RegCode) (s : State), Fetched s x (jrKind r) → (rdReg (eng s x.engine) r).toNat % 4 = 0 →
    exec (.jr x r) s = .next (ended x (jrKind r) (.jump (rdReg (eng s x.engine) r)) s { start s with cost := { wasted := 1 } })) ∧
  (∀ (x : Issue) (mask : BitVec 11) (off : BitVec 15) (s : State) (c : Cx),
    let g := eng s x.engine
    let l := maskRegs mask
    let sp := (rdReg g 3).toNat
    let n := 8 + 4 * l.length
    Fetched s x (callKind mask off) → (branchTarget g off).toNat % 4 = 0 → n ≤ sp → (stkLim g).toNat ≤ sp - n →
    storeWords x (sp - n) ([g.pc + 4, frameWord mask g] ++ l.map (rdReg g))
      (wrote x.engine 3 (BitVec.ofNat 32 (sp - n)) (spent (1 + l.length) (start s))) = .ok ((), c) →
    exec (.call x mask off) s = .next (ended x (callKind mask off) (.goto (branchTarget g off)) s c)) ∧
  (∀ (x : Issue) (mask : BitVec 11) (target : Word) (s : State) (c : Cx),
    let g := eng s x.engine
    let l := maskRegs mask
    let sp := (rdReg g 3).toNat
    let n := 8 + 4 * l.length
    Fetched s x (callxKind mask target) → (target).toNat % 4 = 0 → n ≤ sp → (stkLim g).toNat ≤ sp - n →
    storeWords x (sp - n) ([g.pc + 8, frameWord mask g] ++ l.map (rdReg g))
      (wrote x.engine 3 (BitVec.ofNat 32 (sp - n)) (spent (2 + l.length) (start s))) = .ok ((), c) →
    exec (.callx x mask target) s = .next (ended x (callxKind mask target) (.goto (target)) s c)) ∧
  (∀ (x : Issue) (mask : BitVec 11) (r : RegCode) (s : State) (c : Cx),
    let g := eng s x.engine
    let l := maskRegs mask
    let sp := (rdReg g 3).toNat
    let n := 8 + 4 * l.length
    Fetched s x (callrKind mask r) → (rdReg g r).toNat % 4 = 0 → n ≤ sp → (stkLim g).toNat ≤ sp - n →
    storeWords x (sp - n) ([g.pc + 4, frameWord mask g] ++ l.map (rdReg g))
      (wrote x.engine 3 (BitVec.ofNat 32 (sp - n)) (spent (1 + l.length) (start s))) = .ok ((), c) →
    exec (.callr x mask r) s = .next (ended x (callrKind mask r) (.goto (rdReg g r)) s c)) ∧
  (∀ (x : Issue) (s : State) (head ws : List Word) (c c2 c3 : Cx),
    let g := eng s x.engine
    let sp := rdReg g 3
    let back := head.getD 0 0
    let fw := head.getD 1 0
    let l := maskRegs (fw.truncate 11)
    Fetched s x retKind → loadWords x sp.toNat 2 (start s) = .ok (head, c) → frameOk fw = true → back.toNat % 4 = 0 →
    loadWords x (sp.toNat + 8) l.length (spent (2 + l.length) c) = .ok (ws, c2) → putFrame x.engine l ws c2 = .ok ((), c3) →
    let t := setEng x.engine (fun g => { g with sw := setFld g.sw swLa 3 (fld fw.toNat 11 3) }) c3.s
    (stkLim (eng t x.engine)).toNat ≤ (sp + BitVec.ofNat 32 (8 + 4 * l.length)).toNat →
    exec (.ret x) s = .next (ended x retKind (.goto back) s (wrote x.engine 3 (sp + BitVec.ofNat 32 (8 + 4 * l.length)) { c3 with s := t }))) ∧
  (∀ (x : Issue) (r : RegCode) (last : BitVec 14) (s : State), Fetched s x (loopKind r last) → last ≠ 0 → rdReg (eng s x.engine) r = 0 →
    exec (.loop x r last) s = .next (ended x (loopKind r last) (.goto ((eng s x.engine).pc + BitVec.ofNat 32 (4 * last.toNat) + 4)) s (spent 1 (start s)))) ∧
  (∀ (x : Issue) (r : RegCode) (last : BitVec 14) (s : State) (l : Fin 3), Fetched s x (loopKind r last) → last ≠ 0 → rdReg (eng s x.engine) r ≠ 0 → lowestFree (eng s x.engine) = some l →
    let t := setEng x.engine (fun g => setLevel l true (setLc l (rdReg (eng s x.engine) r) { g with loops := g.loops.set l { start := g.pc + 4, last := (eng s x.engine).pc + BitVec.ofNat 32 (4 * last.toNat) } })) s
    exec (.loop x r last) s = .next (ended x (loopKind r last) (.goto ((eng s x.engine).pc + 4)) s { spent 1 (start s) with s := t })) ∧
  (∀ (x : Issue) (count : BitVec 12) (last : BitVec 14) (s : State), Fetched s x (loopiKind count last) → last ≠ 0 → count.zeroExtend 32 = 0 →
    exec (.loopi x count last) s = .next (ended x (loopiKind count last) (.goto ((eng s x.engine).pc + BitVec.ofNat 32 (4 * last.toNat) + 4)) s (spent 1 (start s)))) ∧
  (∀ (x : Issue) (count : BitVec 12) (last : BitVec 14) (s : State) (l : Fin 3), Fetched s x (loopiKind count last) → last ≠ 0 → count.zeroExtend 32 ≠ 0 → lowestFree (eng s x.engine) = some l →
    let t := setEng x.engine (fun g => setLevel l true (setLc l (count.zeroExtend 32) { g with loops := g.loops.set l { start := g.pc + 4, last := (eng s x.engine).pc + BitVec.ofNat 32 (4 * last.toNat) } })) s
    exec (.loopi x count last) s = .next (ended x (loopiKind count last) (.goto ((eng s x.engine).pc + 4)) s { spent 1 (start s) with s := t })) ∧
  (∀ (x : Issue) (s : State) (l : Fin 3), Fetched s x leaveKind → innermost (eng s x.engine) = some l →
    exec (.leave x) s = .next (ended x leaveKind (.goto ((eng s x.engine).loops[l].last + 4)) s
      { spent 1 (start s) with s := setEng x.engine (setLevel l false) s })) ∧
  (∀ (x : Issue) (r : RegCode) (ni : Bool) (s : State) (l : Fin 3), Fetched s x (repKind r ni) → highestFree (eng s x.engine) = some l →
    let g := eng s x.engine
    let n := if swBit g swRepa then getLc g l else rdReg g r
    (swBit g swRepa = true ∨ ni = false ∨ (rdReg g r).toNat ≤ 256) → n ≠ 0 →
    let t := setEng x.engine (fun g => setSw swRepa true (setLc l n { g with rep := some { level := l, ni := ni, found := some (getLc g l) } })) s
    exec (.rep x r ni) s = .next (ended x (repKind r ni) (.goto (g.pc + 4)) s { start s with s := t })) ∧
  (∀ (x : Issue) (r : RegCode) (ni : Bool) (s : State), Fetched s x (repKind r ni) → swBit (eng s x.engine) swRepa = false → rdReg (eng s x.engine) r = 0 →
    let t := if highestFree (eng s x.engine) = none then s else setEng x.engine (setSw swRepa false) s
    exec (.rep x r ni) s = .next (ended x (repKind r ni) .skip s { start s with s := t }))

/-- NOP, FENCE, SEND, RECV, WAIT, YIELD, TRAP, MFS, MTS, RETI, illegal instructions, interrupt entry, handler dispatch
and its budget, queue delivery and the local timer answer the stated next state. (14_engine_instruction_set.md; R343
to R348; R361 to R363) -/
def Obligations.EngineSystemComplete : Prop :=
  (∀ (x : Issue) (s : State), Fetched s x nopKind → exec (.nopInstruction x) s = .next (ended x nopKind .next s (start s))) ∧
  (∀ (x : Issue) (s : State), Fetched s x fenceKind → confirmsOut (settled x.engine s) x.engine = false →
    exec (.fence x) s = .next (ended x fenceKind .next s { start s with s := fenceLines x.engine (settled x.engine s) })) ∧
  (∀ (x : Issue) (s : State), Fetched s x fenceKind → confirmsOut (settled x.engine s) x.engine = true → exec (.fence x) s = .next s) ∧
  (∀ (x : Issue) (d r : RegCode) (s : State) (ws : List Word) (c : Cx),
    let g := eng s x.engine
    Fetched s x (sendKind d r) → isG d = true → (rdReg g r).toNat % 32 = 0 → (inTask g = true ∨ areaOf s (rdReg g r).toNat = some .loc) →
    loadWords x (rdReg g r).toNat 8 (spent 5 (start s)) = .ok (ws, c) → engInFlight c.s x.engine < 32 →
    let t := settled x.engine c.s
    let desc := sentDesc x.engine g (ofLe (ws.map fun w => leBytes 4 w.toNat).flatten)
    confirmsOut t x.engine = false →
    exec (.send x d r) s = .next (ended x (sendKind d r) .next s (wrote x.engine d 1
      { c with s := if isCoupled t x.engine then holdItem (x.engine / 2) (.send desc) t else pushDesc x.engine desc t
               cost := { c.cost with sent := some true, samples := c.cost.samples ++ [1], items := c.cost.items ++ (descWords desc).map fun w => (2, w) } }))) ∧
  (∀ (x : Issue) (d r : RegCode) (s : State) (ws : List Word) (c : Cx),
    let g := eng s x.engine
    Fetched s x (sendKind d r) → isG d = true → (rdReg g r).toNat % 32 = 0 → (inTask g = true ∨ areaOf s (rdReg g r).toNat = some .loc) →
    loadWords x (rdReg g r).toNat 8 (spent 5 (start s)) = .ok (ws, c) → 32 ≤ engInFlight c.s x.engine →
    exec (.send x d r) s = .next (ended x (sendKind d r) .next s (wrote x.engine d 0
      { c with cost := { c.cost with sent := some false, samples := c.cost.samples ++ [0] } }))) ∧
  (∀ (x : Issue) (d r : RegCode) (s : State) (m : InRec) (rest : List InRec) (c : Cx),
    let g := eng s x.engine
    Fetched s x (recvKind d r) → isG d = true → (rdReg g r).toNat % 32 = 0 → (inTask g = true ∨ areaOf s (rdReg g r).toNat = some .loc) →
    g.inbox = m :: rest →
    storeWords x (rdReg g r).toNat ((List.range 8).map fun i => BitVec.ofNat 32 (fld (ofLe (recordBytes 0 m.record)) (32 * i) 32))
      { start s with cost := { extra := 11, samples := [ofLe (recordBytes 0 m.record)] } } = .ok ((), c) →
    exec (.recv x d r) s = .next (ended x (recvKind d r) .next s
      (wrote x.engine d 1 { c with s := setEng x.engine (fun g => { g with inbox := g.inbox.drop 1 }) c.s }))) ∧
  (∀ (x : Issue) (d r : RegCode) (s : State),
    let g := eng s x.engine
    Fetched s x (recvKind d r) → isG d = true → (rdReg g r).toNat % 32 = 0 → (inTask g = true ∨ areaOf s (rdReg g r).toNat = some .loc) →
    g.inbox = [] →
    exec (.recv x d r) s = .next (ended x (recvKind d r) .next s (wrote x.engine d 0 (spent 11 (start s))))) ∧
  (∀ (x : Issue) (s : State), Fetched s x waitKind → inTask (eng s x.engine) = false →
    exec (.wait x) s = .next (ended x waitKind .next s { start s with s := setEng x.engine (fun g => { g with waiting := true }) s })) ∧
  (∀ (x : Issue) (s : State), Fetched s x yieldKind → inTask (eng s x.engine) = true →
    exec (.yield x) s = .next (ended x yieldKind (.goto (BitVec.ofNat 32 (4 * (Config.freeValue 30 s.free).toNat))) s
      { start s with s := setEng x.engine (fun g => setSw swTask false { g with handler := none }) { s with free := s.free + 1 } })) ∧
  (∀ (x : Issue) (s : State), Fetched s x yieldKind → inTask (eng s x.engine) = false →
    exec (.yield x) s = .next (ended x yieldKind .next s (start s))) ∧
  (∀ (x : Issue) (code : BitVec 8) (s : State), Fetched s x (trapKind code) →
    exec (.trap x code) s = .next (trapped x (trapKind code) 11 code.toNat none ((eng s x.engine).pc + 4) false false {} s)) ∧
  (∀ (x : Issue) (d : RegCode) (n : BitVec 8) (s : State),
    let g := eng s x.engine
    let v := spValue s x.engine n.toNat
    Fetched s x (mfsKind d n) → spListed n.toNat = true → (inTask g = false ∨ spTask n.toNat = true) →
    (d = 3 → (stkLim g).toNat ≤ v.toNat) →
    exec (.mfs x d n) s = .next (ended x (mfsKind d n) .next s (wrote x.engine d v
      { start s with s := if n = 0x10 then setEng x.engine (fun g => { g with dtHi := BitVec.ofNat 32 (s.dt / 2 ^ 32) }) s else s
                     cost := { extra := 1, samples := if [0x10, 0x11, 0x13].contains n.toNat then [v.toNat] else [] } }))) ∧
  (∀ (x : Issue) (r : RegCode) (n : BitVec 8) (s : State),
    let g := eng s x.engine
    Fetched s x (mtsKind r n) → spListed n.toNat = true → (inTask g = false ∨ n = 0) →
    exec (.mts x r n) s = .next (ended x (mtsKind r n) .next s { spent 1 (start s) with s := setEng x.engine (spWrite n.toNat (rdReg g r)) s })) ∧
  (∀ (x : Issue) (s : State) (ws : List Word) (c : Cx),
    let g := eng s x.engine
    Fetched s x retiKind → inTask g = false →
    loadWords x g.ssp.toNat 11 (start s) = .ok (ws, c) → (ws.getD 0 0).toNat % 4 = 0 →
    exec (.reti x) s = .next (ended x retiKind (.goto (ws.getD 0 0)) s
      { c with s := setEng x.engine (restoreFrame ws) c.s, cost := { c.cost with wasted := 9 } })) ∧
  (∀ (x : Issue) (w : Word) (s : State), mlzLegal w.toNat = false → Fetched s x (badKindOf w) →
    exec (.illegalInstruction x w) s = .next (trapsHere x (badKindOf w) 1 none {} s)) ∧
  (∀ (x : Issue) (s : State) (n : Nat) (c : Cx),
    let e := x.engine
    let g := eng s e
    let pc := savedPc g
    (executes s e && intAllowed s e) = true → enterInt x pc (start s) = .ok (some n, c) →
    let t := setAsked e [] { c.s with engInts := upd c.s.engInts e fun b => b - putF (fld b n 1) n 1 }
    let slots := entrySlots 0x18 (eng t e).pc (occurOf g pc)
    exec (.interruptEntry x) s = .next (followed e true x slots c.cost.items (c.cost.samples ++ [n]) g (runCycles e true slots (nameSamples e pc.toNat true t)))) ∧
  (∀ (e : Fin 16) (s : State),
    (mayDispatch s e) = true →
    exec (.handlerDispatch e) s = .next (
      let s := mirrorShadow e (setEng e (fun g => { g with inbox := g.inbox.filter fun r => !unserved s r }) s)
      match bestHandler (dispatchable s e) with
      | none => s
      | some (r, p, entry, _) => mirrorShadow e (countDispatch e (setEng e (enterHandler p entry r) s)))) ∧
  (∀ (x : Issue) (s : State),
    (executes s x.engine && budgetOver (eng s x.engine)) = true →
    exec (.handlerCycleBudgetExceeded x) s = .next (takeTrap x 13 0 none (savedPc (eng s x.engine)) (fun _ _ => []) s)) ∧
  (∀ (e : Fin 16) (s : State),
    s.pw.dieOn = true →
    ∀ r, (s.transit.find? fun r => r.engine == e.val) = some r →
    exec (.inboundQueueDelivery e) s = .next (
      let s := { s with transit := s.transit.eraseP fun r => r.engine == e.val }
      if (pair s (e / 2)).halted then s
      else
        let e := if isShadow s e then e.val - 1 else e.val
        let g := eng s e
        if r.event && eventPlaces ≤ (g.inbox.filter (·.event)).length then
          let s := setEng e (fun g => { g with evtDrop := sat 32 (g.evtDrop + 1), dropSeen := true }) s
          mirrorShadow e (if g.dropSeen then s else raise 242 (engTarget e) s)
        else
          let s := setEng e (fun g => { g with inbox := g.inbox ++ [{ prog := r.prog, event := r.event, record := r.record }], dropSeen := g.dropSeen && !g.inbox.isEmpty }) s
          mirrorShadow e (if 4 ≤ e && r.prog.isSome && s.pw.state == .standby then modPw (fun w => { w with exitTrigger := true }) s else s))) ∧
  (∀ (e : Fin 16) (s : State),
    (engineClock s e) = true →
    exec (.localTimer e) s = .next { s with engInts := upd s.engInts e fun b => Nat.lor b (2 ^ 80) })

/-- When a command of one of these families answers a next state, every part of the state but those named for the
family is the same. (04_load_channels.md; 05_wire_fusing.md; 06_motor_bridges.md; 07_valve_groups.md) -/
def Obligations.LoadDieFrames : Prop :=  FamilyFrame [.load] [.records, .flt, .ld] ∧
  FamilyFrame [.wire] [.records, .flt, .ld, .hbs] ∧
  FamilyFrame [.bridge] [.records, .flt, .hbs] ∧
  FamilyFrame [.valve] [.records, .flt, .pw, .vs]

/-- When a command of one of these families answers a next state, every part of the state but those named for the
family is the same. (08_switch_inputs.md; 09_body_builder_io.md; 13_access_and_immobiliser.md) -/
def Obligations.InputFrames : Prop :=  FamilyFrame [.switch] [.records, .flt, .pw, .sw, .acc] ∧
  FamilyFrame [.field] [.records, .flt, .fs, .links] ∧
  FamilyFrame [.access] [.records, .flt, .hw, .keys, .sw, .fs, .ns, .acc]

/-- When a command of one of these families answers a next state, every part of the state but those named for the
family is the same. (10_can_fd.md; 11_lin_and_gateway.md; 12_network_sleep.md) -/
def Obligations.NetworkFrames : Prop :=  FamilyFrame [.can] [.records, .flt, .pw, .ns, .acc] ∧
  FamilyFrame [.lin] [.records, .flt, .ns] ∧
  FamilyFrame [.sleep] [.records, .flt, .pw, .hw, .ns]

/-- When a command of one of these families answers a next state, every part of the state but those named for the
family is the same. (02_rings_and_doorbells.md; 03_staging_and_commit.md; 16_host_bridge.md;
20_performance_counters.md) -/
def Obligations.ControlFrames : Prop :=  FamilyFrame [.ring] [.records, .stg, .flt, .pw, .hw, .upd, .ld, .hbs, .vs, .sw, .fs, .ns, .acc, .pairs] ∧
  FamilyFrame [.bridgeHost] [.records, .flt, .hw] ∧
  FamilyFrame [.perf] [.records] ∧
  FamilyFrame [.staging] [.records, .stg, .flt, .hw, .upd, .ld, .hbs, .vs, .sw, .fs, .ns, .acc, .eng, .pairs] ∧
  FamilyFrame [.session] [.records, .ses, .mram, .flt, .hw]

/-- When a command of one of these families answers a next state, every part of the state but those named for the
family is the same. (17_fault_collection.md; 18_power_states.md; 19_heartwood_and_grafting.md;
15_pairs_and_comparison.md) -/
def Obligations.SystemFrames : Prop :=  FamilyFrame [.fault] [.records, .stg, .flt, .pw, .hw, .ld, .hbs, .vs, .fs, .ns, .acc, .eng, .pairs] ∧
  FamilyFrame [.power] [.records, .ses, .stg, .mram, .flt, .pw, .hw, .upd, .ld, .hbs, .vs, .sw, .fs, .ns, .acc, .eng, .pairs, .links] ∧
  FamilyFrame [.update] [.records, .flt, .hw, .upd] ∧
  FamilyFrame [.start] [.time, .records, .ses, .stg, .flt, .pw, .hw, .upd, .ld, .hbs, .vs, .sw, .fs, .ns, .acc, .eng, .pairs, .links] ∧
  FamilyFrame [.pair] [.records, .stg, .flt, .pw, .hw, .upd, .eng, .pairs, .pkgs]

/-- When a command of one of these families answers a next state, every part of the state but those named for the
family is the same. (14_engine_instruction_set.md) -/
def Obligations.EngineFrames : Prop :=  FamilyFrame [.engine] [.records, .stg, .flt, .pw, .hw, .upd, .ld, .hbs, .vs, .sw, .fs, .ns, .acc, .eng, .pairs]

/-- The verdict on a descriptor is that of the first check that fails: 0x08, 0x0F, 0x0A, 0x0C, 0x0B; for each of the
97 operations, a descriptor with a verdict completes with it and changes nothing but the records and descriptors on
their way (the RESULT is a free value, log entry 5). (R40 of 02_rings_and_doorbells.md; R519 of
02_rings_and_doorbells.md) -/
def Obligations.ChecksInOrder : Prop :=
  (∀ (s : State) (d : Desc) (f : OpForm),
    (checkForm d f = false → judge s d f = some 0x08) ∧
    (checkForm d f = true → checkSession s d f = false → judge s d f = some 0x0F) ∧
    (checkForm d f = true → checkSession s d f = true → (f.range && checkTask s d) = false → judge s d f = some 0x0A) ∧
    (checkForm d f = true → checkSession s d f = true → (f.range && checkTask s d) = true → (checkSafe s d && f.state) = false → judge s d f = some 0x0C) ∧
    (checkForm d f = true → checkSession s d f = true → (f.range && checkTask s d) = true → (checkSafe s d && f.state) = true → f.res = false → judge s d f = some 0x0B)) ∧
  (∀ (c : Instr) (o : Origin) (op : Nat) (form : State → Desc → OpForm) (d : Desc) (s : State) (st : Nat), descOp c = some (o, op, form) →
    s.pw.dieOn = true → headOf s o = some d → d.opcode = op → mayStart s o d = true → judge s d (form s d) = some st →
    ∃ t, exec c s = .next t ∧ KeepsBut [.records] s t ∧ ∃ u, Ends c s o (finishFree s.nextUid st u) ∧ u.started = s.started ++ [{ uid := s.nextUid, desc := d }])

/-- For each operation: a descriptor that passes the checks of form, session and range but not that of state leaves
its origin, completes with status 0x0C, and changes nothing but records and descriptors on their way. (R41) -/
def Obligations.NotAllowedNow : Prop :=
  ∀ (c : Instr) (o : Origin) (op : Nat) (form : State → Desc → OpForm) (d : Desc) (s : State), descOp c = some (o, op, form) →
    s.pw.dieOn = true → headOf s o = some d → d.opcode = op → mayStart s o d = true →
    checkForm d (form s d) = true → checkSession s d (form s d) = true → ((form s d).range && checkTask s d) = true →
    (checkSafe s d && (form s d).state) = false →
    ∃ t, exec c s = .next t ∧ KeepsBut [.records] s t ∧ (∃ u, Ends c s o (finishFree s.nextUid 0x0C u)) ∧
      (∀ n : Fin 64, o = .ring n → t.rings[n].pipe.length < s.rings[n].pipe.length) ∧ (∀ e : Fin 16, o = .engine e → t.engPipe[e].length < s.engPipe[e].length)

/-- Known opcodes have an operation below 0x80; a descriptor with an unknown opcode, alone at its origin, completes
with 0x09 whatever operation is asked of the origin; an operation whose block cannot be read completes with 0x13 (the
RESULT is free, log entry 5); each read of a block names its next bytes, at most the Max Read Request Size in force,
and takes a tag. (R39, R40 of 02_rings_and_doorbells.md; R393 of 16_host_bridge.md) -/
def Obligations.UnknownOpcodesAndFailedReads : Prop :=
  (∀ op, op ∈ knownOps → op % 256 < 0x80) ∧
  (∀ (c : Instr) (o : Origin) (op : Nat) (form : State → Desc → OpForm) (d : Desc) (s : State), descOp c = some (o, op, form) →
    s.pw.dieOn = true → headOf s o = some d → opKnown d.opcode = false → mayStart s o d = true → headOf (popHead o s) o = none →
    exec c s = .next (finishFree s.nextUid 0x09 (startRun d (popHead o s)))) ∧
  (∀ (c : Instr) (o : Origin) (op : Nat) (place : BlockPlace) (form : State → Desc → OpForm) (d : Desc) (s t : State),
    blockOp c = some (o, .run, op, place, form) → Took s o op form d → BlockFailed o d form place s t → Ends c s o (finishFree s.nextUid 0x13 t)) ∧
  (∀ (c : Instr) (o : Origin) (op : Nat) (place : BlockPlace) (form : State → Desc → OpForm) (s : State),
    blockOp c = some (o, .read, op, place, form) → s.pw.dieOn = true → exec c s = .next (blockSend o op form place (retireUnknown o pipeMax s))) ∧
  (∀ (o : Origin) (op : Nat) (place : BlockPlace) (form : State → Desc → OpForm) (d : Desc) (tag : Fin 128) (b : BlockRead) (s : State),
    Took s o op form d → (place s d).1 = true → s.host.linkUp = true → freeTag s = some tag → blockOf s o = some b → b.failed = false → b.sent < (place s d).2.2 →
    let t := blockSend o op form place s
    let n := min (readMax s) ((place s d).2.2 - b.sent)
    t.out = s.out ++ [.readReq tag ((place s d).2.1 + b.sent) n] ∧ t.host.tags[tag] = .out (.block o b.id b.sent) ((place s d).2.1 + b.sent) n s.dt ∧
    (blockOf t o).map (·.sent) = some (b.sent + n) ∧ n ≤ 512 ∧ KeepsBut [.records] s t)

/-- While a started descriptor has not ended, or waits for its heartwood record, it and every later one of the same
TARGET stay uncompleted. (R42 of 02_rings_and_doorbells.md; R462 of 19_heartwood_and_grafting.md) -/
def Obligations.CompletionOrder : Prop :=
  ∀ (s : State) (pre post : List Run) (r q : Run), s.started = pre ++ r :: post → (r.done = none ∨ r.gated = true) →
    q ∈ post → q.desc.target = r.desc.target → r ∈ (settle s).started ∧ q ∈ (settle s).started

/-- The record written at index i, toward the host or into shared SRAM, carries PHASE = 1 - ((i >> SIZE_LOG2) & 1); it
is 1 on the first lap, so unlike a zeroed slot, and changes with every lap, so unlike the record that stood there.
(R45) -/
def Obligations.RecordPhase : Prop :=
  (∀ (n : Fin 64) (rec : Record) (irq : Bool) (s : State), s.host.selfHosted = false → s.host.linkUp = true →
    let r := s.rings[n]
    ∃ bytes rest, (putRecord n rec irq s).out = s.out ++ .record n r.idx (entryAddr r r.idx) bytes :: rest ∧ bytes.length = 32 ∧
      fld ((bytes.getD 3 0).toNat) 0 1 = 1 - (r.idx / 2 ^ r.sizeLog2) % 2) ∧
  (∀ (n : Fin 64) (rec : Record) (irq : Bool) (s : State), s.host.selfHosted = true → MemoryWf s → s.rings[n].shadow = 0 →
    let r := s.rings[n]
    fld (memRead (putRecord n rec irq s).sram (entryAddr r r.idx + 3)).toNat 0 1 = 1 - (r.idx / 2 ^ r.sizeLog2) % 2) ∧
  (∀ (r : Ring) (i : Nat), (i < ringSize r → phaseBit r i = 1) ∧ phaseBit r (i + ringSize r) = 1 - phaseBit r i ∧ phaseBit r i ≤ 1)

/-- In self-hosted operation a record's 32 bytes stand at RING_BASE + 32 * (i mod size), the shadow index at
RING_SHADOW, every other byte of shared SRAM is as before, and the producer index rises by 1 modulo 2^32. (R23, R44,
R46 of 02_rings_and_doorbells.md; R29 of 02_rings_and_doorbells.md) -/
def Obligations.RecordsInSharedMemory : Prop :=
  ∀ (n : Fin 64) (rec : Record) (irq : Bool) (s : State), s.host.selfHosted = true → MemoryWf s →
    let r := s.rings[n]
    let t := putRecord n rec irq s
    let a := entryAddr r r.idx
    (∀ p, (p < a ∨ a + 32 ≤ p) → (r.shadow = 0 ∨ p < r.shadow ∨ r.shadow + 4 ≤ p) → memRead t.sram p = memRead s.sram p) ∧
    (∀ i, i < 32 → (r.shadow = 0 ∨ a + i < r.shadow ∨ r.shadow + 4 ≤ a + i) →
      memRead t.sram (a + i) = (recordBytes (phaseBit r r.idx) rec).getD i 0) ∧
    (r.shadow ≠ 0 → memLe t.sram r.shadow 4 = (r.idx + 1) % 2 ^ 32) ∧ t.rings[n].idx = (r.idx + 1) % 2 ^ 32

/-- With no credit free or the ring not active the event is added to EVT_DROP (saturating) and, on an active ring, to
the pending drops, and nothing is written; else one credit is taken and the producer index rises by 1. No source is
raised, and other rings keep their registers. (R47, R48 of 02_rings_and_doorbells.md) -/
def Obligations.EventTakesCredit : Prop :=
  ∀ (n : Fin 64) (code target d1 d2 time : Nat) (tsRt : Bool) (s : State), s.rings[n].role = true → s.rings[n].sizeLog2 ≤ 16 →
    let r := s.rings[n]
    let t := emitAt n code target d1 d2 time tsRt s
    ((r.active = false ∨ credits r = 0) → t.rings[n] = { r with evtDrop := min (r.evtDrop + 1) 0xFFFF, pendDrop := if r.active then r.pendDrop + 1 else r.pendDrop } ∧
      t.out = s.out ∧ t.sram = s.sram ∧ t.engInts = s.engInts) ∧
    (r.active = true → credits r ≠ 0 → credits t.rings[n] + 1 = credits r ∧ t.rings[n].idx = (r.idx + 1) % 2 ^ 32 ∧
      t.rings[n].evtDrop = r.evtDrop ∧ t.rings[n].pendDrop = r.pendDrop) ∧
    t.flt = s.flt ∧ (∀ m : Fin 64, m ≠ n → t.rings[m] = { s.rings[m] with stallStart := t.rings[m].stallStart })

/-- A COMMIT that passes the checks of form, session and range and names another number than STG_SEQ completes with
status 0x0C; the staging area, tables, number and every other part but records and descriptors on their way are as
before. (R72) -/
def Obligations.StaleCommit : Prop :=
  ∀ (o : Origin) (d : Desc) (s : State), s.pw.dieOn = true → headOf s o = some d → d.opcode = 0x0201 → mayStart s o d = true →
    checkForm d (commitForm s d) = true → checkSession s d (commitForm s d) = true → ((commitForm s d).range && checkTask s d) = true →
    d.u 24 32 ≠ s.stg.seq →
    ∃ t u, exec (.commit o) s = .next t ∧ t.stg = s.stg ∧ Ends (.commit o) s o (finishFree s.nextUid 0x0C u) ∧ KeepsBut [.records] s t

/-- After a STAGE_WRITE the named table is staged for the descriptor's session, holds the written bytes at the offset
and its earlier bytes (zeros if newly staged) elsewhere; other staged tables, the acting tables and the number are as
before. (R62, R64, R65 of 03_staging_and_commit.md) -/
def Obligations.StagedBytes : Prop :=
  ∀ (o : Origin) (d : Desc) (s u : State) (bs : List Byte), Took s o 0x0100 stageWriteForm d → BlockHere o d stageWriteForm paramBlock s bs u →
    bs.length = d.plen → TablesWf s →
    ∃ t m, exec (.stageWrite o .run) s = .next t ∧
      (at? t.stg.staged (d.u 24 16 - 1)) = some (some { bytes := m, writer := some d.session }) ∧
      (∀ i, i < d.plen → memRead m (d.u 28 32 + i) = bs.getD i 0) ∧
      (∀ a, (a < d.u 28 32 ∨ d.u 28 32 + d.plen ≤ a) → memRead m a = match at? s.stg.staged (d.u 24 16 - 1) with | some (some x) => memRead x.bytes a | _ => 0) ∧
      (∀ i : Fin 16, i.val ≠ d.u 24 16 - 1 → t.stg.staged[i] = s.stg.staged[i]) ∧ t.stg.tables = s.stg.tables ∧ t.stg.seq = s.stg.seq

/-- A SESSION_OPEN that passes its checks opens the session exactly when a valid challenge exists and the response
matches; else source 5 is raised; other session numbers are untouched. A failure ends the challenge, counts, and from
the third locks for 1 s, doubling up to 64 s. (R81, R82 of 03_staging_and_commit.md) -/
def Obligations.SessionOpening : Prop :=
  (∀ (o : Origin) (d : Desc) (s : State), Took s o 0x0211 sessionOpenForm d →
    let n := d.u 24 8
    let matched := ∃ c, validChallenge s n = some c ∧ sessionResponse (((at? s.keys n).join).getD 0) c n = d.u 16 64
    ∃ t, exec (.sessionOpen o) s = .next t ∧ (sessionOpen t n = true ↔ matched) ∧
      (∀ m : Fin 4, m.val ≠ n → sesView t.ses[m] = sesView s.ses[m]) ∧
      (¬ matched → ∃ r ∈ t.flt.pending ++ (t.flt.held.map (·.2)), r.src = 5)) ∧
  lockSeconds 3 = 1 ∧ (∀ k, 3 ≤ k → lockSeconds (k + 1) = min 64 (2 * lockSeconds k)) ∧ (∀ k, k < 3 → lockSeconds k = 0) ∧
  (∀ (n : Fin 4) (s : State), let t := sessionFailure n s
    t.ses[n].challenge = none ∧ t.ses[n].fails = s.ses[n].fails + 1 ∧
    (3 ≤ s.ses[n].fails + 1 → t.ses[n].lockEnd = some (s.rt + 16384 * lockSeconds (s.ses[n].fails + 1))) ∧
    (∀ m : Fin 4, m ≠ n → t.ses[m] = s.ses[m]))

/-- After LCH_SET the channel's requested mode is MODE, its requested duty DUTY in PWM mode and else as before, every
channel outside its gang is as before, and so is every part but load slices and records. (R95, R97, R98, R111 of
04_load_channels.md) -/
def Obligations.LchSetEffect : Prop :=
  ∀ (o : Origin) (d : Desc) (s : State), Took s o 0x1000 lchSetForm d →
    ∃ t, exec (.lchSet o) s = .next t ∧ (lch t d.lch).mode = d.u 24 8 ∧
      (lch t d.lch).duty = (if d.u 24 8 = 2 then fld (d.u 26 16) 0 12 else (lch s d.lch).duty) ∧
      (∀ m, m ∉ membersOf s d.lch → m ≠ d.lch → lch t m = lch s m) ∧ KeepsBut [.records, .ld] s t

/-- For any room not below 0 above the minima: withdrawn channels get 0, every other gets at least its minimum and at
most its demand or minimum, and the grants add up to at most the minima and the room. (R106 of 04_load_channels.md) -/
def Obligations.BudgetGrantsFit : Prop :=
  ∀ (s : State) (gone l : List Nat) (avail : Int), 0 ≤ avail →
    let g := grantAll s gone l avail
    g.map (·.1) = l ∧ (∀ x ∈ g, gone.contains x.1 = true → x.2 = 0) ∧
    (∀ x ∈ g, gone.contains x.1 = false → (demandOf s x.1).2 ≤ x.2 ∧ x.2 ≤ max (demandOf s x.1).1 (demandOf s x.1).2) ∧
    (((g.map (·.2)).sum : Nat) : Int) ≤ avail + ((((l.filter fun n => !gone.contains n).map fun n => (demandOf s n).2).sum : Nat) : Int)

/-- At time 0 the ramp duty is PRE_D0, at PRE_MS it is the target, and at every time it lies between the two. (R103 of
04_load_channels.md) -/
def Obligations.RampStaysBetween : Prop :=
  ∀ lvl d0 target t msLen : Nat, 0 < msLen →
    min d0 target ≤ rampDuty lvl d0 target t msLen ∧ rampDuty lvl d0 target t msLen ≤ max d0 target ∧
    rampDuty lvl d0 target 0 msLen = d0 ∧ rampDuty lvl d0 target (ms msLen) msLen = target

/-- While the device is hosted, every command but an instruction, a copy into a buffer, a mismatch of a pair (up to
which its shadow executes) and a loss or return of the digital die's supply leaves every byte of shared SRAM as it is.
(R29, R390 of 02_rings_and_doorbells.md) -/
def Obligations.SharedMemoryFrame : Prop :=
  ∀ (c : Instr) (s t : State), exec c s = .next t → s.host.selfHosted = false → mayWriteSram c = false →
    ∀ a, memRead t.sram a = memRead s.sram a

/-- On a hosted device these operations answer a next state in which every byte of shared SRAM outside the buffer that
the descriptor names reads as before. (R56 of 02_rings_and_doorbells.md; R480 of 19_heartwood_and_grafting.md; R491 of
20_performance_counters.md) -/
def Obligations.BuffersBound : Prop :=
  ∀ (o : Origin) (d : Desc) (s : State), s.host.selfHosted = false →
    (Took s o 0x0002 placementQueryForm d → ∃ t, exec (.placementQuery o) s = .next t ∧
      ∀ a, (a < d.u 16 64 ∨ d.u 16 64 + d.u 24 32 ≤ a) → memRead t.sram a = memRead s.sram a) ∧
    (Took s o 0x3800 hwReadForm d → ∃ t, exec (.hwRead o) s = .next t ∧
      ∀ a, (a < d.u 16 64 ∨ d.u 16 64 + 64 * d.u 28 24 ≤ a) → memRead t.sram a = memRead s.sram a) ∧
    (Took s o 0x3C03 perfSnapForm d → ∃ t, exec (.perfSnap o) s = .next t ∧
      ∀ a, (a < d.u 16 64 ∨ d.u 16 64 + (if d.device then 576 else 96) ≤ a) → memRead t.sram a = memRead s.sram a)

/-- A query, NOP or ECHO leaves every part of the state but records and descriptors on their way as it is; an event
that reports nothing leaves rings, descriptors, records and shared SRAM as they are. (R38 of
02_rings_and_doorbells.md) -/
def Obligations.QueryAndSilentFrames : Prop :=
  (∀ (c : Instr) (s t : State), isQuery c = true → exec c s = .next t → KeepsBut [.records] s t) ∧
  (∀ (c : Instr) (s t : State), isSilent c = true → exec c s = .next t → Same s t .records)

/-- A fetched register instruction that no trap bars completes with the stated result in D, V and DZ made sticky, C
where the instruction writes it, and its cost. (R351 to R354 of 14_engine_instruction_set.md) -/
def Obligations.AluInstructionsComplete : Prop :=
  ∀ (i : Instr) (s : State) (f : AluForm), aluOf s i = some f → Fetched s f.x f.k → AluFree (eng s f.x.engine) f.d f.res →
    exec i s = .next (ended f.x f.k .next s (aluPut f.x.engine f.d f.res { start s with cost := f.cost }))

/-- A fetched register instruction that no trap bars writes its result to D, keeps every other register of codes 0x0
to 0xB, makes V and DZ sticky, writes C only where it defines it, keeps the other mode bits, special registers, local
RAM, inbox, every engine of another pair and every other part of the state, on an engine whose pair holds no earlier
store or SEND (which the shadow may release meanwhile); code 0xF reads 0. (R342, R343, R354 of
14_engine_instruction_set.md) -/
def Obligations.AluInstructionsFrame : Prop :=
  ∀ (i : Instr) (s : State) (f : AluForm), aluOf s i = some f → Fetched s f.x f.k → AluFree (eng s f.x.engine) f.d f.res →
    (isCoupled s f.x.engine = false ∨ (pair s (f.x.engine / 2)).held = []) →
    ∃ t, exec i s = .next t ∧
      let g := eng s f.x.engine
      let h := eng t f.x.engine
      (f.d.val < 12 → rdReg h f.d = f.res.val) ∧ (∀ r : RegCode, r ≠ f.d → r.val < 12 → rdReg h r = rdReg g r) ∧ rdReg h 15 = 0 ∧
      swBit h swV = (swBit g swV || f.res.v) ∧ swBit h swDz = (swBit g swDz || f.res.dz) ∧ swBit h swC = f.res.c.getD (swBit g swC) ∧
      (∀ b, 8 ≤ b → b < 14 → swBit h b = swBit g b) ∧
      (inTask g = true → h.ssp = g.ssp) ∧ (inTask g = false → h.tsp = g.tsp) ∧
      h.ram = g.ram ∧ h.mpu = g.mpu ∧ h.stkT = g.stkT ∧ h.stkS = g.stkS ∧ h.tvec = g.tvec ∧ h.tcause = g.tcause ∧ h.taddr = g.taddr ∧
      h.ivec = g.ivec ∧ h.dtHi = g.dtHi ∧ h.evtDrop = g.evtDrop ∧ h.inbox = g.inbox ∧ h.halted = g.halted ∧ h.waiting = g.waiting ∧
      (∀ e : Fin 16, e.val / 2 ≠ f.x.engine.val / 2 → eng t e = eng s e) ∧
      KeepsBut [.eng, .pairs] s t

/-- With OV_TRAP set an overflow takes trap 8 with V set, with DZ_TRAP set a division by 0 takes trap 7 with DZ set, a
result below the stack limit for SP takes trap 12; D is not written. (R345, R348, R354 of
14_engine_instruction_set.md) -/
def Obligations.AluInstructionsTrap : Prop :=
  ∀ (i : Instr) (s : State) (f : AluForm), aluOf s i = some f → Fetched s f.x f.k →
    let g := eng s f.x.engine
    (f.res.v = true → swBit g swOvTrap = true → exec i s = .next (trapped f.x f.k 8 0 none (savedPc g) true false f.cost s)) ∧
    (f.res.dz = true → swBit g swDzTrap = true → exec i s = .next (trapped f.x f.k 7 0 none (savedPc g) false true f.cost s)) ∧
    ((f.res.v = true → swBit g swOvTrap = false) → (f.res.dz = true → swBit g swDzTrap = false) → f.d = 3 → f.res.val.toNat < (stkLim g).toNat →
      exec i s = .next (trapsHere f.x f.k 12 none f.cost s))

/-- ADD then ADC give the 64-bit sum and its carry, SUB then SBC the difference and its borrow; MULH or MULHU with MUL
give the signed or unsigned 64-bit product. (R352, R354 of 14_engine_instruction_set.md) -/
def Obligations.WideArithmetic : Prop :=
  (∀ a b : BitVec 64,
    let lo := aluAdd (a.truncate 32) (b.truncate 32) false
    let hi := aluAdd (a.extractLsb' 32 32) (b.extractLsb' 32 32) (lo.c == some true)
    hi.val ++ lo.val = a + b ∧ hi.c = some (decide (2 ^ 64 ≤ a.toNat + b.toNat))) ∧
  (∀ a b : BitVec 64,
    let lo := aluSub (a.truncate 32) (b.truncate 32) false
    let hi := aluSub (a.extractLsb' 32 32) (b.extractLsb' 32 32) (lo.c == some true)
    hi.val ++ lo.val = a - b ∧ hi.c = some (decide (a.toNat < b.toNat))) ∧
  (∀ a b : Word, wMulh a b ++ (aluMul a b).val = a.signExtend 64 * b.signExtend 64) ∧
  (∀ a b : Word, wMulhu a b ++ (aluMul a b).val = a.zeroExtend 64 * b.zeroExtend 64)

/-- Outside the two corners, quotient times divisor plus remainder is the dividend, the remainder is smaller than the
divisor and takes the sign of the dividend, no flag arises; unsigned likewise. (R354 of 14_engine_instruction_set.md) -/
def Obligations.DivisionIdentity : Prop :=
  (∀ a b : Word, b ≠ 0 → (a ≠ 0x80000000 ∨ b ≠ 0xFFFFFFFF) →
    (aluDiv a b).val.toInt * b.toInt + (aluRem a b).val.toInt = a.toInt ∧ (aluRem a b).val.toInt.natAbs < b.toInt.natAbs ∧
    ((aluRem a b).val = 0 ∨ ((aluRem a b).val.toInt < 0 ↔ a.toInt < 0)) ∧
    (aluDiv a b).v = false ∧ (aluDiv a b).dz = false ∧ (aluRem a b).v = false ∧ (aluRem a b).dz = false) ∧
  (∀ a b : Word, b ≠ 0 → (aluDivU a b).val.toNat * b.toNat + (aluRemU a b).val.toNat = a.toNat ∧ (aluRemU a b).val.toNat < b.toNat)

/-- Sums and differences modulo 2^32 with V exactly when out of range and C the carry or borrow; NEG and ABS;
products; the division corners; shifts by 32 to 63; rotations modulo 32; CLZ. (R354 of 14_engine_instruction_set.md) -/
def Obligations.ArithmeticEdgeResults : Prop :=
  (∀ (a b : Word) (c : Bool), (aluAdd a b c).val.toNat = (a.toNat + b.toNat + b2n c) % 2 ^ 32 ∧
    ((aluAdd a b c).v = true ↔ (aluAdd a b c).val.toInt ≠ a.toInt + b.toInt + (b2n c : Nat)) ∧
    (aluAdd a b c).c = some (decide (2 ^ 32 ≤ a.toNat + b.toNat + b2n c))) ∧
  (∀ (a b : Word) (c : Bool), (aluSub a b c).val.toInt = (a.toInt - b.toInt - (b2n c : Nat)).bmod (2 ^ 32) ∧
    ((aluSub a b c).v = true ↔ (aluSub a b c).val.toInt ≠ a.toInt - b.toInt - (b2n c : Nat)) ∧
    (aluSub a b c).c = some (decide (a.toNat < b.toNat + b2n c))) ∧
  (∀ a : Word, ((aluNeg a).v = true ↔ a = 0x80000000) ∧ ((aluAbs a).v = true ↔ a = 0x80000000) ∧
    (aluNeg a).val = 0 - a ∧ (a ≠ 0x80000000 → (aluAbs a).val.toInt = a.toInt.natAbs) ∧ (aluAbs 0x80000000).val = 0x80000000) ∧
  (∀ a b : Word, (aluMul a b).val.toNat = a.toNat * b.toNat % 2 ^ 32 ∧ ((aluMul a b).v = true ↔ (aluMul a b).val.toInt ≠ a.toInt * b.toInt)) ∧
  (aluDiv 0x80000000 0xFFFFFFFF = { val := 0x80000000, v := true } ∧ aluRem 0x80000000 0xFFFFFFFF = { val := 0, v := true }) ∧
  (∀ a : Word, aluDiv a 0 = { val := 0xFFFFFFFF, dz := true } ∧ aluDivU a 0 = { val := 0xFFFFFFFF, dz := true } ∧
    aluRem a 0 = { val := a, dz := true } ∧ aluRemU a 0 = { val := a, dz := true }) ∧
  (∀ (a : Word) (n : Nat), 32 ≤ n → wShift .shl a n = 0 ∧ wShift .shr a n = 0 ∧ wShift .sar a n = if a.msb then 0xFFFFFFFF else 0) ∧
  (∀ (a : Word) (n : Nat), wShift .rol a n = wShift .rol a (n % 32) ∧ wShift .ror (wShift .rol a n) n = a ∧
    (∀ i, i < 32 → (wShift .rol a n).getLsbD ((i + n) % 32) = a.getLsbD i)) ∧
  (wClz 0 = 32 ∧ ∀ a : Word, a ≠ 0 → 2 ^ (31 - (wClz a).toNat) ≤ a.toNat ∧ a.toNat < 2 ^ (32 - (wClz a).toNat))

/-- CMP and CMPI into G0 to G7 write 1 when the condition holds and else 0 and leave V, DZ and C; into another
register they take trap 1. BZ and BNZ branch on a G register being 0 or not, and take trap 1 on another. (R353 of
14_engine_instruction_set.md) -/
def Obligations.ComparisonRule : Prop :=
  let means : Cond → Word → Word → Prop := fun k a b => match k with
    | .eq => a = b
    | .ne => a ≠ b
    | .lt => a.toInt < b.toInt
    | .ge => b.toInt ≤ a.toInt
    | .ltu => a.toNat < b.toNat
    | .geu => b.toNat ≤ a.toNat
    | .tst => a &&& b ≠ 0
    | .ntst => a &&& b = 0
  let flags : Eng → Bool × Bool × Bool := fun g => (swBit g swV, swBit g swDz, swBit g swC)
  (∀ (x : Issue) (d r q : RegCode) (k : Cond) (s : State), Fetched s x (cmpKind d r q k) →
    let g := eng s x.engine
    (isG d = true → ∃ t, exec (.cmp x d r q k) s = .next t ∧ flags (eng t x.engine) = flags g ∧
      (means k (rdReg g r) (rdReg g q) → rdReg (eng t x.engine) d = 1) ∧ (¬ means k (rdReg g r) (rdReg g q) → rdReg (eng t x.engine) d = 0)) ∧
    (isG d = false → exec (.cmp x d r q k) s = .next (trapsHere x (cmpKind d r q k) 1 none {} s))) ∧
  (∀ (x : Issue) (d r : RegCode) (k : Cond) (imm : BitVec 15) (s : State), Fetched s x (cmpiKind d r k imm) →
    let g := eng s x.engine
    (isG d = true → ∃ t, exec (.cmpi x d r k imm) s = .next t ∧ flags (eng t x.engine) = flags g ∧
      (means k (rdReg g r) (imm.signExtend 32) → rdReg (eng t x.engine) d = 1) ∧ (¬ means k (rdReg g r) (imm.signExtend 32) → rdReg (eng t x.engine) d = 0)) ∧
    (isG d = false → exec (.cmpi x d r k imm) s = .next (trapsHere x (cmpiKind d r k imm) 1 none {} s))) ∧
  (∀ (x : Issue) (c : RegCode) (off : BitVec 22) (s : State), isG c = false →
    (Fetched s x (condKind true c off) → exec (.bz x c off) s = .next (trapsHere x (condKind true c off) 1 none {} s)) ∧
    (Fetched s x (condKind false c off) → exec (.bnz x c off) s = .next (trapsHere x (condKind false c off) 1 none {} s))) ∧
  (∀ (x : Issue) (c : RegCode) (off : BitVec 22) (s : State), isG c = true → (branchTarget (eng s x.engine) off).toNat % 4 = 0 →
    let g := eng s x.engine
    (Fetched s x (condKind true c off) → ∃ t, exec (.bz x c off) s = .next t ∧ (eng t x.engine).pc = (if rdReg g c = 0 then branchTarget g off else g.pc + 4)) ∧
    (Fetched s x (condKind false c off) → ∃ t, exec (.bnz x c off) s = .next t ∧ (eng t x.engine).pc = (if rdReg g c = 0 then g.pc + 4 else branchTarget g off)))

/-- A trap entry with room on a supervisor stack in local RAM stores the frame below SP, clears TASK, IE and REPA,
sets TCAUSE and TADDR, goes to TVEC, and leaves other registers and all other bytes as they were, where its pair holds
no earlier store or SEND; restoring a frame gives back SW, the loop counters and bodies and SP. (R347, R348 of
14_engine_instruction_set.md) -/
def Obligations.EntryAndReturn : Prop :=
  (∀ (x : Issue) (cause code : Nat) (addr : Option Nat) (pc : Word) (spent : Occur → Bool → List Cycles) (s : State), isShadow s x.engine = false →
    (isCoupled s x.engine = false ∨ (pair s (x.engine / 2)).held = []) →
    let g := eng s x.engine
    0x20000000 + 48 ≤ g.ssp.toNat → g.ssp.toNat ≤ 0x20010000 → g.ssp.toNat % 4 = 0 → g.stkS.toNat + 48 ≤ g.ssp.toNat → memWf g.ram = true → cause < 256 → code < 256 →
    let t := takeTrap x cause code addr pc spent s
    let h := eng t x.engine
    h.pc = g.tvec ∧ h.ssp = g.ssp - 48 ∧ h.tsp = g.tsp ∧ inTask h = false ∧ swBit h swIe = false ∧ swBit h swRepa = false ∧
    h.tcause = BitVec.ofNat 32 (cause + 256 * code) ∧ h.taddr = (addr.map (BitVec.ofNat 32)).getD g.taddr ∧ h.regs = g.regs ∧ h.loops = g.loops ∧
    (∀ i, i < 11 → memLe h.ram (g.ssp.toNat - 48 - 0x20000000 + 4 * i) 4 = ((frameWords g pc).getD i 0).toNat) ∧
    (∀ a, (a < g.ssp.toNat - 48 - 0x20000000 ∨ g.ssp.toNat - 4 - 0x20000000 ≤ a) → memRead h.ram a = memRead g.ram a) ∧
    t.sram = s.sram ∧ t.mram = s.mram ∧ t.out = s.out) ∧
  (∀ (g g2 : Eng) (pc : Word), let r := restoreFrame (frameWords g pc) g2
    (frameWords g pc).getD 0 0 = pc ∧ r.sw = g.sw &&& swMask ∧ r.ssp = g2.ssp + 48 ∧ r.loops = g.loops ∧ (∀ l, getLc r l = getLc g l) ∧
    (∀ c : RegCode, c.val < 12 → r.regs[c] = g2.regs[c]) ∧ r.tsp = g2.tsp)

/-- While the innermost active level ends at the instruction, each evaluation with LC above 1 starts the body again
with LC one lower; the evaluation at 1 or 0 leaves LC 0 and the level released, and continues after END unless an
outer level ends there. (R358 of 14_engine_instruction_set.md) -/
def Obligations.LoopRepeats : Prop :=
  ∀ (g : Eng) (l : Fin 3) (a next : Word) (n : Nat),
    levelOn g l = true → (∀ m, l < m → levelOn g m = false) → g.loops[l].last = a → n = max 1 (getLc g l).toNat →
    let round := fun h : Eng => (evalEnd a next inward h).1
    (∀ k, 0 < k → k < n → let h := Nat.repeat round k g
      h.pc = g.loops[l].start ∧ levelOn h l = true ∧ (getLc h l).toNat = n - k) ∧
    ((∀ m, m < l → levelOn g m = true → g.loops[m].last ≠ a) → let h := Nat.repeat round n g
      h.pc = next ∧ levelOn h l = false ∧ getLc h l = 0)

/-- In task mode RETI, WAIT, MTS to a listed register other than SW and MFS of a register marked supervisor take trap
2. (R344 of 14_engine_instruction_set.md) -/
def Obligations.PrivilegedInTaskMode : Prop :=
  ∀ (x : Issue) (s : State), inTask (eng s x.engine) = true →
    let traps : Kind → Out := fun k => .next (trapsHere x k 2 none {} s)
    (Fetched s x retiKind → exec (.reti x) s = traps retiKind) ∧
    (Fetched s x waitKind → exec (.wait x) s = traps waitKind) ∧
    (∀ (r : RegCode) (n : BitVec 8), spListed n.toNat = true → n ≠ 0 → Fetched s x (mtsKind r n) → exec (.mts x r n) s = traps (mtsKind r n)) ∧
    (∀ (d : RegCode) (n : BitVec 8), spListed n.toNat = true → spTask n.toNat = false → Fetched s x (mfsKind d n) → exec (.mfs x d n) s = traps (mfsKind d n))

/-- A barred load or store takes its trap with the address of the access; misaligned: 5; in task mode outside what the
regions permit: 3; in supervisor mode at an address not in the map: 6; else none. (R338, R339, R344, R345, R348 of
14_engine_instruction_set.md) -/
def Obligations.AccessTraps : Prop :=
  (∀ (x : Issue) (d b : RegCode) (m : Amode) (sz : Size) (sx : Bool) (s : State) (k : Nat),
    Fetched s x (ldKind d b m sz sx) →
    modeOk b m = true → modeBreaksStack (eng s x.engine) b (sizeBytes sz) m = false → (modeUpdates m && d == b) = false →
    let a := (modeAddr (eng s x.engine) b (sizeBytes sz) m).toNat
    accessTrap s (eng s x.engine) a (sizeBytes sz) false = some k →
    exec (.ld x d b m sz sx) s = .next (trapsHere x (ldKind d b m sz sx) k (some a) {} s)) ∧
  (∀ (x : Issue) (d b : RegCode) (m : Amode) (sz : Size) (s : State) (k : Nat),
    Fetched s x (stKind d b m sz) →
    modeOk b m = true → modeBreaksStack (eng s x.engine) b (sizeBytes sz) m = false →
    let a := (modeAddr (eng s x.engine) b (sizeBytes sz) m).toNat
    accessTrap s (eng s x.engine) a (sizeBytes sz) true = some k →
    exec (.st x d b m sz) s = .next (trapsHere x (stKind d b m sz) k (some a) {} s)) ∧
  (∀ (s : State) (g : Eng) (a n : Nat) (store : Bool),
    (a % n ≠ 0 → accessTrap s g a n store = some 5) ∧
    (a % n = 0 → inTask g = true → permits g a n (if store then rightStore else rightLoad) = false → accessTrap s g a n store = some 3) ∧
    (a % n = 0 → inTask g = false → areaOf s a = none → accessTrap s g a n store = some 6) ∧
    (a % n = 0 → inTask g = false → areaOf s a ≠ none → accessTrap s g a n store = none))

/-- An aligned supervisor store in any addressing mode writes the register's low bytes at its address and no other
byte: in local RAM at once, in shared SRAM once the write buffer has drained, on a coupled pair once it is released; a
load from local RAM gives the bytes extended and writes no memory, one from shared SRAM gives them after the engine's
earlier stores have drained. (R338 to R340, R350 of 14_engine_instruction_set.md; R390 of 16_host_bridge.md) -/
def Obligations.StoresAndLoads : Prop :=
  (∀ (x : Issue) (d b : RegCode) (m : Amode) (sz : Size) (s : State), Fetched s x (stKind d b m sz) →
    modeOk b m = true → modeBreaksStack (eng s x.engine) b (sizeBytes sz) m = false → inTask (eng s x.engine) = false →
    memWf (eng s x.engine).ram = true → memWf s.sram = true →
    let e := x.engine.val
    let g := eng s e
    let n := sizeBytes sz
    let v := (rdReg g d).toNat % 2 ^ (8 * n)
    let a := (modeAddr g b n m).toNat
    a % n = 0 → (isCoupled s e = false ∨ (pair s (e / 2)).held = []) →
    (0x20000000 ≤ a → a < 0x20010000 → ∃ t, exec (.st x d b m sz) s = .next t ∧
      memLe (eng t e).ram (a - 0x20000000) n = v ∧
      (∀ p, (p < a - 0x20000000 ∨ a - 0x20000000 + n ≤ p) → memRead (eng t e).ram p = memRead g.ram p) ∧
      t.sram = s.sram ∧ KeepsBut [.eng, .pairs] s t) ∧
    (a < 0x800000 → isCoupled s e = false → (∀ w ∈ wbufOf s e, w.addr < 0x800000) → ∃ t, exec (.st x d b m sz) s = .next t ∧
      memLe (drained e t).sram a n = v ∧
      (∀ p, (p < a ∨ a + n ≤ p) → memRead (drained e t).sram p = memRead (drained e s).sram p) ∧
      (wbufOf s e = [] → t.sram = s.sram) ∧ (eng t e).ram = g.ram ∧ KeepsBut [.eng, .pairs, .records] s t) ∧
    (a < 0x800000 → isCoupled s e = true → (pair s (e / 2)).trail = [] → ∃ t, exec (.st x d b m sz) s = .next t ∧
      (pair t (e / 2)).held = [.store a n v x.portWait] ∧ t.sram = s.sram ∧ (eng t e).ram = g.ram ∧ KeepsBut [.eng, .pairs] s t)) ∧
  (∀ (x : Issue) (d b : RegCode) (m : Amode) (sz : Size) (sx : Bool) (s : State), Fetched s x (ldKind d b m sz sx) →
    modeOk b m = true → modeBreaksStack (eng s x.engine) b (sizeBytes sz) m = false → inTask (eng s x.engine) = false →
    (modeUpdates m && d == b) = false → x.ecc ≠ .uncorrectable → d ≠ 3 → d.val < 12 →
    let e := x.engine.val
    let g := eng s e
    let n := sizeBytes sz
    let a := (modeAddr g b n m).toNat
    a % n = 0 → (isCoupled s e = false ∨ (pair s (e / 2)).held = []) →
    (0x20000000 ≤ a → a < 0x20010000 → ∃ t, exec (.ld x d b m sz sx) s = .next t ∧
      rdReg (eng t e) d = extend sz sx (memLe g.ram (a - 0x20000000) n) ∧
      (eng t e).ram = g.ram ∧ KeepsBut [.eng, .pairs] s t) ∧
    (a < 0x800000 → (∀ w ∈ wbufOf s e, w.addr < 0x800000) → ∃ t, exec (.ld x d b m sz sx) s = .next t ∧
      rdReg (eng t e) d = extend sz sx (memLe (drained e s).sram a n) ∧
      t.sram = (drained e s).sram ∧ (eng t e).ram = g.ram ∧ KeepsBut [.eng, .pairs, .records] s t))
end

