-- ==== Sys2Proof/Laws/Descriptors.lean ====
section
/-! SUPPORT. What a descriptor operation does: where it completes, where a check refuses it, where it finds no descriptor. -/

namespace Sys2Proof.Laws

open Sys2Proof.Machine Sys2Proof.Safety

/-- A known opcode at the head of an origin is not retired. -/
theorem retireUnknown_known {o : Origin} {d : Desc} {s : State} (h : headOf s o = some d) (hk : opKnown d.opcode = true) :
    ∀ n, retireUnknown o n s = s
  | 0 => rfl
  | n + 1 => by simp [retireUnknown, h, hk]

/-- An empty origin has nothing to retire. -/
theorem retireUnknown_none {o : Origin} {s : State} (h : headOf s o = none) : ∀ n, retireUnknown o n s = s
  | 0 => rfl
  | n + 1 => by simp [retireUnknown, h]

/-- An operation whose descriptor passes the checks has its effect (R40, R42). -/
theorem runOp_took {s : State} {o : Origin} {op : Nat} {form : State → Desc → OpForm} {d : Desc} (eff : Desc → Nat → State → State)
    (h : Took s o op form d) (hk : opKnown op = true) :
    runOp o op form eff s = retireUnknown o pipeMax (eff d s.nextUid (begun o d form s)) := by
  obtain ⟨-, h1, h2, h3, h4⟩ := h
  have hr := retireUnknown_known h1 (by rw [h2]; exact hk) pipeMax
  simp [runOp, hr, h1, h2, h3, h4, begun]

/-- The same for the meaning of an operation without a parameter block. -/
theorem runOut_took {s : State} {o : Origin} {op : Nat} {form : State → Desc → OpForm} {d : Desc} (eff : Desc → Nat → State → State)
    (h : Took s o op form d) (hk : opKnown op = true) :
    runOut o op form eff s = .next (retireUnknown o pipeMax (eff d s.nextUid (begun o d form s))) := by
  simp [runOut, whenOn, onlyIf, h.1, runOp_took eff h hk]

/-- The same for an operation whose block has come (R37, R393). -/
theorem runBlockAt_took {s t : State} {o : Origin} {op : Nat} {form : State → Desc → OpForm} {place : BlockPlace} {d : Desc} {bs : List Byte}
    (eff : Desc → Nat → List Byte → State → State)
    (h : Took s o op form d) (hb : BlockHere o d form place s bs t) (hk : opKnown op = true) :
    runBlockAt o op .run place form eff s = .next (clearBlock o s (retireUnknown o pipeMax (eff d s.nextUid bs t))) := by
  have hr := retireUnknown_known h.2.1 (by rw [h.2.2.1]; exact hk) pipeMax
  obtain ⟨h1, h2⟩ := hb
  dsimp only at h2
  simp [runBlockAt, readyFor, whenOn, onlyIf, h.1, hr, h.2.1, h1, runOp_took _ h hk, h2]

/-- With a read of its block failed, the descriptor completes with status 0x13 (R394). -/
theorem runBlockAt_failed {s t : State} {o : Origin} {op : Nat} {form : State → Desc → OpForm} {place : BlockPlace} {d : Desc}
    (eff : Desc → Nat → List Byte → State → State)
    (h : Took s o op form d) (hb : BlockFailed o d form place s t) (hk : opKnown op = true) :
    runBlockAt o op .run place form eff s = .next (clearBlock o s (retireUnknown o pipeMax (finishFree s.nextUid 0x13 t))) := by
  have hr := retireUnknown_known h.2.1 (by rw [h.2.2.1]; exact hk) pipeMax
  obtain ⟨h1, h2⟩ := hb
  dsimp only at h2
  simp [runBlockAt, readyFor, whenOn, onlyIf, h.1, hr, h.2.1, h1, runOp_took _ h hk, h2]

/-- The next read of a block is sent (R393). -/
theorem runBlockAt_read {s : State} {o : Origin} {op : Nat} {form : State → Desc → OpForm} {place : BlockPlace}
    (eff : Desc → Nat → List Byte → State → State) (h : s.pw.dieOn = true) :
    runBlockAt o op .read place form eff s = .next (blockSend o op form place (retireUnknown o pipeMax s)) := by
  simp [runBlockAt, whenOn, onlyIf, h]

/-- A descriptor that fails a check completes with that check's status and has no other effect (R40). -/
theorem runOp_refused {s : State} {o : Origin} {op st : Nat} {form : State → Desc → OpForm} {d : Desc} (eff : Desc → Nat → State → State)
    (h1 : headOf s o = some d) (h2 : d.opcode = op) (h3 : mayStart s o d = true) (h4 : judge s d (form s d) = some st) (hk : opKnown op = true) :
    runOp o op form eff s = retireUnknown o pipeMax (finishFree s.nextUid st
      (if ((form s d).session && !d.task && st != 0x08 && st != 0x0F) = true then touchSession d.session (startRun d (popHead o s)) else startRun d (popHead o s))) := by
  have hr := retireUnknown_known h1 (by rw [h2]; exact hk) pipeMax
  simp [runOp, hr, h1, h2, h3, h4]

/-- An operation for which its origin has no descriptor changes nothing. -/
theorem runOp_none {s : State} {o : Origin} (op : Nat) (form : State → Desc → OpForm) (eff : Desc → Nat → State → State)
    (h : headOf s o = none) : runOp o op form eff s = s := by
  simp [runOp, retireUnknown_none h, h]

end Sys2Proof.Laws
end

