-- ==== Sys2Proof/Laws/Engine.lean ====
section
/-! SUPPORT. How an engine's instruction ends: completed, in a trap, or waiting. -/

namespace Sys2Proof.Laws

open Sys2Proof.Machine Sys2Proof.Safety

/-- A fetched instruction whose effect succeeds completes. -/
theorem instrOut_ok {s : State} {x : Issue} {k : Kind} {body : EngM After} {a : After} {c : Cx}
    (h : Fetched s x k) (hb : body (start s) = .ok (a, c)) : instrOut x k body s = .next (ended x k a s c) := by
  obtain ⟨h1, h2, h3, h4⟩ := h
  have hb' : body { s := s } = .ok (a, c) := hb
  simp [instrOut, onlyIf, h1, runInstr, h2, h3, h4, hb', ended]

/-- A fetched instruction that traps takes the trap. -/
theorem instrOut_trap {s : State} {x : Issue} {k : Kind} {body : EngM After} {cause code : Nat} {addr : Option Nat} {v dz : Bool} {cost : Cost}
    (h : Fetched s x k) (hb : body (start s) = .error (.trap cause code addr v dz cost)) :
    instrOut x k body s = .next (trapped x k cause code addr (if cause == 11 then (eng s x.engine).pc + 4 else savedPc (eng s x.engine)) v dz cost s) := by
  obtain ⟨h1, h2, h3, h4⟩ := h
  have hb' : body { s := s } = .error (.trap cause code addr v dz cost) := hb
  simp [instrOut, onlyIf, h1, runInstr, h2, h3, h4, hb', trapped]

/-- A fetched instruction that waits changes nothing. -/
theorem instrOut_hold {s : State} {x : Issue} {k : Kind} {body : EngM After}
    (h : Fetched s x k) (hb : body (start s) = .error .hold) : instrOut x k body s = .next s := by
  obtain ⟨h1, h2, h3, h4⟩ := h
  have hb' : body { s := s } = .error .hold := hb
  simp [instrOut, onlyIf, h1, runInstr, h2, h3, h4, hb']

/-- A fetched instruction that needs host memory sends its read and waits (R391). -/
theorem instrOut_send {s : State} {x : Issue} {k : Kind} {body : EngM After} {keep addr len : Nat} {line : Bool}
    (h : Fetched s x k) (hb : body (start s) = .error (.send keep line addr len)) :
    instrOut x k body s = .next (askHost x.engine keep line addr len s) := by
  obtain ⟨h1, h2, h3, h4⟩ := h
  have hb' : body { s := s } = .error (.send keep line addr len) := hb
  simp [instrOut, onlyIf, h1, runInstr, h2, h3, h4, hb']

/-! ### Instructions as computations, step by step -/

theorem bind_run {α β : Type} (m : EngM α) (f : α → EngM β) (c : Cx) :
    (m >>= f) c = match m c with | .ok (a, c') => f a c' | .error e => .error e := by
  cases h : m c <;> simp [bind, StateT.bind, Except.bind, h]
theorem map_run {α β : Type} (f : α → β) (m : EngM α) (c : Cx) :
    (f <$> m) c = match m c with | .ok (a, c') => .ok (f a, c') | .error e => .error e := by
  cases h : m c <;> simp [Functor.map, StateT.map, bind, Except.bind, h, pure, Except.pure]
theorem pure_run {α : Type} (a : α) (c : Cx) : (pure a : EngM α) c = .ok (a, c) := rfl
theorem get_run (c : Cx) : (get : EngM Cx) c = .ok (c, c) := rfl
theorem set_run (c' c : Cx) : (set c' : EngM PUnit) c = .ok ((), c') := rfl
theorem getEng_run (e : Nat) (c : Cx) : getEng e c = .ok (eng c.s e, c) := rfl
theorem modEng_run (e : Nat) (f : Eng → Eng) (c : Cx) : modEng e f c = .ok ((), { c with s := setEng e f c.s }) := rfl
theorem modCx_run (f : State → State) (c : Cx) : modCx f c = .ok ((), { c with s := f c.s }) := rfl
theorem addCost_run (f : Cost → Cost) (c : Cx) : addCost f c = .ok ((), { c with cost := f c.cost }) := rfl
theorem trapWith_run {α : Type} (k : Nat) (c : Cx) : (trapWith k : EngM α) c = .error (.trap k 0 none false false c.cost) := rfl
theorem trapAt_run {α : Type} (k a : Nat) (c : Cx) : (trapAt k a : EngM α) c = .error (.trap k 0 (some a) false false c.cost) := rfl
theorem ite_run {α : Type} (p : Prop) [Decidable p] (m n : EngM α) (c : Cx) : (if p then m else n) c = if p then m c else n c := by
  split <;> rfl
theorem updateBase_run (e : Nat) (b : RegCode) (v : Option Word) (c : Cx) :
    updateBase e b v c = .ok ((), based e b v c) := by
  cases v <;> rfl

theorem noteItem_run (l v : Nat) (c : Cx) : noteItem l v c = .ok ((), { c with cost := { c.cost with items := c.cost.items ++ [(l, v)] } }) := rfl
theorem noteInput_run (v : Nat) (c : Cx) : noteInput v c = .ok ((), { c with cost := { c.cost with samples := c.cost.samples ++ [v] } }) := rfl

/-- A register write that the stack limit allows (R345). -/
theorem putReg_ok {e : Nat} {d : RegCode} {v : Word} {c : Cx} (h : d = 3 → (stkLim (eng c.s e)).toNat ≤ v.toNat) :
    putReg e d v c = .ok ((), wrote e d v c) := by
  have : ¬ (d = 3 ∧ v.toNat < (stkLim (eng c.s e)).toNat) := by
    rintro ⟨h1, h2⟩
    have := h h1
    omega
  simp [putReg, getEng, bind, StateT.bind, Except.bind, this, wrote]

/-- A register other than SP is always written. -/
theorem putReg_other {e : Nat} {d : RegCode} {v : Word} {c : Cx} (h : d ≠ 3) :
    putReg e d v c = .ok ((), wrote e d v c) := putReg_ok fun h' => absurd h' h

/-- A move of SP downward that the stack limit allows (R345). -/
theorem lowerSp_ok {e n : Nat} {c : Cx} (h1 : n ≤ (rdReg (eng c.s e) 3).toNat) (h2 : (stkLim (eng c.s e)).toNat ≤ (rdReg (eng c.s e) 3).toNat - n) :
    lowerSp e n c = .ok (BitVec.ofNat 32 ((rdReg (eng c.s e) 3).toNat - n), wrote e 3 (BitVec.ofNat 32 ((rdReg (eng c.s e) 3).toNat - n)) c) := by
  have hb := (rdReg (eng c.s e) 3).isLt
  have hm : (BitVec.ofNat 32 ((rdReg (eng c.s e) 3).toNat - n)).toNat = (rdReg (eng c.s e) 3).toNat - n := by
    simp only [BitVec.toNat_ofNat]; omega
  have h3 : ¬ (rdReg (eng c.s e) 3).toNat < n := by omega
  simp only [lowerSp, bind_run, getEng_run, ite_run, if_neg h3]
  rw [putReg_ok (fun _ => by rw [hm]; exact h2)]
  rfl

/-- The address of an access that R345 and R350 allow. -/
theorem address_ok {x : Issue} {b : RegCode} {m : Amode} {n : Nat} {c : Cx} (h1 : modeOk b m = true)
    (h2 : modeBreaksStack (eng c.s x.engine) b n m = false) : address x b m n c = .ok (modeAddr (eng c.s x.engine) b n m, c) := by
  simp [address, bind_run, getEng_run, h1, h2, pure_run]

/-- An arithmetic result that no trap bars is put (R354). -/
theorem putAlu_ok {e : Nat} {d : RegCode} {r : Alu} {c : Cx} (h : AluFree (eng c.s e) d r) :
    putAlu e d r c = .ok (.next, aluPut e d r c) := by
  obtain ⟨h1, h2, h3⟩ := h
  have hv : ¬ (r.v = true ∧ swBit (eng c.s e) swOvTrap = true) := by
    rintro ⟨a, b⟩
    simp [h1 a] at b
  have hd : ¬ (r.dz = true ∧ swBit (eng c.s e) swDzTrap = true) := by
    rintro ⟨a, b⟩
    simp [h2 a] at b
  cases hc : r.c <;> simp [putAlu, getEng, modEng, bind, StateT.bind, Except.bind, hv, hd, putReg_ok h3, aluPut, hc, pure, StateT.pure, Except.pure] <;>
    (congr 1; funext g; simp [aluFlags, hc])

/-- A register instruction with one or two sources completes. -/
theorem binOp_ok {fn : Nat} {s : State} {x : Issue} {d r t : RegCode} {f : Bool → Word → Word → Alu} (h : Fetched s x (binKind fn d r t))
    (hf : AluFree (eng s x.engine) d (f (swBit (eng s x.engine) swC) (rdReg (eng s x.engine) r) (rdReg (eng s x.engine) t))) :
    binOp fn x d r t f s = .next (ended x (binKind fn d r t) .next s
      (aluPut x.engine d (f (swBit (eng s x.engine) swC) (rdReg (eng s x.engine) r) (rdReg (eng s x.engine) t)) (start s))) :=
  instrOut_ok h (putAlu_ok (c := start s) hf)

theorem unOp_ok {w : Word} {s : State} {x : Issue} {d r : RegCode} {f : Word → Alu} (h : Fetched s x (regKind w [r]))
    (hf : AluFree (eng s x.engine) d (f (rdReg (eng s x.engine) r))) :
    unOp w x d r f s = .next (ended x (regKind w [r]) .next s (aluPut x.engine d (f (rdReg (eng s x.engine) r)) (start s))) :=
  instrOut_ok h (putAlu_ok (c := start s) hf)

theorem mulOp_ok {fn n : Nat} {s : State} {x : Issue} {d r t : RegCode} {f : Word → Word → Alu} (h : Fetched s x (mulKind fn d r t))
    (hf : AluFree (eng s x.engine) d (f (rdReg (eng s x.engine) r) (rdReg (eng s x.engine) t))) :
    mulOp fn n x d r t f s = .next (ended x (mulKind fn d r t) .next s
      (aluPut x.engine d (f (rdReg (eng s x.engine) r) (rdReg (eng s x.engine) t)) { start s with cost := { extra := n - 1, muldiv := n - 1 } })) :=
  instrOut_ok h (putAlu_ok (c := { start s with cost := { extra := n - 1, muldiv := n - 1 } }) hf)

end Sys2Proof.Laws
end

