-- ==== Sys2Proof/Laws/Frames.lean ====
section
/-! SUPPORT. What the shared operations of Machine/Ops.lean can change: for each, the parts of the state beside which it
leaves every part as it is. -/

namespace Sys2Proof.Laws

open Sys2Proof.Machine Sys2Proof.Safety

/-! ### Frames compose -/

theorem same_refl (s : State) : ∀ p : Safety.Part, Same s s p := by
  intro p; cases p <;> first | rfl | exact ⟨rfl, rfl⟩ | exact ⟨rfl, rfl, rfl⟩ | exact fun _ => rfl | exact ⟨rfl, rfl, rfl, rfl, rfl, rfl, rfl, rfl, rfl⟩

theorem same_trans {s t u : State} {p : Safety.Part} (h : Same s t p) (k : Same t u p) : Same s u p := by
  cases p <;> simp only [Same] at h k ⊢ <;> first
    | exact fun n => (k n).trans (h n)
    | exact k.trans h
    | exact ⟨k.1.trans h.1, k.2.trans h.2⟩
    | exact ⟨k.1.trans h.1, k.2.1.trans h.2.1, k.2.2.trans h.2.2⟩
    | (obtain ⟨a1, a2, a3, a4, a5, a6, a7, a8, a9⟩ := h; obtain ⟨b1, b2, b3, b4, b5, b6, b7, b8, b9⟩ := k
       exact ⟨b1.trans a1, b2.trans a2, b3.trans a3, b4.trans a4, b5.trans a5, b6.trans a6, b7.trans a7, b8.trans a8, b9.trans a9⟩)

theorem keeps_refl (may : List Safety.Part) (s : State) : KeepsBut may s s := fun p _ => same_refl s p

theorem keeps_trans {may : List Safety.Part} {s t u : State} (h : KeepsBut may s t) (k : KeepsBut may t u) : KeepsBut may s u :=
  fun p hp => same_trans (h p hp) (k p hp)

theorem keeps_mono {a b : List Safety.Part} {s t : State} (h : KeepsBut a s t) (hs : ∀ p ∈ a, p ∈ b) : KeepsBut b s t :=
  fun p hp => h p fun q => hp (hs p q)

/-- A choice of two changes keeps what both keep. -/
theorem keeps_ite {may : List Safety.Part} {c : Prop} [Decidable c] {s t u : State} (h : c → KeepsBut may s t) (k : ¬ c → KeepsBut may s u) :
    KeepsBut may s (if c then t else u) := by
  split
  · exact h ‹_›
  · exact k ‹_›

/-- A change made for every member of a list keeps what one keeps. -/
theorem keeps_foldl {α : Type} {may : List Safety.Part} {f : State → α → State} (h : ∀ s a, KeepsBut may s (f s a)) :
    ∀ (l : List α) (s : State), KeepsBut may s (l.foldl f s)
  | [], s => keeps_refl may s
  | a :: l, s => keeps_trans (h s a) (keeps_foldl h l (f s a))

theorem onlyIf_keeps {may : List Safety.Part} {c : Bool} {f : State → State} (s : State) (h : c = true → KeepsBut may s (f s)) :
    KeepsBut may s (onlyIf c f s) := keeps_ite h fun _ => keeps_refl may s

theorem whenOn_keeps {may : List Safety.Part} {f : State → State} (s : State) (h : s.pw.dieOn = true → KeepsBut may s (f s)) :
    KeepsBut may s (whenOn f s) := onlyIf_keeps s h

/-! ### One block changed -/

theorem takeFree_keeps (w : Nat) (s : State) : KeepsBut [] s ((takeFree w s).2) := by
  intro p hp; cases p <;> first | rfl | exact ⟨rfl, rfl⟩ | exact ⟨rfl, rfl, rfl⟩ | exact fun _ => rfl | exact ⟨rfl, rfl, rfl, rfl, rfl, rfl, rfl, rfl, rfl⟩ | exact absurd (by decide) hp

theorem modHost_keeps (f : HostSt → HostSt) (s : State) : KeepsBut [] s (modHost f s) := by
  intro p hp; cases p <;> first | rfl | exact ⟨rfl, rfl⟩ | exact ⟨rfl, rfl, rfl⟩ | exact fun _ => rfl | exact ⟨rfl, rfl, rfl, rfl, rfl, rfl, rfl, rfl, rfl⟩ | exact absurd (by decide) hp

theorem modStg_keeps (f : StageSt → StageSt) (s : State) : KeepsBut [.stg] s (modStg f s) := by
  intro p hp; cases p <;> first | rfl | exact ⟨rfl, rfl⟩ | exact ⟨rfl, rfl, rfl⟩ | exact fun _ => rfl | exact ⟨rfl, rfl, rfl, rfl, rfl, rfl, rfl, rfl, rfl⟩ | exact absurd (by decide) hp

theorem modFlt_keeps (f : FaultSt → FaultSt) (s : State) : KeepsBut [.flt] s (modFlt f s) := by
  intro p hp; cases p <;> first | rfl | exact ⟨rfl, rfl⟩ | exact ⟨rfl, rfl, rfl⟩ | exact fun _ => rfl | exact ⟨rfl, rfl, rfl, rfl, rfl, rfl, rfl, rfl, rfl⟩ | exact absurd (by decide) hp

theorem modPw_keeps (f : PowerSt → PowerSt) (s : State) : KeepsBut [.pw] s (modPw f s) := by
  intro p hp; cases p <;> first | rfl | exact ⟨rfl, rfl⟩ | exact ⟨rfl, rfl, rfl⟩ | exact fun _ => rfl | exact ⟨rfl, rfl, rfl, rfl, rfl, rfl, rfl, rfl, rfl⟩ | exact absurd (by decide) hp

theorem modHw_keeps (f : HeartSt → HeartSt) (s : State) : KeepsBut [.hw] s (modHw f s) := by
  intro p hp; cases p <;> first | rfl | exact ⟨rfl, rfl⟩ | exact ⟨rfl, rfl, rfl⟩ | exact fun _ => rfl | exact ⟨rfl, rfl, rfl, rfl, rfl, rfl, rfl, rfl, rfl⟩ | exact absurd (by decide) hp

theorem modUpd_keeps (f : UpdSt → UpdSt) (s : State) : KeepsBut [.upd] s (modUpd f s) := by
  intro p hp; cases p <;> first | rfl | exact ⟨rfl, rfl⟩ | exact ⟨rfl, rfl, rfl⟩ | exact fun _ => rfl | exact ⟨rfl, rfl, rfl, rfl, rfl, rfl, rfl, rfl, rfl⟩ | exact absurd (by decide) hp

theorem setRing_keeps (n : Fin 64) (f : Ring → Ring) (s : State) : KeepsBut [.records] s (setRing n f s) := by
  intro p hp; cases p <;> first | rfl | exact ⟨rfl, rfl⟩ | exact ⟨rfl, rfl, rfl⟩ | exact fun _ => rfl | exact ⟨rfl, rfl, rfl, rfl, rfl, rfl, rfl, rfl, rfl⟩ | exact absurd (by decide) hp

theorem fabCount_keeps (p : Port) (m a b w : Nat) (e : Bool) (s : State) : KeepsBut [] s (fabCount p m a b w e s) := by
  intro p hp; cases p <;> first | rfl | exact ⟨rfl, rfl⟩ | exact ⟨rfl, rfl, rfl⟩ | exact fun _ => rfl | exact ⟨rfl, rfl, rfl, rfl, rfl, rfl, rfl, rfl, rfl⟩ | exact absurd (by decide) hp

theorem fabAccess_keeps (p : Port) (m a b : Nat) (s : State) : KeepsBut [] s (fabAccess p m a b s) := fabCount_keeps _ _ _ _ _ _ _

theorem toPrograms_keeps (r : Record) (s : State) : KeepsBut [.records] s (toPrograms r s) := by
  intro p hp; cases p <;> first | rfl | exact ⟨rfl, rfl⟩ | exact ⟨rfl, rfl, rfl⟩ | exact fun _ => rfl | exact ⟨rfl, rfl, rfl, rfl, rfl, rfl, rfl, rfl, rfl⟩ | exact absurd (by decide) hp

theorem hwPut_keeps (type : Nat) (payload : List Byte) (reports : List Report) (session : Option Nat) (injected : Bool) (s : State) : KeepsBut [.hw] s (hwPut type payload reports s session injected) := by
  intro p hp; cases p <;> first | rfl | exact ⟨rfl, rfl⟩ | exact ⟨rfl, rfl, rfl⟩ | exact fun _ => rfl | exact ⟨rfl, rfl, rfl, rfl, rfl, rfl, rfl, rfl, rfl⟩ | exact absurd (by decide) hp

theorem startRun_keeps (d : Desc) (s : State) : KeepsBut [.records] s (startRun d s) := by
  intro p hp; cases p <;> first | rfl | exact ⟨rfl, rfl⟩ | exact ⟨rfl, rfl, rfl⟩ | exact fun _ => rfl | exact ⟨rfl, rfl, rfl, rfl, rfl, rfl, rfl, rfl, rfl⟩ | exact absurd (by decide) hp

/-- One element of an array changed by number. -/
theorem getElem_updN {α : Type} {n : Nat} (v : Vector α n) (x : Nat) (f : α → α) (i : Fin n) :
    (updN v x f)[i] = if x = i.val then f v[i] else v[i] := by
  unfold updN
  by_cases h : x < n
  · by_cases e : x = i.val
    · subst e; simp
    · simp [h, e]
  · have : x ≠ i.val := fun e => h (e ▸ i.isLt)
    simp [h, this]

/-- Starting the idle time of a session anew is no change of its view. -/
theorem touchSession_keeps (n : Nat) (s : State) : KeepsBut [] s (touchSession n s) := by
  intro p _
  cases p <;> first | rfl | exact ⟨rfl, rfl⟩ | exact ⟨rfl, rfl, rfl⟩ | exact ⟨rfl, rfl, rfl, rfl, rfl, rfl, rfl, rfl, rfl⟩ | skip
  intro m
  have h := getElem_updN s.ses n (fun x => { x with lastNamed := s.dt }) m
  change sesView (updN s.ses n fun x => { x with lastNamed := s.dt })[m] = _
  rw [h]
  split <;> rfl

theorem popHead_keeps (o : Origin) (s : State) : KeepsBut [.records] s (popHead o s) := by
  cases o with
  | ring n => exact setRing_keeps n _ s
  | engine e => intro p hp; cases p <;> first | rfl | exact ⟨rfl, rfl⟩ | exact ⟨rfl, rfl, rfl⟩ | exact fun _ => rfl | exact absurd (by decide) hp
  | diag => intro p hp; cases p <;> first | rfl | exact ⟨rfl, rfl⟩ | exact ⟨rfl, rfl, rfl⟩ | exact fun _ => rfl | exact absurd (by decide) hp

/-! ### Raising, sending, recording -/

/-- A raise touches the fault collection alone (R411, R412, R451). -/
theorem raise_keeps (src target : Nat) (s : State) : KeepsBut [.flt] s (raise src target s) := by
  unfold raise
  repeat' split
  all_goals
    intro p hp; cases p <;> first | rfl | exact ⟨rfl, rfl⟩ | exact ⟨rfl, rfl, rfl⟩ | exact fun _ => rfl | exact ⟨rfl, rfl, rfl, rfl, rfl, rfl, rfl, rfl, rfl⟩ | exact absurd (by decide) hp

/-- A count of what was lost is no change of a part. -/
theorem countLost_keeps (s : State) : KeepsBut [] s (countLost s) := modHost_keeps (fun h => { h with lost := w32 (h.lost + 1) }) s

/-- What leaves toward the host touches the list of what was sent, or the counts of what was lost (R401, R404). -/
theorem toHost_keeps (o : LinkOut) (s : State) : KeepsBut [.records] s (toHost o s) := by
  unfold toHost
  split
  · intro p hp; cases p <;> first | rfl | exact ⟨rfl, rfl⟩ | exact ⟨rfl, rfl, rfl⟩ | exact fun _ => rfl | exact absurd (by decide) hp
  · cases o with
    | record r i _ _ => exact keeps_mono (modHost_keeps (fun h => { h with lost := w32 (h.lost + 1), firstLost := h.firstLost <|> some (r, i) }) s) nofun
    | shadow => exact keeps_mono (countLost_keeps s) nofun
    | msix => exact keeps_mono (countLost_keeps s) nofun
    | _ => exact keeps_refl _ s

theorem sendVector_keeps (v : Nat) (s : State) : KeepsBut [.records] s (sendVector v s) := by
  unfold sendVector
  repeat' split
  all_goals first
    | exact toHost_keeps _ s
    | (intro p hp; cases p <;> first | rfl | exact ⟨rfl, rfl⟩ | exact ⟨rfl, rfl, rfl⟩ | exact fun _ => rfl | exact ⟨rfl, rfl, rfl, rfl, rfl, rfl, rfl, rfl, rfl⟩)

theorem sramWrite_keeps (m : Mem) (s : State) : KeepsBut [.records] s { s with sram := m } := by
  intro p hp; cases p <;> first | rfl | exact ⟨rfl, rfl⟩ | exact ⟨rfl, rfl, rfl⟩ | exact fun _ => rfl | exact absurd (by decide) hp

theorem ringWrite_keeps (o : LinkOut) (a : Nat) (b : List Byte) (s : State) : KeepsBut [.records] s (ringWrite o a b s) := by
  unfold ringWrite
  split
  · exact keeps_trans (sramWrite_keeps _ s) (keeps_mono (fabAccess_keeps _ _ _ _ _) nofun)
  · exact toHost_keeps o s

/-- Data for host memory touch what is sent (R400). -/
theorem dataOut_keeps : ∀ (n a : Nat) (b : List Byte) (s : State), KeepsBut [.records] s (dataOut n a b s)
  | 0, _, _, s => keeps_refl _ s
  | n + 1, a, b, s => by
    unfold dataOut
    exact keeps_ite (fun _ => toHost_keeps _ s) fun _ => keeps_trans (toHost_keeps _ s) (dataOut_keeps n _ _ _)

theorem toBuffer_keeps (host : Bool) (a : Nat) (b : List Byte) (s : State) : KeepsBut [.records] s (toBuffer host a b s) := by
  unfold toBuffer
  exact keeps_ite (fun _ => dataOut_keeps _ _ _ s) fun _ => keeps_trans (sramWrite_keeps _ s) (keeps_mono (fabAccess_keeps _ _ _ _ _) nofun)

theorem signalRing_keeps (n : Fin 64) (s : State) : KeepsBut [.records] s (signalRing n s) :=
  keeps_trans (setRing_keeps n _ s) (sendVector_keeps _ _)

/-- A record written touches rings and what is sent (R46). -/
theorem putRecord_keeps (n : Fin 64) (r : Record) (irq : Bool) (s : State) : KeepsBut [.records] s (putRecord n r irq s) := by
  have base : ∀ (o : LinkOut) (a : Nat) (b : List Byte) (f : Ring → Ring), KeepsBut [.records] s (setRing n f (ringWrite o a b s)) :=
    fun o a b f => keeps_trans (ringWrite_keeps o a b s) (setRing_keeps n f _)
  unfold putRecord
  dsimp only
  refine keeps_ite (fun _ => keeps_trans ?_ (signalRing_keeps n _)) fun _ => ?_
  all_goals exact keeps_ite (fun _ => base _ _ _ _) fun _ => keeps_trans (base _ _ _ _) (ringWrite_keeps _ _ _ _)

theorem flushDrops_keeps (n : Fin 64) (s : State) : KeepsBut [.records] s (flushDrops n s) := by
  unfold flushDrops
  exact keeps_ite (fun _ => keeps_trans (putRecord_keeps _ _ _ _) (setRing_keeps _ _ _)) fun _ => keeps_refl _ _

theorem rings_keeps (v : Vector Ring 64) (s : State) : KeepsBut [.records] s { s with rings := v } := by
  intro p hp; cases p <;> first | rfl | exact ⟨rfl, rfl⟩ | exact ⟨rfl, rfl, rfl⟩ | exact fun _ => rfl | exact absurd (by decide) hp

theorem watchStalls_keeps (s : State) : KeepsBut [.records] s (watchStalls s) := by
  unfold watchStalls
  exact keeps_ite (fun _ => rings_keeps _ s) fun _ => keeps_refl _ s

/-- An event touches rings, what is sent and what is on its way to engines (R44, R48, R362). -/
theorem emitAt_keeps (ring code target d1 d2 time : Nat) (tsRt : Bool) (s : State) :
    KeepsBut [.records] s (emitAt ring code target d1 d2 time tsRt s) := by
  unfold emitAt
  refine keeps_trans ?_ (toPrograms_keeps _ _)
  split
  · exact keeps_refl _ _
  · exact keeps_ite (fun _ => keeps_trans (putRecord_keeps _ _ _ _) (watchStalls_keeps _)) fun _ => setRing_keeps _ _ _

theorem emit_keeps (ring code target d1 d2 : Nat) (s : State) : KeepsBut [.records] s (emit ring code target d1 d2 s) :=
  emitAt_keeps _ _ _ _ _ _ _ s

theorem emitOnAt_keeps (die : Die) (ring code target d1 d2 time : Nat) (tsRt : Bool) (s : State) :
    KeepsBut [.records] s (emitOnAt die ring code target d1 d2 time tsRt s) := by
  unfold emitOnAt
  split
  · intro p hp; cases p <;> first | rfl | exact ⟨rfl, rfl⟩ | exact ⟨rfl, rfl, rfl⟩ | exact fun _ => rfl | exact ⟨rfl, rfl, rfl, rfl, rfl, rfl, rfl, rfl, rfl⟩
  · exact emitAt_keeps _ _ _ _ _ _ _ s

theorem emitOn_keeps (die : Die) (ring code target d1 d2 : Nat) (s : State) : KeepsBut [.records] s (emitOn die ring code target d1 d2 s) :=
  emitOnAt_keeps _ _ _ _ _ _ _ _ s

/-! ### Descriptors -/

/-- What is on its way to engines, and the answer to a tester, are among the records. -/
theorem transit_keeps (l : List Inbound) (s : State) : KeepsBut [.records] s { s with transit := l } := by
  intro p hp; cases p <;> first | rfl | exact ⟨rfl, rfl⟩ | exact ⟨rfl, rfl, rfl⟩ | exact fun _ => rfl | exact absurd (by decide) hp
theorem diagAnswer_keeps (a : Option (List Byte)) (s : State) : KeepsBut [.records] s { s with diagAnswer := a } := by
  intro p hp; cases p <;> first | rfl | exact ⟨rfl, rfl⟩ | exact ⟨rfl, rfl, rfl⟩ | exact fun _ => rfl | exact absurd (by decide) hp

theorem writeCompletion_keeps (d : Desc) (x : Done) (s : State) : KeepsBut [.records] s (writeCompletion d x s) := by
  unfold writeCompletion
  dsimp only
  split
  · split
    · exact keeps_refl _ _
    · exact keeps_trans (setRing_keeps _ _ _) (keeps_trans (putRecord_keeps _ _ _ _) (watchStalls_keeps _))
  · exact keeps_ite (fun _ => keeps_refl _ _) fun _ => transit_keeps _ _
  · exact diagAnswer_keeps _ _

theorem started_keeps (l : List Run) (s : State) : KeepsBut [.records] s { s with started := l } := by
  intro p hp; cases p <;> first | rfl | exact ⟨rfl, rfl⟩ | exact ⟨rfl, rfl, rfl⟩ | exact fun _ => rfl | exact absurd (by decide) hp

/-- Completions touch rings, started descriptors and what is on its way (R42). -/
theorem settle_keeps (s : State) : KeepsBut [.records] s (settle s) :=
  keeps_trans (started_keeps _ s) (keeps_foldl (fun s (x : Desc × Done) => writeCompletion_keeps x.1 x.2 s) _ _)

theorem finish_keeps (uid status result : Nat) (s : State) : KeepsBut [.records] s (finish uid status result s) :=
  keeps_trans (started_keeps _ s) (settle_keeps _)

theorem finishGated_keeps (uid status result : Nat) (s : State) : KeepsBut [.records] s (finishGated uid status result s) :=
  keeps_trans (started_keeps _ s) (settle_keeps _)

theorem finishFree_keeps (uid status : Nat) (s : State) : KeepsBut [.records] s (finishFree uid status s) :=
  keeps_trans (keeps_mono (takeFree_keeps 64 s) nofun) (finish_keeps _ _ _ _)

theorem finishRecorded_keeps (type : Nat) (payload : List Byte) (session : Option Nat) (uid status result : Nat) (s : State) :
    KeepsBut [.hw, .records] s (finishRecorded type payload session uid status result s) :=
  keeps_trans (keeps_mono (hwPut_keeps type payload _ session false s) (by decide)) (keeps_mono (finishGated_keeps _ _ _ _) (by decide))

/-- Retiring unknown opcodes touches descriptors and records (R39, R40). -/
theorem retireUnknown_keeps (o : Origin) : ∀ (n : Nat) (s : State), KeepsBut [.records] s (retireUnknown o n s)
  | 0, s => keeps_refl _ s
  | n + 1, s => by
    unfold retireUnknown
    split
    · exact keeps_refl _ _
    · exact keeps_ite (fun _ => keeps_refl _ _) fun _ =>
        keeps_trans (keeps_trans (popHead_keeps o s) (keeps_trans (startRun_keeps _ _) (finishFree_keeps _ _ _))) (retireUnknown_keeps o n _)

/-- A descriptor operation touches descriptors and records, and what its effect touches (R40). -/
theorem runOp_keeps {may : List Safety.Part} (o : Origin) (op : Nat) (form : State → Desc → OpForm) {eff : Desc → Nat → State → State}
    (hr : .records ∈ may) (h : ∀ d uid s, KeepsBut may s (eff d uid s)) (s : State) : KeepsBut may s (runOp o op form eff s) := by
  have up : ∀ {s t : State}, KeepsBut [.records] s t → KeepsBut may s t := fun k => keeps_mono k fun p hp => by
    rw [List.mem_singleton.1 hp]; exact hr
  have named : ∀ (c : Bool) (n : Nat) (s : State), KeepsBut may s (if c = true then touchSession n s else s) := fun c n s =>
    keeps_ite (fun _ => keeps_mono (touchSession_keeps n s) nofun) fun _ => keeps_refl _ _
  unfold runOp
  refine keeps_trans (up (retireUnknown_keeps o pipeMax s)) ?_
  dsimp only
  split
  · exact keeps_refl _ _
  · refine keeps_ite (fun _ => keeps_refl _ _) fun _ => keeps_trans ?_ (up (retireUnknown_keeps o pipeMax _))
    split
    · exact keeps_trans (keeps_trans (up (popHead_keeps o _)) (up (startRun_keeps _ _))) (keeps_trans (named _ _ _) (up (finishFree_keeps _ _ _)))
    · exact keeps_trans (keeps_trans (up (popHead_keeps o _)) (up (startRun_keeps _ _))) (keeps_trans (named _ _ _) (h _ _ _))

/-- The same of its meaning. -/
theorem runOut_keeps {may : List Safety.Part} (o : Origin) (op : Nat) (form : State → Desc → OpForm) {eff : Desc → Nat → State → State}
    (hr : .records ∈ may) (h : ∀ d uid s, KeepsBut may s (eff d uid s)) {s t : State} (e : runOut o op form eff s = .next t) :
    KeepsBut may s t := by
  unfold runOut at e
  injection e with e
  subst e
  exact whenOn_keeps s fun _ => runOp_keeps o op form hr h s

end Sys2Proof.Laws
end

