-- ==== Sys2Proof/Laws/Memory.lean ====
section
/-! SUPPORT. Memories: what is read after a write, and that every operation keeps the canonical form. -/

namespace Sys2Proof.Laws

open Sys2Proof.Machine

/-- The form allows every lower bound below the one it has. -/
theorem memWfFrom_mono {lo hi : Nat} {m : Mem} (h : lo ≤ hi) (w : memWfFrom hi m = true) : memWfFrom lo m = true := by
  cases m with
  | nil => rfl
  | cons c m =>
    simp only [memWfFrom, Bool.and_eq_true, decide_eq_true_eq] at w ⊢
    exact ⟨⟨Nat.le_trans h w.1.1, w.1.2⟩, w.2⟩

/-- Below its first address a memory reads 0. -/
theorem memRead_below {lo : Nat} : ∀ {m : Mem} {a : Nat}, memWfFrom lo m = true → a < lo → memRead m a = 0
  | [], _, _, _ => rfl
  | (k, v) :: m, a, w, h => by
    simp only [memWfFrom, Bool.and_eq_true, decide_eq_true_eq] at w
    have : (k == a) = false := by simp; omega
    simp only [memRead, this, Bool.false_eq_true, if_false]
    exact memRead_below w.2 (by omega)

/-- A cell put before a memory, unless it holds 0. -/
theorem put_wfFrom {lo a : Nat} {m : Mem} (b : Byte) (w : memWfFrom (a + 1) m = true) (h : lo ≤ a) :
    memWfFrom lo (if b == 0 then m else (a, b) :: m) = true := by
  cases e : b == 0
  · simp only [Bool.false_eq_true, if_false, memWfFrom, Bool.and_eq_true, decide_eq_true_eq, bne, e, Bool.not_false]
    exact ⟨⟨h, trivial⟩, w⟩
  · simp only [if_true]; exact memWfFrom_mono (by omega) w

theorem read_put {a : Nat} {m : Mem} (b : Byte) (x : Nat) (w : memWfFrom (a + 1) m = true) :
    memRead (if b == 0 then m else (a, b) :: m) x = if x = a then b else memRead m x := by
  cases e : b == 0
  · simp only [Bool.false_eq_true, if_false, memRead]
    by_cases f : x = a
    · simp [f]
    · have : ¬ a = x := fun g => f g.symm
      simp [f, this]
  · simp only [if_true]
    by_cases f : x = a
    · rw [if_pos f, memRead_below w (by omega)]; exact (beq_iff_eq.mp e).symm
    · rw [if_neg f]

/-- A write keeps the form. -/
theorem memWrite_wfFrom {lo : Nat} : ∀ {m : Mem} (a : Nat) (b : Byte), memWfFrom lo m = true → lo ≤ a → memWfFrom lo (memWrite m a b) = true
  | [], a, b, _, h => put_wfFrom b rfl h
  | (k, v) :: m, a, b, w, h => by
    have w' := w
    simp only [memWfFrom, Bool.and_eq_true, decide_eq_true_eq] at w'
    unfold memWrite
    split
    · exact put_wfFrom b (by simp only [memWfFrom, Bool.and_eq_true, decide_eq_true_eq]; exact ⟨⟨by omega, w'.1.2⟩, w'.2⟩) h
    · split
      · rename_i hk
        rw [← (beq_iff_eq.mp hk)] at w'
        exact put_wfFrom b w'.2 h
      · rename_i h1 h2
        have : a ≠ k := by simpa using h2
        simp only [memWfFrom, Bool.and_eq_true, decide_eq_true_eq]
        exact ⟨w'.1, memWrite_wfFrom a b w'.2 (by omega)⟩

theorem memWrite_wf {m : Mem} (a : Nat) (b : Byte) (w : memWf m = true) : memWf (memWrite m a b) = true := memWrite_wfFrom a b w (Nat.zero_le a)

/-- A read after a write of one byte. -/
theorem memRead_memWriteFrom {lo : Nat} : ∀ {m : Mem} (a : Nat) (b : Byte) (x : Nat), memWfFrom lo m = true →
    memRead (memWrite m a b) x = if x = a then b else memRead m x
  | [], a, b, x, _ => read_put b x rfl
  | (k, v) :: m, a, b, x, w => by
    have w' := w
    simp only [memWfFrom, Bool.and_eq_true, decide_eq_true_eq] at w'
    unfold memWrite
    split
    · exact read_put b x (by simp only [memWfFrom, Bool.and_eq_true, decide_eq_true_eq]; exact ⟨⟨by omega, w'.1.2⟩, w'.2⟩)
    · split
      · rename_i hk
        have hk := beq_iff_eq.mp hk
        subst hk
        rw [read_put b x w'.2]
        by_cases f : x = a
        · rw [if_pos f, if_pos f]
        · have : (a == x) = false := by simp; omega
          simp [f, memRead, this]
      · rename_i h1 h2
        have hak : ¬ a = k := by simpa using h2
        simp only [memRead]
        by_cases f : k = x
        · subst f
          have : ¬ k = a := fun g => hak g.symm
          simp [this]
        · simp [f, memRead_memWriteFrom a b x w'.2]

theorem memRead_memWrite {m : Mem} (a : Nat) (b : Byte) (x : Nat) (w : memWf m = true) :
    memRead (memWrite m a b) x = if x = a then b else memRead m x := memRead_memWriteFrom a b x w

/-- A write of consecutive bytes keeps the form. -/
theorem memWriteL_wf : ∀ {m : Mem} (a : Nat) (bs : List Byte), memWf m = true → memWf (memWriteL m a bs) = true
  | _, _, [], w => w
  | _, a, b :: bs, w => memWriteL_wf (a + 1) bs (memWrite_wf a b w)

/-- A read after a write of consecutive bytes: inside it the byte written, outside it what was there. -/
theorem memRead_memWriteL : ∀ {m : Mem} (a : Nat) (bs : List Byte) (x : Nat), memWf m = true →
    memRead (memWriteL m a bs) x = if a ≤ x ∧ x < a + bs.length then bs.getD (x - a) 0 else memRead m x
  | m, a, [], x, _ => by
    rw [memWriteL, if_neg fun h => by have := h.1; have := h.2; simp only [List.length_nil] at *; omega]
  | m, a, b :: bs, x, w => by
    rw [memWriteL, memRead_memWriteL (a + 1) bs x (memWrite_wf a b w), memRead_memWrite a b x w, List.length_cons]
    by_cases h : a + 1 ≤ x ∧ x < a + 1 + bs.length
    · obtain ⟨k, hk⟩ : ∃ k, x - a = k + 1 := ⟨x - a - 1, by omega⟩
      have : x - (a + 1) = k := by omega
      rw [if_pos h, if_pos (by omega), hk, this]; rfl
    · rw [if_neg h]
      by_cases e : x = a
      · subst e; simp
      · rw [if_neg e, if_neg (by omega)]

/-- Bytes outside a write stay. -/
theorem memRead_memWriteL_outside {m : Mem} {a x : Nat} {bs : List Byte} (w : memWf m = true) (h : x < a ∨ a + bs.length ≤ x) :
    memRead (memWriteL m a bs) x = memRead m x := by rw [memRead_memWriteL a bs x w, if_neg (by omega)]

theorem memBytes_length (m : Mem) : ∀ (n a : Nat), (memBytes m a n).length = n
  | 0, _ => rfl
  | n + 1, a => by simp [memBytes, memBytes_length m n]

theorem leBytes_length : ∀ (n v : Nat), (leBytes n v).length = n
  | 0, _ => rfl
  | n + 1, v => by simp [leBytes, leBytes_length n]

/-- Consecutive bytes read as written. -/
theorem memBytes_memWriteL {m : Mem} (w : memWf m = true) : ∀ (a : Nat) (bs : List Byte), memBytes (memWriteL m a bs) a bs.length = bs := by
  intro a bs
  refine List.ext_getElem (memBytes_length _ _ _) fun i h1 h2 => ?_
  have key : ∀ (n a i : Nat) (h : i < n), (memBytes (memWriteL m a bs) a n)[i]'(by rw [memBytes_length]; exact h) = memRead (memWriteL m a bs) (a + i) := by
    intro n
    suffices ∀ (p : Mem) (n a i : Nat) (h : i < n), (memBytes p a n)[i]'(by rw [memBytes_length]; exact h) = memRead p (a + i) from
      fun a i h => this _ n a i h
    intro p n
    induction n with
    | zero => intro a i h; exact absurd h (Nat.not_lt_zero i)
    | succ n ih =>
      intro a i h
      cases i with
      | zero => simp [memBytes]
      | succ i => simp only [memBytes, List.getElem_cons_succ]; rw [ih (a + 1) i (by omega)]; congr 1; omega
  rw [key bs.length a i h2, memRead_memWriteL a bs _ w, if_pos (by omega)]
  simp [h2]

theorem ofLe_leBytes : ∀ (n v : Nat), ofLe (leBytes n v) = v % 2 ^ (8 * n)
  | 0, v => by simp [leBytes, ofLe, Nat.mod_one]
  | n + 1, v => by
    simp only [leBytes, ofLe, ofLe_leBytes n (v / 256), BitVec.toNat_ofNat]
    have : 2 ^ (8 * (n + 1)) = 256 * 2 ^ (8 * n) := by rw [show 8 * (n + 1) = 8 * n + 8 from rfl, Nat.pow_add, Nat.mul_comm]
    rw [this, Nat.mod_mul]

/-- A number read back from where its bytes were written. -/
theorem memLe_memWriteL {m : Mem} (w : memWf m = true) (a n v : Nat) : memLe (memWriteL m a (leBytes n v)) a n = v % 2 ^ (8 * n) := by
  have := memBytes_memWriteL w a (leBytes n v)
  rw [leBytes_length] at this
  rw [memLe, this, ofLe_leBytes]

/-- Leaving cells out keeps the form. -/
theorem filter_wfFrom (p : Nat × Byte → Bool) {lo : Nat} : ∀ {m : Mem}, memWfFrom lo m = true → memWfFrom lo (m.filter p) = true
  | [], _ => rfl
  | (k, v) :: m, w => by
    simp only [memWfFrom, Bool.and_eq_true, decide_eq_true_eq] at w
    have ih := filter_wfFrom p (lo := k + 1) w.2
    by_cases h : p (k, v) = true
    · rw [List.filter_cons, if_pos h]
      simp only [memWfFrom, Bool.and_eq_true, decide_eq_true_eq]
      exact ⟨w.1, ih⟩
    · simp only [List.filter_cons, h, Bool.false_eq_true, if_false]; exact memWfFrom_mono (by omega) ih

theorem memErase_wf {m : Mem} (a n : Nat) (w : memWf m = true) : memWf (memErase m a n) = true := filter_wfFrom _ w

/-- A run of bytes moved keeps the form. -/
theorem memSlice_wfFrom {a n d : Nat} : ∀ {m : Mem} {lo : Nat}, memWfFrom lo m = true → memWfFrom (lo - a + d) (memSlice m a n d) = true
  | [], _, _ => rfl
  | (k, v) :: m, lo, w => by
    simp only [memWfFrom, Bool.and_eq_true, decide_eq_true_eq] at w
    have ih := memSlice_wfFrom (a := a) (n := n) (d := d) w.2
    unfold memSlice at ih ⊢
    by_cases h : (decide (a ≤ k) && decide (k < a + n)) = true
    · rw [List.filter_cons, if_pos h, List.map_cons]
      simp only [Bool.and_eq_true, decide_eq_true_eq] at h
      simp only [memWfFrom, Bool.and_eq_true, decide_eq_true_eq]
      exact ⟨⟨by omega, w.1.2⟩, memWfFrom_mono (by omega) ih⟩
    · rw [List.filter_cons, if_neg h]; exact memWfFrom_mono (by omega) ih

theorem memSlice_wf {m : Mem} (a n d : Nat) (w : memWf m = true) : memWfFrom d (memSlice m a n d) = true :=
  memWfFrom_mono (by omega) (memSlice_wfFrom w)

/-- Cells of a moved run lie below its end. -/
theorem memSlice_below {m : Mem} {a n d : Nat} : ∀ c ∈ memSlice m a n d, c.1 < d + n := by
  intro c h
  simp only [memSlice, List.mem_map, List.mem_filter, Bool.and_eq_true, decide_eq_true_eq] at h
  obtain ⟨x, ⟨-, h1, h2⟩, rfl⟩ := h
  show x.1 - a + d < d + n
  omega

/-- One memory before another. -/
theorem append_wfFrom {lo mid : Nat} : ∀ {p q : Mem}, memWfFrom lo p = true → (∀ c ∈ p, c.1 < mid) → memWfFrom mid q = true → lo ≤ mid → memWfFrom lo (p ++ q) = true
  | [], _, _, _, wq, h => memWfFrom_mono h wq
  | (k, v) :: p, q, wp, hp, wq, h => by
    simp only [memWfFrom, Bool.and_eq_true, decide_eq_true_eq] at wp
    have hk := hp (k, v) (List.mem_cons_self ..)
    rw [List.cons_append]
    simp only [memWfFrom, Bool.and_eq_true, decide_eq_true_eq]
    exact ⟨wp.1, append_wfFrom wp.2 (fun c hc => hp c (List.mem_cons_of_mem _ hc)) wq hk⟩

/-- Cells left from an address on start there. -/
theorem filter_from {x : Nat} : ∀ {m : Mem} {lo : Nat}, memWfFrom lo m = true → memWfFrom x (m.filter fun c => x ≤ c.1) = true
  | [], _, _ => rfl
  | (k, v) :: m, lo, w => by
    have w' := w
    simp only [memWfFrom, Bool.and_eq_true, decide_eq_true_eq] at w'
    by_cases h : x ≤ k
    · rw [List.filter_cons, if_pos (by simpa using h)]
      simp only [memWfFrom, Bool.and_eq_true, decide_eq_true_eq]
      exact ⟨⟨h, w'.1.2⟩, filter_wfFrom _ w'.2⟩
    · rw [List.filter_cons, if_neg (by simpa using h)]; exact filter_from w'.2

theorem memCopy_wf {m src : Mem} (d a n : Nat) (w : memWf m = true) (ws : memWf src = true) : memWf (memCopy m d src a n) = true := by
  unfold memCopy
  rw [List.append_assoc]
  refine append_wfFrom (mid := d) (filter_wfFrom _ w) (fun c h => ?_) ?_ (Nat.zero_le d)
  · simpa using (List.mem_filter.mp h).2
  · exact append_wfFrom (memSlice_wf a n d ws) memSlice_below (filter_from w) (by omega)

/-- Equal reads are equal memories: the form is canonical. -/
theorem mem_ext {lo : Nat} : ∀ {p q : Mem}, memWfFrom lo p = true → memWfFrom lo q = true → (∀ a, memRead p a = memRead q a) → p = q
  | [], [], _, _, _ => rfl
  | [], (k, v) :: q, _, wq, h => by
    simp only [memWfFrom, Bool.and_eq_true, decide_eq_true_eq] at wq
    have := h k
    simp only [memRead, beq_self_eq_true, if_true] at this
    simp [← this] at wq
  | (k, v) :: p, [], wp, _, h => by
    simp only [memWfFrom, Bool.and_eq_true, decide_eq_true_eq] at wp
    have := h k
    simp only [memRead, beq_self_eq_true, if_true] at this
    simp [this] at wp
  | (k, v) :: p, (l, u) :: q, wp, wq, h => by
    have wp' := wp
    have wq' := wq
    simp only [memWfFrom, Bool.and_eq_true, decide_eq_true_eq, bne_iff_ne, ne_eq] at wp' wq'
    have hk := h k
    have hl := h l
    simp only [memRead, beq_self_eq_true, if_true] at hk hl
    have e : k = l := by
      rcases Nat.lt_trichotomy k l with g | g | g
      · have : (l == k) = false := by simp; omega
        simp only [this, Bool.false_eq_true, if_false] at hk
        exact absurd (hk.trans (memRead_below wq'.2 (by omega))) wp'.1.2
      · exact g
      · have : (k == l) = false := by simp; omega
        simp only [this, Bool.false_eq_true, if_false] at hl
        exact absurd (hl.symm.trans (memRead_below wp'.2 (by omega))) wq'.1.2
    subst e
    simp only [beq_self_eq_true, if_true] at hk
    subst hk
    congr 1
    refine mem_ext wp'.2 wq'.2 fun a => ?_
    have ha := h a
    by_cases g : k = a
    · subst g; rw [memRead_below wp'.2 (by omega), memRead_below wq'.2 (by omega)]
    · simpa [memRead, g] using ha

/-- After reset shared SRAM and MRAM list nothing. -/
theorem reset_sram : State.reset.sram = [] := rfl
theorem reset_mram : State.reset.mram = [] := rfl

end Sys2Proof.Laws
end

