-- ==== Sys2Proof/Laws/State.lean ====
section
/-! SUPPORT. State updates, field by field: what each named update sets, and that it leaves every other field alone. No
proof needs to unfold an update. -/

namespace Sys2Proof.Laws

open Sys2Proof.Machine Sys2Proof.Safety

/-! `setRing` -/

@[simp] theorem setRing_pending (n : Fin 64) (f : Ring → Ring) (s : State) : (setRing n f s).pending = s.pending := rfl
@[simp] theorem setRing_dt (n : Fin 64) (f : Ring → Ring) (s : State) : (setRing n f s).dt = s.dt := rfl
@[simp] theorem setRing_rt (n : Fin 64) (f : Ring → Ring) (s : State) : (setRing n f s).rt = s.rt := rfl
@[simp] theorem setRing_rtPhase (n : Fin 64) (f : Ring → Ring) (s : State) : (setRing n f s).rtPhase = s.rtPhase := rfl
@[simp] theorem setRing_free (n : Fin 64) (f : Ring → Ring) (s : State) : (setRing n f s).free = s.free := rfl
@[simp] theorem setRing_sram (n : Fin 64) (f : Ring → Ring) (s : State) : (setRing n f s).sram = s.sram := rfl
@[simp] theorem setRing_mram (n : Fin 64) (f : Ring → Ring) (s : State) : (setRing n f s).mram = s.mram := rfl
@[simp] theorem setRing_rings (n : Fin 64) (f : Ring → Ring) (s : State) : (setRing n f s).rings = upd s.rings n f := rfl
@[simp] theorem setRing_nextHigh (n : Fin 64) (f : Ring → Ring) (s : State) : (setRing n f s).nextHigh = s.nextHigh := rfl
@[simp] theorem setRing_nextNormal (n : Fin 64) (f : Ring → Ring) (s : State) : (setRing n f s).nextNormal = s.nextNormal := rfl
@[simp] theorem setRing_started (n : Fin 64) (f : Ring → Ring) (s : State) : (setRing n f s).started = s.started := rfl
@[simp] theorem setRing_nextUid (n : Fin 64) (f : Ring → Ring) (s : State) : (setRing n f s).nextUid = s.nextUid := rfl
@[simp] theorem setRing_engPipe (n : Fin 64) (f : Ring → Ring) (s : State) : (setRing n f s).engPipe = s.engPipe := rfl
@[simp] theorem setRing_diagPipe (n : Fin 64) (f : Ring → Ring) (s : State) : (setRing n f s).diagPipe = s.diagPipe := rfl
@[simp] theorem setRing_diagBusy (n : Fin 64) (f : Ring → Ring) (s : State) : (setRing n f s).diagBusy = s.diagBusy := rfl
@[simp] theorem setRing_diagAnswer (n : Fin 64) (f : Ring → Ring) (s : State) : (setRing n f s).diagAnswer = s.diagAnswer := rfl
@[simp] theorem setRing_out (n : Fin 64) (f : Ring → Ring) (s : State) : (setRing n f s).out = s.out := rfl
@[simp] theorem setRing_transit (n : Fin 64) (f : Ring → Ring) (s : State) : (setRing n f s).transit = s.transit := rfl
@[simp] theorem setRing_linkDown (n : Fin 64) (f : Ring → Ring) (s : State) : (setRing n f s).linkDown = s.linkDown := rfl
@[simp] theorem setRing_safeHere (n : Fin 64) (f : Ring → Ring) (s : State) : (setRing n f s).safeHere = s.safeHere := rfl
@[simp] theorem setRing_host (n : Fin 64) (f : Ring → Ring) (s : State) : (setRing n f s).host = s.host := rfl
@[simp] theorem setRing_stg (n : Fin 64) (f : Ring → Ring) (s : State) : (setRing n f s).stg = s.stg := rfl
@[simp] theorem setRing_ses (n : Fin 64) (f : Ring → Ring) (s : State) : (setRing n f s).ses = s.ses := rfl
@[simp] theorem setRing_flt (n : Fin 64) (f : Ring → Ring) (s : State) : (setRing n f s).flt = s.flt := rfl
@[simp] theorem setRing_pw (n : Fin 64) (f : Ring → Ring) (s : State) : (setRing n f s).pw = s.pw := rfl
@[simp] theorem setRing_hw (n : Fin 64) (f : Ring → Ring) (s : State) : (setRing n f s).hw = s.hw := rfl
@[simp] theorem setRing_upd (n : Fin 64) (f : Ring → Ring) (s : State) : (setRing n f s).upd = s.upd := rfl
@[simp] theorem setRing_perf (n : Fin 64) (f : Ring → Ring) (s : State) : (setRing n f s).perf = s.perf := rfl
@[simp] theorem setRing_engInts (n : Fin 64) (f : Ring → Ring) (s : State) : (setRing n f s).engInts = s.engInts := rfl
@[simp] theorem setRing_keys (n : Fin 64) (f : Ring → Ring) (s : State) : (setRing n f s).keys = s.keys := rfl
@[simp] theorem setRing_heldEvents (n : Fin 64) (f : Ring → Ring) (s : State) : (setRing n f s).heldEvents = s.heldEvents := rfl
@[simp] theorem setRing_ld (n : Fin 64) (f : Ring → Ring) (s : State) : (setRing n f s).ld = s.ld := rfl
@[simp] theorem setRing_hbs (n : Fin 64) (f : Ring → Ring) (s : State) : (setRing n f s).hbs = s.hbs := rfl
@[simp] theorem setRing_vs (n : Fin 64) (f : Ring → Ring) (s : State) : (setRing n f s).vs = s.vs := rfl
@[simp] theorem setRing_sw (n : Fin 64) (f : Ring → Ring) (s : State) : (setRing n f s).sw = s.sw := rfl
@[simp] theorem setRing_fs (n : Fin 64) (f : Ring → Ring) (s : State) : (setRing n f s).fs = s.fs := rfl
@[simp] theorem setRing_ns (n : Fin 64) (f : Ring → Ring) (s : State) : (setRing n f s).ns = s.ns := rfl
@[simp] theorem setRing_acc (n : Fin 64) (f : Ring → Ring) (s : State) : (setRing n f s).acc = s.acc := rfl
@[simp] theorem setRing_eng (n : Fin 64) (f : Ring → Ring) (s : State) : (setRing n f s).eng = s.eng := rfl
@[simp] theorem setRing_pairs (n : Fin 64) (f : Ring → Ring) (s : State) : (setRing n f s).pairs = s.pairs := rfl
@[simp] theorem setRing_wbufs (n : Fin 64) (f : Ring → Ring) (s : State) : (setRing n f s).wbufs = s.wbufs := rfl
@[simp] theorem setRing_pkgs (n : Fin 64) (f : Ring → Ring) (s : State) : (setRing n f s).pkgs = s.pkgs := rfl

/-! `modHost` -/

@[simp] theorem modHost_pending (f : HostSt → HostSt) (s : State) : (modHost f s).pending = s.pending := rfl
@[simp] theorem modHost_dt (f : HostSt → HostSt) (s : State) : (modHost f s).dt = s.dt := rfl
@[simp] theorem modHost_rt (f : HostSt → HostSt) (s : State) : (modHost f s).rt = s.rt := rfl
@[simp] theorem modHost_rtPhase (f : HostSt → HostSt) (s : State) : (modHost f s).rtPhase = s.rtPhase := rfl
@[simp] theorem modHost_free (f : HostSt → HostSt) (s : State) : (modHost f s).free = s.free := rfl
@[simp] theorem modHost_sram (f : HostSt → HostSt) (s : State) : (modHost f s).sram = s.sram := rfl
@[simp] theorem modHost_mram (f : HostSt → HostSt) (s : State) : (modHost f s).mram = s.mram := rfl
@[simp] theorem modHost_rings (f : HostSt → HostSt) (s : State) : (modHost f s).rings = s.rings := rfl
@[simp] theorem modHost_nextHigh (f : HostSt → HostSt) (s : State) : (modHost f s).nextHigh = s.nextHigh := rfl
@[simp] theorem modHost_nextNormal (f : HostSt → HostSt) (s : State) : (modHost f s).nextNormal = s.nextNormal := rfl
@[simp] theorem modHost_started (f : HostSt → HostSt) (s : State) : (modHost f s).started = s.started := rfl
@[simp] theorem modHost_nextUid (f : HostSt → HostSt) (s : State) : (modHost f s).nextUid = s.nextUid := rfl
@[simp] theorem modHost_engPipe (f : HostSt → HostSt) (s : State) : (modHost f s).engPipe = s.engPipe := rfl
@[simp] theorem modHost_diagPipe (f : HostSt → HostSt) (s : State) : (modHost f s).diagPipe = s.diagPipe := rfl
@[simp] theorem modHost_diagBusy (f : HostSt → HostSt) (s : State) : (modHost f s).diagBusy = s.diagBusy := rfl
@[simp] theorem modHost_diagAnswer (f : HostSt → HostSt) (s : State) : (modHost f s).diagAnswer = s.diagAnswer := rfl
@[simp] theorem modHost_out (f : HostSt → HostSt) (s : State) : (modHost f s).out = s.out := rfl
@[simp] theorem modHost_transit (f : HostSt → HostSt) (s : State) : (modHost f s).transit = s.transit := rfl
@[simp] theorem modHost_linkDown (f : HostSt → HostSt) (s : State) : (modHost f s).linkDown = s.linkDown := rfl
@[simp] theorem modHost_safeHere (f : HostSt → HostSt) (s : State) : (modHost f s).safeHere = s.safeHere := rfl
@[simp] theorem modHost_host (f : HostSt → HostSt) (s : State) : (modHost f s).host = f s.host := rfl
@[simp] theorem modHost_stg (f : HostSt → HostSt) (s : State) : (modHost f s).stg = s.stg := rfl
@[simp] theorem modHost_ses (f : HostSt → HostSt) (s : State) : (modHost f s).ses = s.ses := rfl
@[simp] theorem modHost_flt (f : HostSt → HostSt) (s : State) : (modHost f s).flt = s.flt := rfl
@[simp] theorem modHost_pw (f : HostSt → HostSt) (s : State) : (modHost f s).pw = s.pw := rfl
@[simp] theorem modHost_hw (f : HostSt → HostSt) (s : State) : (modHost f s).hw = s.hw := rfl
@[simp] theorem modHost_upd (f : HostSt → HostSt) (s : State) : (modHost f s).upd = s.upd := rfl
@[simp] theorem modHost_perf (f : HostSt → HostSt) (s : State) : (modHost f s).perf = s.perf := rfl
@[simp] theorem modHost_engInts (f : HostSt → HostSt) (s : State) : (modHost f s).engInts = s.engInts := rfl
@[simp] theorem modHost_keys (f : HostSt → HostSt) (s : State) : (modHost f s).keys = s.keys := rfl
@[simp] theorem modHost_heldEvents (f : HostSt → HostSt) (s : State) : (modHost f s).heldEvents = s.heldEvents := rfl
@[simp] theorem modHost_ld (f : HostSt → HostSt) (s : State) : (modHost f s).ld = s.ld := rfl
@[simp] theorem modHost_hbs (f : HostSt → HostSt) (s : State) : (modHost f s).hbs = s.hbs := rfl
@[simp] theorem modHost_vs (f : HostSt → HostSt) (s : State) : (modHost f s).vs = s.vs := rfl
@[simp] theorem modHost_sw (f : HostSt → HostSt) (s : State) : (modHost f s).sw = s.sw := rfl
@[simp] theorem modHost_fs (f : HostSt → HostSt) (s : State) : (modHost f s).fs = s.fs := rfl
@[simp] theorem modHost_ns (f : HostSt → HostSt) (s : State) : (modHost f s).ns = s.ns := rfl
@[simp] theorem modHost_acc (f : HostSt → HostSt) (s : State) : (modHost f s).acc = s.acc := rfl
@[simp] theorem modHost_eng (f : HostSt → HostSt) (s : State) : (modHost f s).eng = s.eng := rfl
@[simp] theorem modHost_pairs (f : HostSt → HostSt) (s : State) : (modHost f s).pairs = s.pairs := rfl
@[simp] theorem modHost_wbufs (f : HostSt → HostSt) (s : State) : (modHost f s).wbufs = s.wbufs := rfl
@[simp] theorem modHost_pkgs (f : HostSt → HostSt) (s : State) : (modHost f s).pkgs = s.pkgs := rfl

/-! `modStg` -/

@[simp] theorem modStg_pending (f : StageSt → StageSt) (s : State) : (modStg f s).pending = s.pending := rfl
@[simp] theorem modStg_dt (f : StageSt → StageSt) (s : State) : (modStg f s).dt = s.dt := rfl
@[simp] theorem modStg_rt (f : StageSt → StageSt) (s : State) : (modStg f s).rt = s.rt := rfl
@[simp] theorem modStg_rtPhase (f : StageSt → StageSt) (s : State) : (modStg f s).rtPhase = s.rtPhase := rfl
@[simp] theorem modStg_free (f : StageSt → StageSt) (s : State) : (modStg f s).free = s.free := rfl
@[simp] theorem modStg_sram (f : StageSt → StageSt) (s : State) : (modStg f s).sram = s.sram := rfl
@[simp] theorem modStg_mram (f : StageSt → StageSt) (s : State) : (modStg f s).mram = s.mram := rfl
@[simp] theorem modStg_rings (f : StageSt → StageSt) (s : State) : (modStg f s).rings = s.rings := rfl
@[simp] theorem modStg_nextHigh (f : StageSt → StageSt) (s : State) : (modStg f s).nextHigh = s.nextHigh := rfl
@[simp] theorem modStg_nextNormal (f : StageSt → StageSt) (s : State) : (modStg f s).nextNormal = s.nextNormal := rfl
@[simp] theorem modStg_started (f : StageSt → StageSt) (s : State) : (modStg f s).started = s.started := rfl
@[simp] theorem modStg_nextUid (f : StageSt → StageSt) (s : State) : (modStg f s).nextUid = s.nextUid := rfl
@[simp] theorem modStg_engPipe (f : StageSt → StageSt) (s : State) : (modStg f s).engPipe = s.engPipe := rfl
@[simp] theorem modStg_diagPipe (f : StageSt → StageSt) (s : State) : (modStg f s).diagPipe = s.diagPipe := rfl
@[simp] theorem modStg_diagBusy (f : StageSt → StageSt) (s : State) : (modStg f s).diagBusy = s.diagBusy := rfl
@[simp] theorem modStg_diagAnswer (f : StageSt → StageSt) (s : State) : (modStg f s).diagAnswer = s.diagAnswer := rfl
@[simp] theorem modStg_out (f : StageSt → StageSt) (s : State) : (modStg f s).out = s.out := rfl
@[simp] theorem modStg_transit (f : StageSt → StageSt) (s : State) : (modStg f s).transit = s.transit := rfl
@[simp] theorem modStg_linkDown (f : StageSt → StageSt) (s : State) : (modStg f s).linkDown = s.linkDown := rfl
@[simp] theorem modStg_safeHere (f : StageSt → StageSt) (s : State) : (modStg f s).safeHere = s.safeHere := rfl
@[simp] theorem modStg_host (f : StageSt → StageSt) (s : State) : (modStg f s).host = s.host := rfl
@[simp] theorem modStg_stg (f : StageSt → StageSt) (s : State) : (modStg f s).stg = f s.stg := rfl
@[simp] theorem modStg_ses (f : StageSt → StageSt) (s : State) : (modStg f s).ses = s.ses := rfl
@[simp] theorem modStg_flt (f : StageSt → StageSt) (s : State) : (modStg f s).flt = s.flt := rfl
@[simp] theorem modStg_pw (f : StageSt → StageSt) (s : State) : (modStg f s).pw = s.pw := rfl
@[simp] theorem modStg_hw (f : StageSt → StageSt) (s : State) : (modStg f s).hw = s.hw := rfl
@[simp] theorem modStg_upd (f : StageSt → StageSt) (s : State) : (modStg f s).upd = s.upd := rfl
@[simp] theorem modStg_perf (f : StageSt → StageSt) (s : State) : (modStg f s).perf = s.perf := rfl
@[simp] theorem modStg_engInts (f : StageSt → StageSt) (s : State) : (modStg f s).engInts = s.engInts := rfl
@[simp] theorem modStg_keys (f : StageSt → StageSt) (s : State) : (modStg f s).keys = s.keys := rfl
@[simp] theorem modStg_heldEvents (f : StageSt → StageSt) (s : State) : (modStg f s).heldEvents = s.heldEvents := rfl
@[simp] theorem modStg_ld (f : StageSt → StageSt) (s : State) : (modStg f s).ld = s.ld := rfl
@[simp] theorem modStg_hbs (f : StageSt → StageSt) (s : State) : (modStg f s).hbs = s.hbs := rfl
@[simp] theorem modStg_vs (f : StageSt → StageSt) (s : State) : (modStg f s).vs = s.vs := rfl
@[simp] theorem modStg_sw (f : StageSt → StageSt) (s : State) : (modStg f s).sw = s.sw := rfl
@[simp] theorem modStg_fs (f : StageSt → StageSt) (s : State) : (modStg f s).fs = s.fs := rfl
@[simp] theorem modStg_ns (f : StageSt → StageSt) (s : State) : (modStg f s).ns = s.ns := rfl
@[simp] theorem modStg_acc (f : StageSt → StageSt) (s : State) : (modStg f s).acc = s.acc := rfl
@[simp] theorem modStg_eng (f : StageSt → StageSt) (s : State) : (modStg f s).eng = s.eng := rfl
@[simp] theorem modStg_pairs (f : StageSt → StageSt) (s : State) : (modStg f s).pairs = s.pairs := rfl
@[simp] theorem modStg_wbufs (f : StageSt → StageSt) (s : State) : (modStg f s).wbufs = s.wbufs := rfl
@[simp] theorem modStg_pkgs (f : StageSt → StageSt) (s : State) : (modStg f s).pkgs = s.pkgs := rfl

/-! `modFlt` -/

@[simp] theorem modFlt_pending (f : FaultSt → FaultSt) (s : State) : (modFlt f s).pending = s.pending := rfl
@[simp] theorem modFlt_dt (f : FaultSt → FaultSt) (s : State) : (modFlt f s).dt = s.dt := rfl
@[simp] theorem modFlt_rt (f : FaultSt → FaultSt) (s : State) : (modFlt f s).rt = s.rt := rfl
@[simp] theorem modFlt_rtPhase (f : FaultSt → FaultSt) (s : State) : (modFlt f s).rtPhase = s.rtPhase := rfl
@[simp] theorem modFlt_free (f : FaultSt → FaultSt) (s : State) : (modFlt f s).free = s.free := rfl
@[simp] theorem modFlt_sram (f : FaultSt → FaultSt) (s : State) : (modFlt f s).sram = s.sram := rfl
@[simp] theorem modFlt_mram (f : FaultSt → FaultSt) (s : State) : (modFlt f s).mram = s.mram := rfl
@[simp] theorem modFlt_rings (f : FaultSt → FaultSt) (s : State) : (modFlt f s).rings = s.rings := rfl
@[simp] theorem modFlt_nextHigh (f : FaultSt → FaultSt) (s : State) : (modFlt f s).nextHigh = s.nextHigh := rfl
@[simp] theorem modFlt_nextNormal (f : FaultSt → FaultSt) (s : State) : (modFlt f s).nextNormal = s.nextNormal := rfl
@[simp] theorem modFlt_started (f : FaultSt → FaultSt) (s : State) : (modFlt f s).started = s.started := rfl
@[simp] theorem modFlt_nextUid (f : FaultSt → FaultSt) (s : State) : (modFlt f s).nextUid = s.nextUid := rfl
@[simp] theorem modFlt_engPipe (f : FaultSt → FaultSt) (s : State) : (modFlt f s).engPipe = s.engPipe := rfl
@[simp] theorem modFlt_diagPipe (f : FaultSt → FaultSt) (s : State) : (modFlt f s).diagPipe = s.diagPipe := rfl
@[simp] theorem modFlt_diagBusy (f : FaultSt → FaultSt) (s : State) : (modFlt f s).diagBusy = s.diagBusy := rfl
@[simp] theorem modFlt_diagAnswer (f : FaultSt → FaultSt) (s : State) : (modFlt f s).diagAnswer = s.diagAnswer := rfl
@[simp] theorem modFlt_out (f : FaultSt → FaultSt) (s : State) : (modFlt f s).out = s.out := rfl
@[simp] theorem modFlt_transit (f : FaultSt → FaultSt) (s : State) : (modFlt f s).transit = s.transit := rfl
@[simp] theorem modFlt_linkDown (f : FaultSt → FaultSt) (s : State) : (modFlt f s).linkDown = s.linkDown := rfl
@[simp] theorem modFlt_safeHere (f : FaultSt → FaultSt) (s : State) : (modFlt f s).safeHere = s.safeHere := rfl
@[simp] theorem modFlt_host (f : FaultSt → FaultSt) (s : State) : (modFlt f s).host = s.host := rfl
@[simp] theorem modFlt_stg (f : FaultSt → FaultSt) (s : State) : (modFlt f s).stg = s.stg := rfl
@[simp] theorem modFlt_ses (f : FaultSt → FaultSt) (s : State) : (modFlt f s).ses = s.ses := rfl
@[simp] theorem modFlt_flt (f : FaultSt → FaultSt) (s : State) : (modFlt f s).flt = f s.flt := rfl
@[simp] theorem modFlt_pw (f : FaultSt → FaultSt) (s : State) : (modFlt f s).pw = s.pw := rfl
@[simp] theorem modFlt_hw (f : FaultSt → FaultSt) (s : State) : (modFlt f s).hw = s.hw := rfl
@[simp] theorem modFlt_upd (f : FaultSt → FaultSt) (s : State) : (modFlt f s).upd = s.upd := rfl
@[simp] theorem modFlt_perf (f : FaultSt → FaultSt) (s : State) : (modFlt f s).perf = s.perf := rfl
@[simp] theorem modFlt_engInts (f : FaultSt → FaultSt) (s : State) : (modFlt f s).engInts = s.engInts := rfl
@[simp] theorem modFlt_keys (f : FaultSt → FaultSt) (s : State) : (modFlt f s).keys = s.keys := rfl
@[simp] theorem modFlt_heldEvents (f : FaultSt → FaultSt) (s : State) : (modFlt f s).heldEvents = s.heldEvents := rfl
@[simp] theorem modFlt_ld (f : FaultSt → FaultSt) (s : State) : (modFlt f s).ld = s.ld := rfl
@[simp] theorem modFlt_hbs (f : FaultSt → FaultSt) (s : State) : (modFlt f s).hbs = s.hbs := rfl
@[simp] theorem modFlt_vs (f : FaultSt → FaultSt) (s : State) : (modFlt f s).vs = s.vs := rfl
@[simp] theorem modFlt_sw (f : FaultSt → FaultSt) (s : State) : (modFlt f s).sw = s.sw := rfl
@[simp] theorem modFlt_fs (f : FaultSt → FaultSt) (s : State) : (modFlt f s).fs = s.fs := rfl
@[simp] theorem modFlt_ns (f : FaultSt → FaultSt) (s : State) : (modFlt f s).ns = s.ns := rfl
@[simp] theorem modFlt_acc (f : FaultSt → FaultSt) (s : State) : (modFlt f s).acc = s.acc := rfl
@[simp] theorem modFlt_eng (f : FaultSt → FaultSt) (s : State) : (modFlt f s).eng = s.eng := rfl
@[simp] theorem modFlt_pairs (f : FaultSt → FaultSt) (s : State) : (modFlt f s).pairs = s.pairs := rfl
@[simp] theorem modFlt_wbufs (f : FaultSt → FaultSt) (s : State) : (modFlt f s).wbufs = s.wbufs := rfl
@[simp] theorem modFlt_pkgs (f : FaultSt → FaultSt) (s : State) : (modFlt f s).pkgs = s.pkgs := rfl

/-! `modPw` -/

@[simp] theorem modPw_pending (f : PowerSt → PowerSt) (s : State) : (modPw f s).pending = s.pending := rfl
@[simp] theorem modPw_dt (f : PowerSt → PowerSt) (s : State) : (modPw f s).dt = s.dt := rfl
@[simp] theorem modPw_rt (f : PowerSt → PowerSt) (s : State) : (modPw f s).rt = s.rt := rfl
@[simp] theorem modPw_rtPhase (f : PowerSt → PowerSt) (s : State) : (modPw f s).rtPhase = s.rtPhase := rfl
@[simp] theorem modPw_free (f : PowerSt → PowerSt) (s : State) : (modPw f s).free = s.free := rfl
@[simp] theorem modPw_sram (f : PowerSt → PowerSt) (s : State) : (modPw f s).sram = s.sram := rfl
@[simp] theorem modPw_mram (f : PowerSt → PowerSt) (s : State) : (modPw f s).mram = s.mram := rfl
@[simp] theorem modPw_rings (f : PowerSt → PowerSt) (s : State) : (modPw f s).rings = s.rings := rfl
@[simp] theorem modPw_nextHigh (f : PowerSt → PowerSt) (s : State) : (modPw f s).nextHigh = s.nextHigh := rfl
@[simp] theorem modPw_nextNormal (f : PowerSt → PowerSt) (s : State) : (modPw f s).nextNormal = s.nextNormal := rfl
@[simp] theorem modPw_started (f : PowerSt → PowerSt) (s : State) : (modPw f s).started = s.started := rfl
@[simp] theorem modPw_nextUid (f : PowerSt → PowerSt) (s : State) : (modPw f s).nextUid = s.nextUid := rfl
@[simp] theorem modPw_engPipe (f : PowerSt → PowerSt) (s : State) : (modPw f s).engPipe = s.engPipe := rfl
@[simp] theorem modPw_diagPipe (f : PowerSt → PowerSt) (s : State) : (modPw f s).diagPipe = s.diagPipe := rfl
@[simp] theorem modPw_diagBusy (f : PowerSt → PowerSt) (s : State) : (modPw f s).diagBusy = s.diagBusy := rfl
@[simp] theorem modPw_diagAnswer (f : PowerSt → PowerSt) (s : State) : (modPw f s).diagAnswer = s.diagAnswer := rfl
@[simp] theorem modPw_out (f : PowerSt → PowerSt) (s : State) : (modPw f s).out = s.out := rfl
@[simp] theorem modPw_transit (f : PowerSt → PowerSt) (s : State) : (modPw f s).transit = s.transit := rfl
@[simp] theorem modPw_linkDown (f : PowerSt → PowerSt) (s : State) : (modPw f s).linkDown = s.linkDown := rfl
@[simp] theorem modPw_safeHere (f : PowerSt → PowerSt) (s : State) : (modPw f s).safeHere = s.safeHere := rfl
@[simp] theorem modPw_host (f : PowerSt → PowerSt) (s : State) : (modPw f s).host = s.host := rfl
@[simp] theorem modPw_stg (f : PowerSt → PowerSt) (s : State) : (modPw f s).stg = s.stg := rfl
@[simp] theorem modPw_ses (f : PowerSt → PowerSt) (s : State) : (modPw f s).ses = s.ses := rfl
@[simp] theorem modPw_flt (f : PowerSt → PowerSt) (s : State) : (modPw f s).flt = s.flt := rfl
@[simp] theorem modPw_pw (f : PowerSt → PowerSt) (s : State) : (modPw f s).pw = f s.pw := rfl
@[simp] theorem modPw_hw (f : PowerSt → PowerSt) (s : State) : (modPw f s).hw = s.hw := rfl
@[simp] theorem modPw_upd (f : PowerSt → PowerSt) (s : State) : (modPw f s).upd = s.upd := rfl
@[simp] theorem modPw_perf (f : PowerSt → PowerSt) (s : State) : (modPw f s).perf = s.perf := rfl
@[simp] theorem modPw_engInts (f : PowerSt → PowerSt) (s : State) : (modPw f s).engInts = s.engInts := rfl
@[simp] theorem modPw_keys (f : PowerSt → PowerSt) (s : State) : (modPw f s).keys = s.keys := rfl
@[simp] theorem modPw_heldEvents (f : PowerSt → PowerSt) (s : State) : (modPw f s).heldEvents = s.heldEvents := rfl
@[simp] theorem modPw_ld (f : PowerSt → PowerSt) (s : State) : (modPw f s).ld = s.ld := rfl
@[simp] theorem modPw_hbs (f : PowerSt → PowerSt) (s : State) : (modPw f s).hbs = s.hbs := rfl
@[simp] theorem modPw_vs (f : PowerSt → PowerSt) (s : State) : (modPw f s).vs = s.vs := rfl
@[simp] theorem modPw_sw (f : PowerSt → PowerSt) (s : State) : (modPw f s).sw = s.sw := rfl
@[simp] theorem modPw_fs (f : PowerSt → PowerSt) (s : State) : (modPw f s).fs = s.fs := rfl
@[simp] theorem modPw_ns (f : PowerSt → PowerSt) (s : State) : (modPw f s).ns = s.ns := rfl
@[simp] theorem modPw_acc (f : PowerSt → PowerSt) (s : State) : (modPw f s).acc = s.acc := rfl
@[simp] theorem modPw_eng (f : PowerSt → PowerSt) (s : State) : (modPw f s).eng = s.eng := rfl
@[simp] theorem modPw_pairs (f : PowerSt → PowerSt) (s : State) : (modPw f s).pairs = s.pairs := rfl
@[simp] theorem modPw_wbufs (f : PowerSt → PowerSt) (s : State) : (modPw f s).wbufs = s.wbufs := rfl
@[simp] theorem modPw_pkgs (f : PowerSt → PowerSt) (s : State) : (modPw f s).pkgs = s.pkgs := rfl

/-! `modHw` -/

@[simp] theorem modHw_pending (f : HeartSt → HeartSt) (s : State) : (modHw f s).pending = s.pending := rfl
@[simp] theorem modHw_dt (f : HeartSt → HeartSt) (s : State) : (modHw f s).dt = s.dt := rfl
@[simp] theorem modHw_rt (f : HeartSt → HeartSt) (s : State) : (modHw f s).rt = s.rt := rfl
@[simp] theorem modHw_rtPhase (f : HeartSt → HeartSt) (s : State) : (modHw f s).rtPhase = s.rtPhase := rfl
@[simp] theorem modHw_free (f : HeartSt → HeartSt) (s : State) : (modHw f s).free = s.free := rfl
@[simp] theorem modHw_sram (f : HeartSt → HeartSt) (s : State) : (modHw f s).sram = s.sram := rfl
@[simp] theorem modHw_mram (f : HeartSt → HeartSt) (s : State) : (modHw f s).mram = s.mram := rfl
@[simp] theorem modHw_rings (f : HeartSt → HeartSt) (s : State) : (modHw f s).rings = s.rings := rfl
@[simp] theorem modHw_nextHigh (f : HeartSt → HeartSt) (s : State) : (modHw f s).nextHigh = s.nextHigh := rfl
@[simp] theorem modHw_nextNormal (f : HeartSt → HeartSt) (s : State) : (modHw f s).nextNormal = s.nextNormal := rfl
@[simp] theorem modHw_started (f : HeartSt → HeartSt) (s : State) : (modHw f s).started = s.started := rfl
@[simp] theorem modHw_nextUid (f : HeartSt → HeartSt) (s : State) : (modHw f s).nextUid = s.nextUid := rfl
@[simp] theorem modHw_engPipe (f : HeartSt → HeartSt) (s : State) : (modHw f s).engPipe = s.engPipe := rfl
@[simp] theorem modHw_diagPipe (f : HeartSt → HeartSt) (s : State) : (modHw f s).diagPipe = s.diagPipe := rfl
@[simp] theorem modHw_diagBusy (f : HeartSt → HeartSt) (s : State) : (modHw f s).diagBusy = s.diagBusy := rfl
@[simp] theorem modHw_diagAnswer (f : HeartSt → HeartSt) (s : State) : (modHw f s).diagAnswer = s.diagAnswer := rfl
@[simp] theorem modHw_out (f : HeartSt → HeartSt) (s : State) : (modHw f s).out = s.out := rfl
@[simp] theorem modHw_transit (f : HeartSt → HeartSt) (s : State) : (modHw f s).transit = s.transit := rfl
@[simp] theorem modHw_linkDown (f : HeartSt → HeartSt) (s : State) : (modHw f s).linkDown = s.linkDown := rfl
@[simp] theorem modHw_safeHere (f : HeartSt → HeartSt) (s : State) : (modHw f s).safeHere = s.safeHere := rfl
@[simp] theorem modHw_host (f : HeartSt → HeartSt) (s : State) : (modHw f s).host = s.host := rfl
@[simp] theorem modHw_stg (f : HeartSt → HeartSt) (s : State) : (modHw f s).stg = s.stg := rfl
@[simp] theorem modHw_ses (f : HeartSt → HeartSt) (s : State) : (modHw f s).ses = s.ses := rfl
@[simp] theorem modHw_flt (f : HeartSt → HeartSt) (s : State) : (modHw f s).flt = s.flt := rfl
@[simp] theorem modHw_pw (f : HeartSt → HeartSt) (s : State) : (modHw f s).pw = s.pw := rfl
@[simp] theorem modHw_hw (f : HeartSt → HeartSt) (s : State) : (modHw f s).hw = f s.hw := rfl
@[simp] theorem modHw_upd (f : HeartSt → HeartSt) (s : State) : (modHw f s).upd = s.upd := rfl
@[simp] theorem modHw_perf (f : HeartSt → HeartSt) (s : State) : (modHw f s).perf = s.perf := rfl
@[simp] theorem modHw_engInts (f : HeartSt → HeartSt) (s : State) : (modHw f s).engInts = s.engInts := rfl
@[simp] theorem modHw_keys (f : HeartSt → HeartSt) (s : State) : (modHw f s).keys = s.keys := rfl
@[simp] theorem modHw_heldEvents (f : HeartSt → HeartSt) (s : State) : (modHw f s).heldEvents = s.heldEvents := rfl
@[simp] theorem modHw_ld (f : HeartSt → HeartSt) (s : State) : (modHw f s).ld = s.ld := rfl
@[simp] theorem modHw_hbs (f : HeartSt → HeartSt) (s : State) : (modHw f s).hbs = s.hbs := rfl
@[simp] theorem modHw_vs (f : HeartSt → HeartSt) (s : State) : (modHw f s).vs = s.vs := rfl
@[simp] theorem modHw_sw (f : HeartSt → HeartSt) (s : State) : (modHw f s).sw = s.sw := rfl
@[simp] theorem modHw_fs (f : HeartSt → HeartSt) (s : State) : (modHw f s).fs = s.fs := rfl
@[simp] theorem modHw_ns (f : HeartSt → HeartSt) (s : State) : (modHw f s).ns = s.ns := rfl
@[simp] theorem modHw_acc (f : HeartSt → HeartSt) (s : State) : (modHw f s).acc = s.acc := rfl
@[simp] theorem modHw_eng (f : HeartSt → HeartSt) (s : State) : (modHw f s).eng = s.eng := rfl
@[simp] theorem modHw_pairs (f : HeartSt → HeartSt) (s : State) : (modHw f s).pairs = s.pairs := rfl
@[simp] theorem modHw_wbufs (f : HeartSt → HeartSt) (s : State) : (modHw f s).wbufs = s.wbufs := rfl
@[simp] theorem modHw_pkgs (f : HeartSt → HeartSt) (s : State) : (modHw f s).pkgs = s.pkgs := rfl

/-! `modUpd` -/

@[simp] theorem modUpd_pending (f : UpdSt → UpdSt) (s : State) : (modUpd f s).pending = s.pending := rfl
@[simp] theorem modUpd_dt (f : UpdSt → UpdSt) (s : State) : (modUpd f s).dt = s.dt := rfl
@[simp] theorem modUpd_rt (f : UpdSt → UpdSt) (s : State) : (modUpd f s).rt = s.rt := rfl
@[simp] theorem modUpd_rtPhase (f : UpdSt → UpdSt) (s : State) : (modUpd f s).rtPhase = s.rtPhase := rfl
@[simp] theorem modUpd_free (f : UpdSt → UpdSt) (s : State) : (modUpd f s).free = s.free := rfl
@[simp] theorem modUpd_sram (f : UpdSt → UpdSt) (s : State) : (modUpd f s).sram = s.sram := rfl
@[simp] theorem modUpd_mram (f : UpdSt → UpdSt) (s : State) : (modUpd f s).mram = s.mram := rfl
@[simp] theorem modUpd_rings (f : UpdSt → UpdSt) (s : State) : (modUpd f s).rings = s.rings := rfl
@[simp] theorem modUpd_nextHigh (f : UpdSt → UpdSt) (s : State) : (modUpd f s).nextHigh = s.nextHigh := rfl
@[simp] theorem modUpd_nextNormal (f : UpdSt → UpdSt) (s : State) : (modUpd f s).nextNormal = s.nextNormal := rfl
@[simp] theorem modUpd_started (f : UpdSt → UpdSt) (s : State) : (modUpd f s).started = s.started := rfl
@[simp] theorem modUpd_nextUid (f : UpdSt → UpdSt) (s : State) : (modUpd f s).nextUid = s.nextUid := rfl
@[simp] theorem modUpd_engPipe (f : UpdSt → UpdSt) (s : State) : (modUpd f s).engPipe = s.engPipe := rfl
@[simp] theorem modUpd_diagPipe (f : UpdSt → UpdSt) (s : State) : (modUpd f s).diagPipe = s.diagPipe := rfl
@[simp] theorem modUpd_diagBusy (f : UpdSt → UpdSt) (s : State) : (modUpd f s).diagBusy = s.diagBusy := rfl
@[simp] theorem modUpd_diagAnswer (f : UpdSt → UpdSt) (s : State) : (modUpd f s).diagAnswer = s.diagAnswer := rfl
@[simp] theorem modUpd_out (f : UpdSt → UpdSt) (s : State) : (modUpd f s).out = s.out := rfl
@[simp] theorem modUpd_transit (f : UpdSt → UpdSt) (s : State) : (modUpd f s).transit = s.transit := rfl
@[simp] theorem modUpd_linkDown (f : UpdSt → UpdSt) (s : State) : (modUpd f s).linkDown = s.linkDown := rfl
@[simp] theorem modUpd_safeHere (f : UpdSt → UpdSt) (s : State) : (modUpd f s).safeHere = s.safeHere := rfl
@[simp] theorem modUpd_host (f : UpdSt → UpdSt) (s : State) : (modUpd f s).host = s.host := rfl
@[simp] theorem modUpd_stg (f : UpdSt → UpdSt) (s : State) : (modUpd f s).stg = s.stg := rfl
@[simp] theorem modUpd_ses (f : UpdSt → UpdSt) (s : State) : (modUpd f s).ses = s.ses := rfl
@[simp] theorem modUpd_flt (f : UpdSt → UpdSt) (s : State) : (modUpd f s).flt = s.flt := rfl
@[simp] theorem modUpd_pw (f : UpdSt → UpdSt) (s : State) : (modUpd f s).pw = s.pw := rfl
@[simp] theorem modUpd_hw (f : UpdSt → UpdSt) (s : State) : (modUpd f s).hw = s.hw := rfl
@[simp] theorem modUpd_upd (f : UpdSt → UpdSt) (s : State) : (modUpd f s).upd = f s.upd := rfl
@[simp] theorem modUpd_perf (f : UpdSt → UpdSt) (s : State) : (modUpd f s).perf = s.perf := rfl
@[simp] theorem modUpd_engInts (f : UpdSt → UpdSt) (s : State) : (modUpd f s).engInts = s.engInts := rfl
@[simp] theorem modUpd_keys (f : UpdSt → UpdSt) (s : State) : (modUpd f s).keys = s.keys := rfl
@[simp] theorem modUpd_heldEvents (f : UpdSt → UpdSt) (s : State) : (modUpd f s).heldEvents = s.heldEvents := rfl
@[simp] theorem modUpd_ld (f : UpdSt → UpdSt) (s : State) : (modUpd f s).ld = s.ld := rfl
@[simp] theorem modUpd_hbs (f : UpdSt → UpdSt) (s : State) : (modUpd f s).hbs = s.hbs := rfl
@[simp] theorem modUpd_vs (f : UpdSt → UpdSt) (s : State) : (modUpd f s).vs = s.vs := rfl
@[simp] theorem modUpd_sw (f : UpdSt → UpdSt) (s : State) : (modUpd f s).sw = s.sw := rfl
@[simp] theorem modUpd_fs (f : UpdSt → UpdSt) (s : State) : (modUpd f s).fs = s.fs := rfl
@[simp] theorem modUpd_ns (f : UpdSt → UpdSt) (s : State) : (modUpd f s).ns = s.ns := rfl
@[simp] theorem modUpd_acc (f : UpdSt → UpdSt) (s : State) : (modUpd f s).acc = s.acc := rfl
@[simp] theorem modUpd_eng (f : UpdSt → UpdSt) (s : State) : (modUpd f s).eng = s.eng := rfl
@[simp] theorem modUpd_pairs (f : UpdSt → UpdSt) (s : State) : (modUpd f s).pairs = s.pairs := rfl
@[simp] theorem modUpd_wbufs (f : UpdSt → UpdSt) (s : State) : (modUpd f s).wbufs = s.wbufs := rfl
@[simp] theorem modUpd_pkgs (f : UpdSt → UpdSt) (s : State) : (modUpd f s).pkgs = s.pkgs := rfl

/-! `setSes` -/

@[simp] theorem setSes_pending (n : Nat) (f : Ses → Ses) (s : State) : (setSes n f s).pending = s.pending := rfl
@[simp] theorem setSes_dt (n : Nat) (f : Ses → Ses) (s : State) : (setSes n f s).dt = s.dt := rfl
@[simp] theorem setSes_rt (n : Nat) (f : Ses → Ses) (s : State) : (setSes n f s).rt = s.rt := rfl
@[simp] theorem setSes_rtPhase (n : Nat) (f : Ses → Ses) (s : State) : (setSes n f s).rtPhase = s.rtPhase := rfl
@[simp] theorem setSes_free (n : Nat) (f : Ses → Ses) (s : State) : (setSes n f s).free = s.free := rfl
@[simp] theorem setSes_sram (n : Nat) (f : Ses → Ses) (s : State) : (setSes n f s).sram = s.sram := rfl
@[simp] theorem setSes_mram (n : Nat) (f : Ses → Ses) (s : State) : (setSes n f s).mram = s.mram := rfl
@[simp] theorem setSes_rings (n : Nat) (f : Ses → Ses) (s : State) : (setSes n f s).rings = s.rings := rfl
@[simp] theorem setSes_nextHigh (n : Nat) (f : Ses → Ses) (s : State) : (setSes n f s).nextHigh = s.nextHigh := rfl
@[simp] theorem setSes_nextNormal (n : Nat) (f : Ses → Ses) (s : State) : (setSes n f s).nextNormal = s.nextNormal := rfl
@[simp] theorem setSes_started (n : Nat) (f : Ses → Ses) (s : State) : (setSes n f s).started = s.started := rfl
@[simp] theorem setSes_nextUid (n : Nat) (f : Ses → Ses) (s : State) : (setSes n f s).nextUid = s.nextUid := rfl
@[simp] theorem setSes_engPipe (n : Nat) (f : Ses → Ses) (s : State) : (setSes n f s).engPipe = s.engPipe := rfl
@[simp] theorem setSes_diagPipe (n : Nat) (f : Ses → Ses) (s : State) : (setSes n f s).diagPipe = s.diagPipe := rfl
@[simp] theorem setSes_diagBusy (n : Nat) (f : Ses → Ses) (s : State) : (setSes n f s).diagBusy = s.diagBusy := rfl
@[simp] theorem setSes_diagAnswer (n : Nat) (f : Ses → Ses) (s : State) : (setSes n f s).diagAnswer = s.diagAnswer := rfl
@[simp] theorem setSes_out (n : Nat) (f : Ses → Ses) (s : State) : (setSes n f s).out = s.out := rfl
@[simp] theorem setSes_transit (n : Nat) (f : Ses → Ses) (s : State) : (setSes n f s).transit = s.transit := rfl
@[simp] theorem setSes_linkDown (n : Nat) (f : Ses → Ses) (s : State) : (setSes n f s).linkDown = s.linkDown := rfl
@[simp] theorem setSes_safeHere (n : Nat) (f : Ses → Ses) (s : State) : (setSes n f s).safeHere = s.safeHere := rfl
@[simp] theorem setSes_host (n : Nat) (f : Ses → Ses) (s : State) : (setSes n f s).host = s.host := rfl
@[simp] theorem setSes_stg (n : Nat) (f : Ses → Ses) (s : State) : (setSes n f s).stg = s.stg := rfl
@[simp] theorem setSes_ses (n : Nat) (f : Ses → Ses) (s : State) : (setSes n f s).ses = updN s.ses n f := rfl
@[simp] theorem setSes_flt (n : Nat) (f : Ses → Ses) (s : State) : (setSes n f s).flt = s.flt := rfl
@[simp] theorem setSes_pw (n : Nat) (f : Ses → Ses) (s : State) : (setSes n f s).pw = s.pw := rfl
@[simp] theorem setSes_hw (n : Nat) (f : Ses → Ses) (s : State) : (setSes n f s).hw = s.hw := rfl
@[simp] theorem setSes_upd (n : Nat) (f : Ses → Ses) (s : State) : (setSes n f s).upd = s.upd := rfl
@[simp] theorem setSes_perf (n : Nat) (f : Ses → Ses) (s : State) : (setSes n f s).perf = s.perf := rfl
@[simp] theorem setSes_engInts (n : Nat) (f : Ses → Ses) (s : State) : (setSes n f s).engInts = s.engInts := rfl
@[simp] theorem setSes_keys (n : Nat) (f : Ses → Ses) (s : State) : (setSes n f s).keys = s.keys := rfl
@[simp] theorem setSes_heldEvents (n : Nat) (f : Ses → Ses) (s : State) : (setSes n f s).heldEvents = s.heldEvents := rfl
@[simp] theorem setSes_ld (n : Nat) (f : Ses → Ses) (s : State) : (setSes n f s).ld = s.ld := rfl
@[simp] theorem setSes_hbs (n : Nat) (f : Ses → Ses) (s : State) : (setSes n f s).hbs = s.hbs := rfl
@[simp] theorem setSes_vs (n : Nat) (f : Ses → Ses) (s : State) : (setSes n f s).vs = s.vs := rfl
@[simp] theorem setSes_sw (n : Nat) (f : Ses → Ses) (s : State) : (setSes n f s).sw = s.sw := rfl
@[simp] theorem setSes_fs (n : Nat) (f : Ses → Ses) (s : State) : (setSes n f s).fs = s.fs := rfl
@[simp] theorem setSes_ns (n : Nat) (f : Ses → Ses) (s : State) : (setSes n f s).ns = s.ns := rfl
@[simp] theorem setSes_acc (n : Nat) (f : Ses → Ses) (s : State) : (setSes n f s).acc = s.acc := rfl
@[simp] theorem setSes_eng (n : Nat) (f : Ses → Ses) (s : State) : (setSes n f s).eng = s.eng := rfl
@[simp] theorem setSes_pairs (n : Nat) (f : Ses → Ses) (s : State) : (setSes n f s).pairs = s.pairs := rfl
@[simp] theorem setSes_wbufs (n : Nat) (f : Ses → Ses) (s : State) : (setSes n f s).wbufs = s.wbufs := rfl
@[simp] theorem setSes_pkgs (n : Nat) (f : Ses → Ses) (s : State) : (setSes n f s).pkgs = s.pkgs := rfl

/-! `modLd` -/

@[simp] theorem modLd_pending (f : LoadSt → LoadSt) (s : State) : (modLd f s).pending = s.pending := rfl
@[simp] theorem modLd_dt (f : LoadSt → LoadSt) (s : State) : (modLd f s).dt = s.dt := rfl
@[simp] theorem modLd_rt (f : LoadSt → LoadSt) (s : State) : (modLd f s).rt = s.rt := rfl
@[simp] theorem modLd_rtPhase (f : LoadSt → LoadSt) (s : State) : (modLd f s).rtPhase = s.rtPhase := rfl
@[simp] theorem modLd_free (f : LoadSt → LoadSt) (s : State) : (modLd f s).free = s.free := rfl
@[simp] theorem modLd_sram (f : LoadSt → LoadSt) (s : State) : (modLd f s).sram = s.sram := rfl
@[simp] theorem modLd_mram (f : LoadSt → LoadSt) (s : State) : (modLd f s).mram = s.mram := rfl
@[simp] theorem modLd_rings (f : LoadSt → LoadSt) (s : State) : (modLd f s).rings = s.rings := rfl
@[simp] theorem modLd_nextHigh (f : LoadSt → LoadSt) (s : State) : (modLd f s).nextHigh = s.nextHigh := rfl
@[simp] theorem modLd_nextNormal (f : LoadSt → LoadSt) (s : State) : (modLd f s).nextNormal = s.nextNormal := rfl
@[simp] theorem modLd_started (f : LoadSt → LoadSt) (s : State) : (modLd f s).started = s.started := rfl
@[simp] theorem modLd_nextUid (f : LoadSt → LoadSt) (s : State) : (modLd f s).nextUid = s.nextUid := rfl
@[simp] theorem modLd_engPipe (f : LoadSt → LoadSt) (s : State) : (modLd f s).engPipe = s.engPipe := rfl
@[simp] theorem modLd_diagPipe (f : LoadSt → LoadSt) (s : State) : (modLd f s).diagPipe = s.diagPipe := rfl
@[simp] theorem modLd_diagBusy (f : LoadSt → LoadSt) (s : State) : (modLd f s).diagBusy = s.diagBusy := rfl
@[simp] theorem modLd_diagAnswer (f : LoadSt → LoadSt) (s : State) : (modLd f s).diagAnswer = s.diagAnswer := rfl
@[simp] theorem modLd_out (f : LoadSt → LoadSt) (s : State) : (modLd f s).out = s.out := rfl
@[simp] theorem modLd_transit (f : LoadSt → LoadSt) (s : State) : (modLd f s).transit = s.transit := rfl
@[simp] theorem modLd_linkDown (f : LoadSt → LoadSt) (s : State) : (modLd f s).linkDown = s.linkDown := rfl
@[simp] theorem modLd_safeHere (f : LoadSt → LoadSt) (s : State) : (modLd f s).safeHere = s.safeHere := rfl
@[simp] theorem modLd_host (f : LoadSt → LoadSt) (s : State) : (modLd f s).host = s.host := rfl
@[simp] theorem modLd_stg (f : LoadSt → LoadSt) (s : State) : (modLd f s).stg = s.stg := rfl
@[simp] theorem modLd_ses (f : LoadSt → LoadSt) (s : State) : (modLd f s).ses = s.ses := rfl
@[simp] theorem modLd_flt (f : LoadSt → LoadSt) (s : State) : (modLd f s).flt = s.flt := rfl
@[simp] theorem modLd_pw (f : LoadSt → LoadSt) (s : State) : (modLd f s).pw = s.pw := rfl
@[simp] theorem modLd_hw (f : LoadSt → LoadSt) (s : State) : (modLd f s).hw = s.hw := rfl
@[simp] theorem modLd_upd (f : LoadSt → LoadSt) (s : State) : (modLd f s).upd = s.upd := rfl
@[simp] theorem modLd_perf (f : LoadSt → LoadSt) (s : State) : (modLd f s).perf = s.perf := rfl
@[simp] theorem modLd_engInts (f : LoadSt → LoadSt) (s : State) : (modLd f s).engInts = s.engInts := rfl
@[simp] theorem modLd_keys (f : LoadSt → LoadSt) (s : State) : (modLd f s).keys = s.keys := rfl
@[simp] theorem modLd_heldEvents (f : LoadSt → LoadSt) (s : State) : (modLd f s).heldEvents = s.heldEvents := rfl
@[simp] theorem modLd_ld (f : LoadSt → LoadSt) (s : State) : (modLd f s).ld = f s.ld := rfl
@[simp] theorem modLd_hbs (f : LoadSt → LoadSt) (s : State) : (modLd f s).hbs = s.hbs := rfl
@[simp] theorem modLd_vs (f : LoadSt → LoadSt) (s : State) : (modLd f s).vs = s.vs := rfl
@[simp] theorem modLd_sw (f : LoadSt → LoadSt) (s : State) : (modLd f s).sw = s.sw := rfl
@[simp] theorem modLd_fs (f : LoadSt → LoadSt) (s : State) : (modLd f s).fs = s.fs := rfl
@[simp] theorem modLd_ns (f : LoadSt → LoadSt) (s : State) : (modLd f s).ns = s.ns := rfl
@[simp] theorem modLd_acc (f : LoadSt → LoadSt) (s : State) : (modLd f s).acc = s.acc := rfl
@[simp] theorem modLd_eng (f : LoadSt → LoadSt) (s : State) : (modLd f s).eng = s.eng := rfl
@[simp] theorem modLd_pairs (f : LoadSt → LoadSt) (s : State) : (modLd f s).pairs = s.pairs := rfl
@[simp] theorem modLd_wbufs (f : LoadSt → LoadSt) (s : State) : (modLd f s).wbufs = s.wbufs := rfl
@[simp] theorem modLd_pkgs (f : LoadSt → LoadSt) (s : State) : (modLd f s).pkgs = s.pkgs := rfl

/-! `setLch` -/

@[simp] theorem setLch_pending (n : Nat) (f : Lch → Lch) (s : State) : (setLch n f s).pending = s.pending := rfl
@[simp] theorem setLch_dt (n : Nat) (f : Lch → Lch) (s : State) : (setLch n f s).dt = s.dt := rfl
@[simp] theorem setLch_rt (n : Nat) (f : Lch → Lch) (s : State) : (setLch n f s).rt = s.rt := rfl
@[simp] theorem setLch_rtPhase (n : Nat) (f : Lch → Lch) (s : State) : (setLch n f s).rtPhase = s.rtPhase := rfl
@[simp] theorem setLch_free (n : Nat) (f : Lch → Lch) (s : State) : (setLch n f s).free = s.free := rfl
@[simp] theorem setLch_sram (n : Nat) (f : Lch → Lch) (s : State) : (setLch n f s).sram = s.sram := rfl
@[simp] theorem setLch_mram (n : Nat) (f : Lch → Lch) (s : State) : (setLch n f s).mram = s.mram := rfl
@[simp] theorem setLch_rings (n : Nat) (f : Lch → Lch) (s : State) : (setLch n f s).rings = s.rings := rfl
@[simp] theorem setLch_nextHigh (n : Nat) (f : Lch → Lch) (s : State) : (setLch n f s).nextHigh = s.nextHigh := rfl
@[simp] theorem setLch_nextNormal (n : Nat) (f : Lch → Lch) (s : State) : (setLch n f s).nextNormal = s.nextNormal := rfl
@[simp] theorem setLch_started (n : Nat) (f : Lch → Lch) (s : State) : (setLch n f s).started = s.started := rfl
@[simp] theorem setLch_nextUid (n : Nat) (f : Lch → Lch) (s : State) : (setLch n f s).nextUid = s.nextUid := rfl
@[simp] theorem setLch_engPipe (n : Nat) (f : Lch → Lch) (s : State) : (setLch n f s).engPipe = s.engPipe := rfl
@[simp] theorem setLch_diagPipe (n : Nat) (f : Lch → Lch) (s : State) : (setLch n f s).diagPipe = s.diagPipe := rfl
@[simp] theorem setLch_diagBusy (n : Nat) (f : Lch → Lch) (s : State) : (setLch n f s).diagBusy = s.diagBusy := rfl
@[simp] theorem setLch_diagAnswer (n : Nat) (f : Lch → Lch) (s : State) : (setLch n f s).diagAnswer = s.diagAnswer := rfl
@[simp] theorem setLch_out (n : Nat) (f : Lch → Lch) (s : State) : (setLch n f s).out = s.out := rfl
@[simp] theorem setLch_transit (n : Nat) (f : Lch → Lch) (s : State) : (setLch n f s).transit = s.transit := rfl
@[simp] theorem setLch_linkDown (n : Nat) (f : Lch → Lch) (s : State) : (setLch n f s).linkDown = s.linkDown := rfl
@[simp] theorem setLch_safeHere (n : Nat) (f : Lch → Lch) (s : State) : (setLch n f s).safeHere = s.safeHere := rfl
@[simp] theorem setLch_host (n : Nat) (f : Lch → Lch) (s : State) : (setLch n f s).host = s.host := rfl
@[simp] theorem setLch_stg (n : Nat) (f : Lch → Lch) (s : State) : (setLch n f s).stg = s.stg := rfl
@[simp] theorem setLch_ses (n : Nat) (f : Lch → Lch) (s : State) : (setLch n f s).ses = s.ses := rfl
@[simp] theorem setLch_flt (n : Nat) (f : Lch → Lch) (s : State) : (setLch n f s).flt = s.flt := rfl
@[simp] theorem setLch_pw (n : Nat) (f : Lch → Lch) (s : State) : (setLch n f s).pw = s.pw := rfl
@[simp] theorem setLch_hw (n : Nat) (f : Lch → Lch) (s : State) : (setLch n f s).hw = s.hw := rfl
@[simp] theorem setLch_upd (n : Nat) (f : Lch → Lch) (s : State) : (setLch n f s).upd = s.upd := rfl
@[simp] theorem setLch_perf (n : Nat) (f : Lch → Lch) (s : State) : (setLch n f s).perf = s.perf := rfl
@[simp] theorem setLch_engInts (n : Nat) (f : Lch → Lch) (s : State) : (setLch n f s).engInts = s.engInts := rfl
@[simp] theorem setLch_keys (n : Nat) (f : Lch → Lch) (s : State) : (setLch n f s).keys = s.keys := rfl
@[simp] theorem setLch_heldEvents (n : Nat) (f : Lch → Lch) (s : State) : (setLch n f s).heldEvents = s.heldEvents := rfl
@[simp] theorem setLch_ld (n : Nat) (f : Lch → Lch) (s : State) : (setLch n f s).ld = { s.ld with chs := updN s.ld.chs n f } := rfl
@[simp] theorem setLch_hbs (n : Nat) (f : Lch → Lch) (s : State) : (setLch n f s).hbs = s.hbs := rfl
@[simp] theorem setLch_vs (n : Nat) (f : Lch → Lch) (s : State) : (setLch n f s).vs = s.vs := rfl
@[simp] theorem setLch_sw (n : Nat) (f : Lch → Lch) (s : State) : (setLch n f s).sw = s.sw := rfl
@[simp] theorem setLch_fs (n : Nat) (f : Lch → Lch) (s : State) : (setLch n f s).fs = s.fs := rfl
@[simp] theorem setLch_ns (n : Nat) (f : Lch → Lch) (s : State) : (setLch n f s).ns = s.ns := rfl
@[simp] theorem setLch_acc (n : Nat) (f : Lch → Lch) (s : State) : (setLch n f s).acc = s.acc := rfl
@[simp] theorem setLch_eng (n : Nat) (f : Lch → Lch) (s : State) : (setLch n f s).eng = s.eng := rfl
@[simp] theorem setLch_pairs (n : Nat) (f : Lch → Lch) (s : State) : (setLch n f s).pairs = s.pairs := rfl
@[simp] theorem setLch_wbufs (n : Nat) (f : Lch → Lch) (s : State) : (setLch n f s).wbufs = s.wbufs := rfl
@[simp] theorem setLch_pkgs (n : Nat) (f : Lch → Lch) (s : State) : (setLch n f s).pkgs = s.pkgs := rfl

/-! `setBank` -/

@[simp] theorem setBank_pending (b : Nat) (f : Bank → Bank) (s : State) : (setBank b f s).pending = s.pending := rfl
@[simp] theorem setBank_dt (b : Nat) (f : Bank → Bank) (s : State) : (setBank b f s).dt = s.dt := rfl
@[simp] theorem setBank_rt (b : Nat) (f : Bank → Bank) (s : State) : (setBank b f s).rt = s.rt := rfl
@[simp] theorem setBank_rtPhase (b : Nat) (f : Bank → Bank) (s : State) : (setBank b f s).rtPhase = s.rtPhase := rfl
@[simp] theorem setBank_free (b : Nat) (f : Bank → Bank) (s : State) : (setBank b f s).free = s.free := rfl
@[simp] theorem setBank_sram (b : Nat) (f : Bank → Bank) (s : State) : (setBank b f s).sram = s.sram := rfl
@[simp] theorem setBank_mram (b : Nat) (f : Bank → Bank) (s : State) : (setBank b f s).mram = s.mram := rfl
@[simp] theorem setBank_rings (b : Nat) (f : Bank → Bank) (s : State) : (setBank b f s).rings = s.rings := rfl
@[simp] theorem setBank_nextHigh (b : Nat) (f : Bank → Bank) (s : State) : (setBank b f s).nextHigh = s.nextHigh := rfl
@[simp] theorem setBank_nextNormal (b : Nat) (f : Bank → Bank) (s : State) : (setBank b f s).nextNormal = s.nextNormal := rfl
@[simp] theorem setBank_started (b : Nat) (f : Bank → Bank) (s : State) : (setBank b f s).started = s.started := rfl
@[simp] theorem setBank_nextUid (b : Nat) (f : Bank → Bank) (s : State) : (setBank b f s).nextUid = s.nextUid := rfl
@[simp] theorem setBank_engPipe (b : Nat) (f : Bank → Bank) (s : State) : (setBank b f s).engPipe = s.engPipe := rfl
@[simp] theorem setBank_diagPipe (b : Nat) (f : Bank → Bank) (s : State) : (setBank b f s).diagPipe = s.diagPipe := rfl
@[simp] theorem setBank_diagBusy (b : Nat) (f : Bank → Bank) (s : State) : (setBank b f s).diagBusy = s.diagBusy := rfl
@[simp] theorem setBank_diagAnswer (b : Nat) (f : Bank → Bank) (s : State) : (setBank b f s).diagAnswer = s.diagAnswer := rfl
@[simp] theorem setBank_out (b : Nat) (f : Bank → Bank) (s : State) : (setBank b f s).out = s.out := rfl
@[simp] theorem setBank_transit (b : Nat) (f : Bank → Bank) (s : State) : (setBank b f s).transit = s.transit := rfl
@[simp] theorem setBank_linkDown (b : Nat) (f : Bank → Bank) (s : State) : (setBank b f s).linkDown = s.linkDown := rfl
@[simp] theorem setBank_safeHere (b : Nat) (f : Bank → Bank) (s : State) : (setBank b f s).safeHere = s.safeHere := rfl
@[simp] theorem setBank_host (b : Nat) (f : Bank → Bank) (s : State) : (setBank b f s).host = s.host := rfl
@[simp] theorem setBank_stg (b : Nat) (f : Bank → Bank) (s : State) : (setBank b f s).stg = s.stg := rfl
@[simp] theorem setBank_ses (b : Nat) (f : Bank → Bank) (s : State) : (setBank b f s).ses = s.ses := rfl
@[simp] theorem setBank_flt (b : Nat) (f : Bank → Bank) (s : State) : (setBank b f s).flt = s.flt := rfl
@[simp] theorem setBank_pw (b : Nat) (f : Bank → Bank) (s : State) : (setBank b f s).pw = s.pw := rfl
@[simp] theorem setBank_hw (b : Nat) (f : Bank → Bank) (s : State) : (setBank b f s).hw = s.hw := rfl
@[simp] theorem setBank_upd (b : Nat) (f : Bank → Bank) (s : State) : (setBank b f s).upd = s.upd := rfl
@[simp] theorem setBank_perf (b : Nat) (f : Bank → Bank) (s : State) : (setBank b f s).perf = s.perf := rfl
@[simp] theorem setBank_engInts (b : Nat) (f : Bank → Bank) (s : State) : (setBank b f s).engInts = s.engInts := rfl
@[simp] theorem setBank_keys (b : Nat) (f : Bank → Bank) (s : State) : (setBank b f s).keys = s.keys := rfl
@[simp] theorem setBank_heldEvents (b : Nat) (f : Bank → Bank) (s : State) : (setBank b f s).heldEvents = s.heldEvents := rfl
@[simp] theorem setBank_ld (b : Nat) (f : Bank → Bank) (s : State) : (setBank b f s).ld = { s.ld with banks := updN s.ld.banks b f } := rfl
@[simp] theorem setBank_hbs (b : Nat) (f : Bank → Bank) (s : State) : (setBank b f s).hbs = s.hbs := rfl
@[simp] theorem setBank_vs (b : Nat) (f : Bank → Bank) (s : State) : (setBank b f s).vs = s.vs := rfl
@[simp] theorem setBank_sw (b : Nat) (f : Bank → Bank) (s : State) : (setBank b f s).sw = s.sw := rfl
@[simp] theorem setBank_fs (b : Nat) (f : Bank → Bank) (s : State) : (setBank b f s).fs = s.fs := rfl
@[simp] theorem setBank_ns (b : Nat) (f : Bank → Bank) (s : State) : (setBank b f s).ns = s.ns := rfl
@[simp] theorem setBank_acc (b : Nat) (f : Bank → Bank) (s : State) : (setBank b f s).acc = s.acc := rfl
@[simp] theorem setBank_eng (b : Nat) (f : Bank → Bank) (s : State) : (setBank b f s).eng = s.eng := rfl
@[simp] theorem setBank_pairs (b : Nat) (f : Bank → Bank) (s : State) : (setBank b f s).pairs = s.pairs := rfl
@[simp] theorem setBank_wbufs (b : Nat) (f : Bank → Bank) (s : State) : (setBank b f s).wbufs = s.wbufs := rfl
@[simp] theorem setBank_pkgs (b : Nat) (f : Bank → Bank) (s : State) : (setBank b f s).pkgs = s.pkgs := rfl

/-! `setHb` -/

@[simp] theorem setHb_pending (h : Nat) (f : Hb → Hb) (s : State) : (setHb h f s).pending = s.pending := rfl
@[simp] theorem setHb_dt (h : Nat) (f : Hb → Hb) (s : State) : (setHb h f s).dt = s.dt := rfl
@[simp] theorem setHb_rt (h : Nat) (f : Hb → Hb) (s : State) : (setHb h f s).rt = s.rt := rfl
@[simp] theorem setHb_rtPhase (h : Nat) (f : Hb → Hb) (s : State) : (setHb h f s).rtPhase = s.rtPhase := rfl
@[simp] theorem setHb_free (h : Nat) (f : Hb → Hb) (s : State) : (setHb h f s).free = s.free := rfl
@[simp] theorem setHb_sram (h : Nat) (f : Hb → Hb) (s : State) : (setHb h f s).sram = s.sram := rfl
@[simp] theorem setHb_mram (h : Nat) (f : Hb → Hb) (s : State) : (setHb h f s).mram = s.mram := rfl
@[simp] theorem setHb_rings (h : Nat) (f : Hb → Hb) (s : State) : (setHb h f s).rings = s.rings := rfl
@[simp] theorem setHb_nextHigh (h : Nat) (f : Hb → Hb) (s : State) : (setHb h f s).nextHigh = s.nextHigh := rfl
@[simp] theorem setHb_nextNormal (h : Nat) (f : Hb → Hb) (s : State) : (setHb h f s).nextNormal = s.nextNormal := rfl
@[simp] theorem setHb_started (h : Nat) (f : Hb → Hb) (s : State) : (setHb h f s).started = s.started := rfl
@[simp] theorem setHb_nextUid (h : Nat) (f : Hb → Hb) (s : State) : (setHb h f s).nextUid = s.nextUid := rfl
@[simp] theorem setHb_engPipe (h : Nat) (f : Hb → Hb) (s : State) : (setHb h f s).engPipe = s.engPipe := rfl
@[simp] theorem setHb_diagPipe (h : Nat) (f : Hb → Hb) (s : State) : (setHb h f s).diagPipe = s.diagPipe := rfl
@[simp] theorem setHb_diagBusy (h : Nat) (f : Hb → Hb) (s : State) : (setHb h f s).diagBusy = s.diagBusy := rfl
@[simp] theorem setHb_diagAnswer (h : Nat) (f : Hb → Hb) (s : State) : (setHb h f s).diagAnswer = s.diagAnswer := rfl
@[simp] theorem setHb_out (h : Nat) (f : Hb → Hb) (s : State) : (setHb h f s).out = s.out := rfl
@[simp] theorem setHb_transit (h : Nat) (f : Hb → Hb) (s : State) : (setHb h f s).transit = s.transit := rfl
@[simp] theorem setHb_linkDown (h : Nat) (f : Hb → Hb) (s : State) : (setHb h f s).linkDown = s.linkDown := rfl
@[simp] theorem setHb_safeHere (h : Nat) (f : Hb → Hb) (s : State) : (setHb h f s).safeHere = s.safeHere := rfl
@[simp] theorem setHb_host (h : Nat) (f : Hb → Hb) (s : State) : (setHb h f s).host = s.host := rfl
@[simp] theorem setHb_stg (h : Nat) (f : Hb → Hb) (s : State) : (setHb h f s).stg = s.stg := rfl
@[simp] theorem setHb_ses (h : Nat) (f : Hb → Hb) (s : State) : (setHb h f s).ses = s.ses := rfl
@[simp] theorem setHb_flt (h : Nat) (f : Hb → Hb) (s : State) : (setHb h f s).flt = s.flt := rfl
@[simp] theorem setHb_pw (h : Nat) (f : Hb → Hb) (s : State) : (setHb h f s).pw = s.pw := rfl
@[simp] theorem setHb_hw (h : Nat) (f : Hb → Hb) (s : State) : (setHb h f s).hw = s.hw := rfl
@[simp] theorem setHb_upd (h : Nat) (f : Hb → Hb) (s : State) : (setHb h f s).upd = s.upd := rfl
@[simp] theorem setHb_perf (h : Nat) (f : Hb → Hb) (s : State) : (setHb h f s).perf = s.perf := rfl
@[simp] theorem setHb_engInts (h : Nat) (f : Hb → Hb) (s : State) : (setHb h f s).engInts = s.engInts := rfl
@[simp] theorem setHb_keys (h : Nat) (f : Hb → Hb) (s : State) : (setHb h f s).keys = s.keys := rfl
@[simp] theorem setHb_heldEvents (h : Nat) (f : Hb → Hb) (s : State) : (setHb h f s).heldEvents = s.heldEvents := rfl
@[simp] theorem setHb_ld (h : Nat) (f : Hb → Hb) (s : State) : (setHb h f s).ld = s.ld := rfl
@[simp] theorem setHb_hbs (h : Nat) (f : Hb → Hb) (s : State) : (setHb h f s).hbs = updN s.hbs h f := rfl
@[simp] theorem setHb_vs (h : Nat) (f : Hb → Hb) (s : State) : (setHb h f s).vs = s.vs := rfl
@[simp] theorem setHb_sw (h : Nat) (f : Hb → Hb) (s : State) : (setHb h f s).sw = s.sw := rfl
@[simp] theorem setHb_fs (h : Nat) (f : Hb → Hb) (s : State) : (setHb h f s).fs = s.fs := rfl
@[simp] theorem setHb_ns (h : Nat) (f : Hb → Hb) (s : State) : (setHb h f s).ns = s.ns := rfl
@[simp] theorem setHb_acc (h : Nat) (f : Hb → Hb) (s : State) : (setHb h f s).acc = s.acc := rfl
@[simp] theorem setHb_eng (h : Nat) (f : Hb → Hb) (s : State) : (setHb h f s).eng = s.eng := rfl
@[simp] theorem setHb_pairs (h : Nat) (f : Hb → Hb) (s : State) : (setHb h f s).pairs = s.pairs := rfl
@[simp] theorem setHb_wbufs (h : Nat) (f : Hb → Hb) (s : State) : (setHb h f s).wbufs = s.wbufs := rfl
@[simp] theorem setHb_pkgs (h : Nat) (f : Hb → Hb) (s : State) : (setHb h f s).pkgs = s.pkgs := rfl

/-! `modVs` -/

@[simp] theorem modVs_pending (f : VsSt → VsSt) (s : State) : (modVs f s).pending = s.pending := rfl
@[simp] theorem modVs_dt (f : VsSt → VsSt) (s : State) : (modVs f s).dt = s.dt := rfl
@[simp] theorem modVs_rt (f : VsSt → VsSt) (s : State) : (modVs f s).rt = s.rt := rfl
@[simp] theorem modVs_rtPhase (f : VsSt → VsSt) (s : State) : (modVs f s).rtPhase = s.rtPhase := rfl
@[simp] theorem modVs_free (f : VsSt → VsSt) (s : State) : (modVs f s).free = s.free := rfl
@[simp] theorem modVs_sram (f : VsSt → VsSt) (s : State) : (modVs f s).sram = s.sram := rfl
@[simp] theorem modVs_mram (f : VsSt → VsSt) (s : State) : (modVs f s).mram = s.mram := rfl
@[simp] theorem modVs_rings (f : VsSt → VsSt) (s : State) : (modVs f s).rings = s.rings := rfl
@[simp] theorem modVs_nextHigh (f : VsSt → VsSt) (s : State) : (modVs f s).nextHigh = s.nextHigh := rfl
@[simp] theorem modVs_nextNormal (f : VsSt → VsSt) (s : State) : (modVs f s).nextNormal = s.nextNormal := rfl
@[simp] theorem modVs_started (f : VsSt → VsSt) (s : State) : (modVs f s).started = s.started := rfl
@[simp] theorem modVs_nextUid (f : VsSt → VsSt) (s : State) : (modVs f s).nextUid = s.nextUid := rfl
@[simp] theorem modVs_engPipe (f : VsSt → VsSt) (s : State) : (modVs f s).engPipe = s.engPipe := rfl
@[simp] theorem modVs_diagPipe (f : VsSt → VsSt) (s : State) : (modVs f s).diagPipe = s.diagPipe := rfl
@[simp] theorem modVs_diagBusy (f : VsSt → VsSt) (s : State) : (modVs f s).diagBusy = s.diagBusy := rfl
@[simp] theorem modVs_diagAnswer (f : VsSt → VsSt) (s : State) : (modVs f s).diagAnswer = s.diagAnswer := rfl
@[simp] theorem modVs_out (f : VsSt → VsSt) (s : State) : (modVs f s).out = s.out := rfl
@[simp] theorem modVs_transit (f : VsSt → VsSt) (s : State) : (modVs f s).transit = s.transit := rfl
@[simp] theorem modVs_linkDown (f : VsSt → VsSt) (s : State) : (modVs f s).linkDown = s.linkDown := rfl
@[simp] theorem modVs_safeHere (f : VsSt → VsSt) (s : State) : (modVs f s).safeHere = s.safeHere := rfl
@[simp] theorem modVs_host (f : VsSt → VsSt) (s : State) : (modVs f s).host = s.host := rfl
@[simp] theorem modVs_stg (f : VsSt → VsSt) (s : State) : (modVs f s).stg = s.stg := rfl
@[simp] theorem modVs_ses (f : VsSt → VsSt) (s : State) : (modVs f s).ses = s.ses := rfl
@[simp] theorem modVs_flt (f : VsSt → VsSt) (s : State) : (modVs f s).flt = s.flt := rfl
@[simp] theorem modVs_pw (f : VsSt → VsSt) (s : State) : (modVs f s).pw = s.pw := rfl
@[simp] theorem modVs_hw (f : VsSt → VsSt) (s : State) : (modVs f s).hw = s.hw := rfl
@[simp] theorem modVs_upd (f : VsSt → VsSt) (s : State) : (modVs f s).upd = s.upd := rfl
@[simp] theorem modVs_perf (f : VsSt → VsSt) (s : State) : (modVs f s).perf = s.perf := rfl
@[simp] theorem modVs_engInts (f : VsSt → VsSt) (s : State) : (modVs f s).engInts = s.engInts := rfl
@[simp] theorem modVs_keys (f : VsSt → VsSt) (s : State) : (modVs f s).keys = s.keys := rfl
@[simp] theorem modVs_heldEvents (f : VsSt → VsSt) (s : State) : (modVs f s).heldEvents = s.heldEvents := rfl
@[simp] theorem modVs_ld (f : VsSt → VsSt) (s : State) : (modVs f s).ld = s.ld := rfl
@[simp] theorem modVs_hbs (f : VsSt → VsSt) (s : State) : (modVs f s).hbs = s.hbs := rfl
@[simp] theorem modVs_vs (f : VsSt → VsSt) (s : State) : (modVs f s).vs = f s.vs := rfl
@[simp] theorem modVs_sw (f : VsSt → VsSt) (s : State) : (modVs f s).sw = s.sw := rfl
@[simp] theorem modVs_fs (f : VsSt → VsSt) (s : State) : (modVs f s).fs = s.fs := rfl
@[simp] theorem modVs_ns (f : VsSt → VsSt) (s : State) : (modVs f s).ns = s.ns := rfl
@[simp] theorem modVs_acc (f : VsSt → VsSt) (s : State) : (modVs f s).acc = s.acc := rfl
@[simp] theorem modVs_eng (f : VsSt → VsSt) (s : State) : (modVs f s).eng = s.eng := rfl
@[simp] theorem modVs_pairs (f : VsSt → VsSt) (s : State) : (modVs f s).pairs = s.pairs := rfl
@[simp] theorem modVs_wbufs (f : VsSt → VsSt) (s : State) : (modVs f s).wbufs = s.wbufs := rfl
@[simp] theorem modVs_pkgs (f : VsSt → VsSt) (s : State) : (modVs f s).pkgs = s.pkgs := rfl

/-! `setVlv` -/

@[simp] theorem setVlv_pending (v : Nat) (f : Vlv → Vlv) (s : State) : (setVlv v f s).pending = s.pending := rfl
@[simp] theorem setVlv_dt (v : Nat) (f : Vlv → Vlv) (s : State) : (setVlv v f s).dt = s.dt := rfl
@[simp] theorem setVlv_rt (v : Nat) (f : Vlv → Vlv) (s : State) : (setVlv v f s).rt = s.rt := rfl
@[simp] theorem setVlv_rtPhase (v : Nat) (f : Vlv → Vlv) (s : State) : (setVlv v f s).rtPhase = s.rtPhase := rfl
@[simp] theorem setVlv_free (v : Nat) (f : Vlv → Vlv) (s : State) : (setVlv v f s).free = s.free := rfl
@[simp] theorem setVlv_sram (v : Nat) (f : Vlv → Vlv) (s : State) : (setVlv v f s).sram = s.sram := rfl
@[simp] theorem setVlv_mram (v : Nat) (f : Vlv → Vlv) (s : State) : (setVlv v f s).mram = s.mram := rfl
@[simp] theorem setVlv_rings (v : Nat) (f : Vlv → Vlv) (s : State) : (setVlv v f s).rings = s.rings := rfl
@[simp] theorem setVlv_nextHigh (v : Nat) (f : Vlv → Vlv) (s : State) : (setVlv v f s).nextHigh = s.nextHigh := rfl
@[simp] theorem setVlv_nextNormal (v : Nat) (f : Vlv → Vlv) (s : State) : (setVlv v f s).nextNormal = s.nextNormal := rfl
@[simp] theorem setVlv_started (v : Nat) (f : Vlv → Vlv) (s : State) : (setVlv v f s).started = s.started := rfl
@[simp] theorem setVlv_nextUid (v : Nat) (f : Vlv → Vlv) (s : State) : (setVlv v f s).nextUid = s.nextUid := rfl
@[simp] theorem setVlv_engPipe (v : Nat) (f : Vlv → Vlv) (s : State) : (setVlv v f s).engPipe = s.engPipe := rfl
@[simp] theorem setVlv_diagPipe (v : Nat) (f : Vlv → Vlv) (s : State) : (setVlv v f s).diagPipe = s.diagPipe := rfl
@[simp] theorem setVlv_diagBusy (v : Nat) (f : Vlv → Vlv) (s : State) : (setVlv v f s).diagBusy = s.diagBusy := rfl
@[simp] theorem setVlv_diagAnswer (v : Nat) (f : Vlv → Vlv) (s : State) : (setVlv v f s).diagAnswer = s.diagAnswer := rfl
@[simp] theorem setVlv_out (v : Nat) (f : Vlv → Vlv) (s : State) : (setVlv v f s).out = s.out := rfl
@[simp] theorem setVlv_transit (v : Nat) (f : Vlv → Vlv) (s : State) : (setVlv v f s).transit = s.transit := rfl
@[simp] theorem setVlv_linkDown (v : Nat) (f : Vlv → Vlv) (s : State) : (setVlv v f s).linkDown = s.linkDown := rfl
@[simp] theorem setVlv_safeHere (v : Nat) (f : Vlv → Vlv) (s : State) : (setVlv v f s).safeHere = s.safeHere := rfl
@[simp] theorem setVlv_host (v : Nat) (f : Vlv → Vlv) (s : State) : (setVlv v f s).host = s.host := rfl
@[simp] theorem setVlv_stg (v : Nat) (f : Vlv → Vlv) (s : State) : (setVlv v f s).stg = s.stg := rfl
@[simp] theorem setVlv_ses (v : Nat) (f : Vlv → Vlv) (s : State) : (setVlv v f s).ses = s.ses := rfl
@[simp] theorem setVlv_flt (v : Nat) (f : Vlv → Vlv) (s : State) : (setVlv v f s).flt = s.flt := rfl
@[simp] theorem setVlv_pw (v : Nat) (f : Vlv → Vlv) (s : State) : (setVlv v f s).pw = s.pw := rfl
@[simp] theorem setVlv_hw (v : Nat) (f : Vlv → Vlv) (s : State) : (setVlv v f s).hw = s.hw := rfl
@[simp] theorem setVlv_upd (v : Nat) (f : Vlv → Vlv) (s : State) : (setVlv v f s).upd = s.upd := rfl
@[simp] theorem setVlv_perf (v : Nat) (f : Vlv → Vlv) (s : State) : (setVlv v f s).perf = s.perf := rfl
@[simp] theorem setVlv_engInts (v : Nat) (f : Vlv → Vlv) (s : State) : (setVlv v f s).engInts = s.engInts := rfl
@[simp] theorem setVlv_keys (v : Nat) (f : Vlv → Vlv) (s : State) : (setVlv v f s).keys = s.keys := rfl
@[simp] theorem setVlv_heldEvents (v : Nat) (f : Vlv → Vlv) (s : State) : (setVlv v f s).heldEvents = s.heldEvents := rfl
@[simp] theorem setVlv_ld (v : Nat) (f : Vlv → Vlv) (s : State) : (setVlv v f s).ld = s.ld := rfl
@[simp] theorem setVlv_hbs (v : Nat) (f : Vlv → Vlv) (s : State) : (setVlv v f s).hbs = s.hbs := rfl
@[simp] theorem setVlv_vs (v : Nat) (f : Vlv → Vlv) (s : State) : (setVlv v f s).vs = { s.vs with vlv := updN s.vs.vlv v f } := rfl
@[simp] theorem setVlv_sw (v : Nat) (f : Vlv → Vlv) (s : State) : (setVlv v f s).sw = s.sw := rfl
@[simp] theorem setVlv_fs (v : Nat) (f : Vlv → Vlv) (s : State) : (setVlv v f s).fs = s.fs := rfl
@[simp] theorem setVlv_ns (v : Nat) (f : Vlv → Vlv) (s : State) : (setVlv v f s).ns = s.ns := rfl
@[simp] theorem setVlv_acc (v : Nat) (f : Vlv → Vlv) (s : State) : (setVlv v f s).acc = s.acc := rfl
@[simp] theorem setVlv_eng (v : Nat) (f : Vlv → Vlv) (s : State) : (setVlv v f s).eng = s.eng := rfl
@[simp] theorem setVlv_pairs (v : Nat) (f : Vlv → Vlv) (s : State) : (setVlv v f s).pairs = s.pairs := rfl
@[simp] theorem setVlv_wbufs (v : Nat) (f : Vlv → Vlv) (s : State) : (setVlv v f s).wbufs = s.wbufs := rfl
@[simp] theorem setVlv_pkgs (v : Nat) (f : Vlv → Vlv) (s : State) : (setVlv v f s).pkgs = s.pkgs := rfl

/-! `setVg` -/

@[simp] theorem setVg_pending (g : Nat) (f : Vg → Vg) (s : State) : (setVg g f s).pending = s.pending := rfl
@[simp] theorem setVg_dt (g : Nat) (f : Vg → Vg) (s : State) : (setVg g f s).dt = s.dt := rfl
@[simp] theorem setVg_rt (g : Nat) (f : Vg → Vg) (s : State) : (setVg g f s).rt = s.rt := rfl
@[simp] theorem setVg_rtPhase (g : Nat) (f : Vg → Vg) (s : State) : (setVg g f s).rtPhase = s.rtPhase := rfl
@[simp] theorem setVg_free (g : Nat) (f : Vg → Vg) (s : State) : (setVg g f s).free = s.free := rfl
@[simp] theorem setVg_sram (g : Nat) (f : Vg → Vg) (s : State) : (setVg g f s).sram = s.sram := rfl
@[simp] theorem setVg_mram (g : Nat) (f : Vg → Vg) (s : State) : (setVg g f s).mram = s.mram := rfl
@[simp] theorem setVg_rings (g : Nat) (f : Vg → Vg) (s : State) : (setVg g f s).rings = s.rings := rfl
@[simp] theorem setVg_nextHigh (g : Nat) (f : Vg → Vg) (s : State) : (setVg g f s).nextHigh = s.nextHigh := rfl
@[simp] theorem setVg_nextNormal (g : Nat) (f : Vg → Vg) (s : State) : (setVg g f s).nextNormal = s.nextNormal := rfl
@[simp] theorem setVg_started (g : Nat) (f : Vg → Vg) (s : State) : (setVg g f s).started = s.started := rfl
@[simp] theorem setVg_nextUid (g : Nat) (f : Vg → Vg) (s : State) : (setVg g f s).nextUid = s.nextUid := rfl
@[simp] theorem setVg_engPipe (g : Nat) (f : Vg → Vg) (s : State) : (setVg g f s).engPipe = s.engPipe := rfl
@[simp] theorem setVg_diagPipe (g : Nat) (f : Vg → Vg) (s : State) : (setVg g f s).diagPipe = s.diagPipe := rfl
@[simp] theorem setVg_diagBusy (g : Nat) (f : Vg → Vg) (s : State) : (setVg g f s).diagBusy = s.diagBusy := rfl
@[simp] theorem setVg_diagAnswer (g : Nat) (f : Vg → Vg) (s : State) : (setVg g f s).diagAnswer = s.diagAnswer := rfl
@[simp] theorem setVg_out (g : Nat) (f : Vg → Vg) (s : State) : (setVg g f s).out = s.out := rfl
@[simp] theorem setVg_transit (g : Nat) (f : Vg → Vg) (s : State) : (setVg g f s).transit = s.transit := rfl
@[simp] theorem setVg_linkDown (g : Nat) (f : Vg → Vg) (s : State) : (setVg g f s).linkDown = s.linkDown := rfl
@[simp] theorem setVg_safeHere (g : Nat) (f : Vg → Vg) (s : State) : (setVg g f s).safeHere = s.safeHere := rfl
@[simp] theorem setVg_host (g : Nat) (f : Vg → Vg) (s : State) : (setVg g f s).host = s.host := rfl
@[simp] theorem setVg_stg (g : Nat) (f : Vg → Vg) (s : State) : (setVg g f s).stg = s.stg := rfl
@[simp] theorem setVg_ses (g : Nat) (f : Vg → Vg) (s : State) : (setVg g f s).ses = s.ses := rfl
@[simp] theorem setVg_flt (g : Nat) (f : Vg → Vg) (s : State) : (setVg g f s).flt = s.flt := rfl
@[simp] theorem setVg_pw (g : Nat) (f : Vg → Vg) (s : State) : (setVg g f s).pw = s.pw := rfl
@[simp] theorem setVg_hw (g : Nat) (f : Vg → Vg) (s : State) : (setVg g f s).hw = s.hw := rfl
@[simp] theorem setVg_upd (g : Nat) (f : Vg → Vg) (s : State) : (setVg g f s).upd = s.upd := rfl
@[simp] theorem setVg_perf (g : Nat) (f : Vg → Vg) (s : State) : (setVg g f s).perf = s.perf := rfl
@[simp] theorem setVg_engInts (g : Nat) (f : Vg → Vg) (s : State) : (setVg g f s).engInts = s.engInts := rfl
@[simp] theorem setVg_keys (g : Nat) (f : Vg → Vg) (s : State) : (setVg g f s).keys = s.keys := rfl
@[simp] theorem setVg_heldEvents (g : Nat) (f : Vg → Vg) (s : State) : (setVg g f s).heldEvents = s.heldEvents := rfl
@[simp] theorem setVg_ld (g : Nat) (f : Vg → Vg) (s : State) : (setVg g f s).ld = s.ld := rfl
@[simp] theorem setVg_hbs (g : Nat) (f : Vg → Vg) (s : State) : (setVg g f s).hbs = s.hbs := rfl
@[simp] theorem setVg_vs (g : Nat) (f : Vg → Vg) (s : State) : (setVg g f s).vs = { s.vs with vg := updN s.vs.vg g f } := rfl
@[simp] theorem setVg_sw (g : Nat) (f : Vg → Vg) (s : State) : (setVg g f s).sw = s.sw := rfl
@[simp] theorem setVg_fs (g : Nat) (f : Vg → Vg) (s : State) : (setVg g f s).fs = s.fs := rfl
@[simp] theorem setVg_ns (g : Nat) (f : Vg → Vg) (s : State) : (setVg g f s).ns = s.ns := rfl
@[simp] theorem setVg_acc (g : Nat) (f : Vg → Vg) (s : State) : (setVg g f s).acc = s.acc := rfl
@[simp] theorem setVg_eng (g : Nat) (f : Vg → Vg) (s : State) : (setVg g f s).eng = s.eng := rfl
@[simp] theorem setVg_pairs (g : Nat) (f : Vg → Vg) (s : State) : (setVg g f s).pairs = s.pairs := rfl
@[simp] theorem setVg_wbufs (g : Nat) (f : Vg → Vg) (s : State) : (setVg g f s).wbufs = s.wbufs := rfl
@[simp] theorem setVg_pkgs (g : Nat) (f : Vg → Vg) (s : State) : (setVg g f s).pkgs = s.pkgs := rfl

/-! `modSw` -/

@[simp] theorem modSw_pending (f : SwSt → SwSt) (s : State) : (modSw f s).pending = s.pending := rfl
@[simp] theorem modSw_dt (f : SwSt → SwSt) (s : State) : (modSw f s).dt = s.dt := rfl
@[simp] theorem modSw_rt (f : SwSt → SwSt) (s : State) : (modSw f s).rt = s.rt := rfl
@[simp] theorem modSw_rtPhase (f : SwSt → SwSt) (s : State) : (modSw f s).rtPhase = s.rtPhase := rfl
@[simp] theorem modSw_free (f : SwSt → SwSt) (s : State) : (modSw f s).free = s.free := rfl
@[simp] theorem modSw_sram (f : SwSt → SwSt) (s : State) : (modSw f s).sram = s.sram := rfl
@[simp] theorem modSw_mram (f : SwSt → SwSt) (s : State) : (modSw f s).mram = s.mram := rfl
@[simp] theorem modSw_rings (f : SwSt → SwSt) (s : State) : (modSw f s).rings = s.rings := rfl
@[simp] theorem modSw_nextHigh (f : SwSt → SwSt) (s : State) : (modSw f s).nextHigh = s.nextHigh := rfl
@[simp] theorem modSw_nextNormal (f : SwSt → SwSt) (s : State) : (modSw f s).nextNormal = s.nextNormal := rfl
@[simp] theorem modSw_started (f : SwSt → SwSt) (s : State) : (modSw f s).started = s.started := rfl
@[simp] theorem modSw_nextUid (f : SwSt → SwSt) (s : State) : (modSw f s).nextUid = s.nextUid := rfl
@[simp] theorem modSw_engPipe (f : SwSt → SwSt) (s : State) : (modSw f s).engPipe = s.engPipe := rfl
@[simp] theorem modSw_diagPipe (f : SwSt → SwSt) (s : State) : (modSw f s).diagPipe = s.diagPipe := rfl
@[simp] theorem modSw_diagBusy (f : SwSt → SwSt) (s : State) : (modSw f s).diagBusy = s.diagBusy := rfl
@[simp] theorem modSw_diagAnswer (f : SwSt → SwSt) (s : State) : (modSw f s).diagAnswer = s.diagAnswer := rfl
@[simp] theorem modSw_out (f : SwSt → SwSt) (s : State) : (modSw f s).out = s.out := rfl
@[simp] theorem modSw_transit (f : SwSt → SwSt) (s : State) : (modSw f s).transit = s.transit := rfl
@[simp] theorem modSw_linkDown (f : SwSt → SwSt) (s : State) : (modSw f s).linkDown = s.linkDown := rfl
@[simp] theorem modSw_safeHere (f : SwSt → SwSt) (s : State) : (modSw f s).safeHere = s.safeHere := rfl
@[simp] theorem modSw_host (f : SwSt → SwSt) (s : State) : (modSw f s).host = s.host := rfl
@[simp] theorem modSw_stg (f : SwSt → SwSt) (s : State) : (modSw f s).stg = s.stg := rfl
@[simp] theorem modSw_ses (f : SwSt → SwSt) (s : State) : (modSw f s).ses = s.ses := rfl
@[simp] theorem modSw_flt (f : SwSt → SwSt) (s : State) : (modSw f s).flt = s.flt := rfl
@[simp] theorem modSw_pw (f : SwSt → SwSt) (s : State) : (modSw f s).pw = s.pw := rfl
@[simp] theorem modSw_hw (f : SwSt → SwSt) (s : State) : (modSw f s).hw = s.hw := rfl
@[simp] theorem modSw_upd (f : SwSt → SwSt) (s : State) : (modSw f s).upd = s.upd := rfl
@[simp] theorem modSw_perf (f : SwSt → SwSt) (s : State) : (modSw f s).perf = s.perf := rfl
@[simp] theorem modSw_engInts (f : SwSt → SwSt) (s : State) : (modSw f s).engInts = s.engInts := rfl
@[simp] theorem modSw_keys (f : SwSt → SwSt) (s : State) : (modSw f s).keys = s.keys := rfl
@[simp] theorem modSw_heldEvents (f : SwSt → SwSt) (s : State) : (modSw f s).heldEvents = s.heldEvents := rfl
@[simp] theorem modSw_ld (f : SwSt → SwSt) (s : State) : (modSw f s).ld = s.ld := rfl
@[simp] theorem modSw_hbs (f : SwSt → SwSt) (s : State) : (modSw f s).hbs = s.hbs := rfl
@[simp] theorem modSw_vs (f : SwSt → SwSt) (s : State) : (modSw f s).vs = s.vs := rfl
@[simp] theorem modSw_sw (f : SwSt → SwSt) (s : State) : (modSw f s).sw = f s.sw := rfl
@[simp] theorem modSw_fs (f : SwSt → SwSt) (s : State) : (modSw f s).fs = s.fs := rfl
@[simp] theorem modSw_ns (f : SwSt → SwSt) (s : State) : (modSw f s).ns = s.ns := rfl
@[simp] theorem modSw_acc (f : SwSt → SwSt) (s : State) : (modSw f s).acc = s.acc := rfl
@[simp] theorem modSw_eng (f : SwSt → SwSt) (s : State) : (modSw f s).eng = s.eng := rfl
@[simp] theorem modSw_pairs (f : SwSt → SwSt) (s : State) : (modSw f s).pairs = s.pairs := rfl
@[simp] theorem modSw_wbufs (f : SwSt → SwSt) (s : State) : (modSw f s).wbufs = s.wbufs := rfl
@[simp] theorem modSw_pkgs (f : SwSt → SwSt) (s : State) : (modSw f s).pkgs = s.pkgs := rfl

/-! `setSwi` -/

@[simp] theorem setSwi_pending (n : Nat) (f : Swi → Swi) (s : State) : (setSwi n f s).pending = s.pending := rfl
@[simp] theorem setSwi_dt (n : Nat) (f : Swi → Swi) (s : State) : (setSwi n f s).dt = s.dt := rfl
@[simp] theorem setSwi_rt (n : Nat) (f : Swi → Swi) (s : State) : (setSwi n f s).rt = s.rt := rfl
@[simp] theorem setSwi_rtPhase (n : Nat) (f : Swi → Swi) (s : State) : (setSwi n f s).rtPhase = s.rtPhase := rfl
@[simp] theorem setSwi_free (n : Nat) (f : Swi → Swi) (s : State) : (setSwi n f s).free = s.free := rfl
@[simp] theorem setSwi_sram (n : Nat) (f : Swi → Swi) (s : State) : (setSwi n f s).sram = s.sram := rfl
@[simp] theorem setSwi_mram (n : Nat) (f : Swi → Swi) (s : State) : (setSwi n f s).mram = s.mram := rfl
@[simp] theorem setSwi_rings (n : Nat) (f : Swi → Swi) (s : State) : (setSwi n f s).rings = s.rings := rfl
@[simp] theorem setSwi_nextHigh (n : Nat) (f : Swi → Swi) (s : State) : (setSwi n f s).nextHigh = s.nextHigh := rfl
@[simp] theorem setSwi_nextNormal (n : Nat) (f : Swi → Swi) (s : State) : (setSwi n f s).nextNormal = s.nextNormal := rfl
@[simp] theorem setSwi_started (n : Nat) (f : Swi → Swi) (s : State) : (setSwi n f s).started = s.started := rfl
@[simp] theorem setSwi_nextUid (n : Nat) (f : Swi → Swi) (s : State) : (setSwi n f s).nextUid = s.nextUid := rfl
@[simp] theorem setSwi_engPipe (n : Nat) (f : Swi → Swi) (s : State) : (setSwi n f s).engPipe = s.engPipe := rfl
@[simp] theorem setSwi_diagPipe (n : Nat) (f : Swi → Swi) (s : State) : (setSwi n f s).diagPipe = s.diagPipe := rfl
@[simp] theorem setSwi_diagBusy (n : Nat) (f : Swi → Swi) (s : State) : (setSwi n f s).diagBusy = s.diagBusy := rfl
@[simp] theorem setSwi_diagAnswer (n : Nat) (f : Swi → Swi) (s : State) : (setSwi n f s).diagAnswer = s.diagAnswer := rfl
@[simp] theorem setSwi_out (n : Nat) (f : Swi → Swi) (s : State) : (setSwi n f s).out = s.out := rfl
@[simp] theorem setSwi_transit (n : Nat) (f : Swi → Swi) (s : State) : (setSwi n f s).transit = s.transit := rfl
@[simp] theorem setSwi_linkDown (n : Nat) (f : Swi → Swi) (s : State) : (setSwi n f s).linkDown = s.linkDown := rfl
@[simp] theorem setSwi_safeHere (n : Nat) (f : Swi → Swi) (s : State) : (setSwi n f s).safeHere = s.safeHere := rfl
@[simp] theorem setSwi_host (n : Nat) (f : Swi → Swi) (s : State) : (setSwi n f s).host = s.host := rfl
@[simp] theorem setSwi_stg (n : Nat) (f : Swi → Swi) (s : State) : (setSwi n f s).stg = s.stg := rfl
@[simp] theorem setSwi_ses (n : Nat) (f : Swi → Swi) (s : State) : (setSwi n f s).ses = s.ses := rfl
@[simp] theorem setSwi_flt (n : Nat) (f : Swi → Swi) (s : State) : (setSwi n f s).flt = s.flt := rfl
@[simp] theorem setSwi_pw (n : Nat) (f : Swi → Swi) (s : State) : (setSwi n f s).pw = s.pw := rfl
@[simp] theorem setSwi_hw (n : Nat) (f : Swi → Swi) (s : State) : (setSwi n f s).hw = s.hw := rfl
@[simp] theorem setSwi_upd (n : Nat) (f : Swi → Swi) (s : State) : (setSwi n f s).upd = s.upd := rfl
@[simp] theorem setSwi_perf (n : Nat) (f : Swi → Swi) (s : State) : (setSwi n f s).perf = s.perf := rfl
@[simp] theorem setSwi_engInts (n : Nat) (f : Swi → Swi) (s : State) : (setSwi n f s).engInts = s.engInts := rfl
@[simp] theorem setSwi_keys (n : Nat) (f : Swi → Swi) (s : State) : (setSwi n f s).keys = s.keys := rfl
@[simp] theorem setSwi_heldEvents (n : Nat) (f : Swi → Swi) (s : State) : (setSwi n f s).heldEvents = s.heldEvents := rfl
@[simp] theorem setSwi_ld (n : Nat) (f : Swi → Swi) (s : State) : (setSwi n f s).ld = s.ld := rfl
@[simp] theorem setSwi_hbs (n : Nat) (f : Swi → Swi) (s : State) : (setSwi n f s).hbs = s.hbs := rfl
@[simp] theorem setSwi_vs (n : Nat) (f : Swi → Swi) (s : State) : (setSwi n f s).vs = s.vs := rfl
@[simp] theorem setSwi_sw (n : Nat) (f : Swi → Swi) (s : State) : (setSwi n f s).sw = { s.sw with inputs := updN s.sw.inputs n f } := rfl
@[simp] theorem setSwi_fs (n : Nat) (f : Swi → Swi) (s : State) : (setSwi n f s).fs = s.fs := rfl
@[simp] theorem setSwi_ns (n : Nat) (f : Swi → Swi) (s : State) : (setSwi n f s).ns = s.ns := rfl
@[simp] theorem setSwi_acc (n : Nat) (f : Swi → Swi) (s : State) : (setSwi n f s).acc = s.acc := rfl
@[simp] theorem setSwi_eng (n : Nat) (f : Swi → Swi) (s : State) : (setSwi n f s).eng = s.eng := rfl
@[simp] theorem setSwi_pairs (n : Nat) (f : Swi → Swi) (s : State) : (setSwi n f s).pairs = s.pairs := rfl
@[simp] theorem setSwi_wbufs (n : Nat) (f : Swi → Swi) (s : State) : (setSwi n f s).wbufs = s.wbufs := rfl
@[simp] theorem setSwi_pkgs (n : Nat) (f : Swi → Swi) (s : State) : (setSwi n f s).pkgs = s.pkgs := rfl

/-! `modFs` -/

@[simp] theorem modFs_pending (f : FsSt → FsSt) (s : State) : (modFs f s).pending = s.pending := rfl
@[simp] theorem modFs_dt (f : FsSt → FsSt) (s : State) : (modFs f s).dt = s.dt := rfl
@[simp] theorem modFs_rt (f : FsSt → FsSt) (s : State) : (modFs f s).rt = s.rt := rfl
@[simp] theorem modFs_rtPhase (f : FsSt → FsSt) (s : State) : (modFs f s).rtPhase = s.rtPhase := rfl
@[simp] theorem modFs_free (f : FsSt → FsSt) (s : State) : (modFs f s).free = s.free := rfl
@[simp] theorem modFs_sram (f : FsSt → FsSt) (s : State) : (modFs f s).sram = s.sram := rfl
@[simp] theorem modFs_mram (f : FsSt → FsSt) (s : State) : (modFs f s).mram = s.mram := rfl
@[simp] theorem modFs_rings (f : FsSt → FsSt) (s : State) : (modFs f s).rings = s.rings := rfl
@[simp] theorem modFs_nextHigh (f : FsSt → FsSt) (s : State) : (modFs f s).nextHigh = s.nextHigh := rfl
@[simp] theorem modFs_nextNormal (f : FsSt → FsSt) (s : State) : (modFs f s).nextNormal = s.nextNormal := rfl
@[simp] theorem modFs_started (f : FsSt → FsSt) (s : State) : (modFs f s).started = s.started := rfl
@[simp] theorem modFs_nextUid (f : FsSt → FsSt) (s : State) : (modFs f s).nextUid = s.nextUid := rfl
@[simp] theorem modFs_engPipe (f : FsSt → FsSt) (s : State) : (modFs f s).engPipe = s.engPipe := rfl
@[simp] theorem modFs_diagPipe (f : FsSt → FsSt) (s : State) : (modFs f s).diagPipe = s.diagPipe := rfl
@[simp] theorem modFs_diagBusy (f : FsSt → FsSt) (s : State) : (modFs f s).diagBusy = s.diagBusy := rfl
@[simp] theorem modFs_diagAnswer (f : FsSt → FsSt) (s : State) : (modFs f s).diagAnswer = s.diagAnswer := rfl
@[simp] theorem modFs_out (f : FsSt → FsSt) (s : State) : (modFs f s).out = s.out := rfl
@[simp] theorem modFs_transit (f : FsSt → FsSt) (s : State) : (modFs f s).transit = s.transit := rfl
@[simp] theorem modFs_linkDown (f : FsSt → FsSt) (s : State) : (modFs f s).linkDown = s.linkDown := rfl
@[simp] theorem modFs_safeHere (f : FsSt → FsSt) (s : State) : (modFs f s).safeHere = s.safeHere := rfl
@[simp] theorem modFs_host (f : FsSt → FsSt) (s : State) : (modFs f s).host = s.host := rfl
@[simp] theorem modFs_stg (f : FsSt → FsSt) (s : State) : (modFs f s).stg = s.stg := rfl
@[simp] theorem modFs_ses (f : FsSt → FsSt) (s : State) : (modFs f s).ses = s.ses := rfl
@[simp] theorem modFs_flt (f : FsSt → FsSt) (s : State) : (modFs f s).flt = s.flt := rfl
@[simp] theorem modFs_pw (f : FsSt → FsSt) (s : State) : (modFs f s).pw = s.pw := rfl
@[simp] theorem modFs_hw (f : FsSt → FsSt) (s : State) : (modFs f s).hw = s.hw := rfl
@[simp] theorem modFs_upd (f : FsSt → FsSt) (s : State) : (modFs f s).upd = s.upd := rfl
@[simp] theorem modFs_perf (f : FsSt → FsSt) (s : State) : (modFs f s).perf = s.perf := rfl
@[simp] theorem modFs_engInts (f : FsSt → FsSt) (s : State) : (modFs f s).engInts = s.engInts := rfl
@[simp] theorem modFs_keys (f : FsSt → FsSt) (s : State) : (modFs f s).keys = s.keys := rfl
@[simp] theorem modFs_heldEvents (f : FsSt → FsSt) (s : State) : (modFs f s).heldEvents = s.heldEvents := rfl
@[simp] theorem modFs_ld (f : FsSt → FsSt) (s : State) : (modFs f s).ld = s.ld := rfl
@[simp] theorem modFs_hbs (f : FsSt → FsSt) (s : State) : (modFs f s).hbs = s.hbs := rfl
@[simp] theorem modFs_vs (f : FsSt → FsSt) (s : State) : (modFs f s).vs = s.vs := rfl
@[simp] theorem modFs_sw (f : FsSt → FsSt) (s : State) : (modFs f s).sw = s.sw := rfl
@[simp] theorem modFs_fs (f : FsSt → FsSt) (s : State) : (modFs f s).fs = f s.fs := rfl
@[simp] theorem modFs_ns (f : FsSt → FsSt) (s : State) : (modFs f s).ns = s.ns := rfl
@[simp] theorem modFs_acc (f : FsSt → FsSt) (s : State) : (modFs f s).acc = s.acc := rfl
@[simp] theorem modFs_eng (f : FsSt → FsSt) (s : State) : (modFs f s).eng = s.eng := rfl
@[simp] theorem modFs_pairs (f : FsSt → FsSt) (s : State) : (modFs f s).pairs = s.pairs := rfl
@[simp] theorem modFs_wbufs (f : FsSt → FsSt) (s : State) : (modFs f s).wbufs = s.wbufs := rfl
@[simp] theorem modFs_pkgs (f : FsSt → FsSt) (s : State) : (modFs f s).pkgs = s.pkgs := rfl

/-! `setFio` -/

@[simp] theorem setFio_pending (n : Nat) (f : Fio → Fio) (s : State) : (setFio n f s).pending = s.pending := rfl
@[simp] theorem setFio_dt (n : Nat) (f : Fio → Fio) (s : State) : (setFio n f s).dt = s.dt := rfl
@[simp] theorem setFio_rt (n : Nat) (f : Fio → Fio) (s : State) : (setFio n f s).rt = s.rt := rfl
@[simp] theorem setFio_rtPhase (n : Nat) (f : Fio → Fio) (s : State) : (setFio n f s).rtPhase = s.rtPhase := rfl
@[simp] theorem setFio_free (n : Nat) (f : Fio → Fio) (s : State) : (setFio n f s).free = s.free := rfl
@[simp] theorem setFio_sram (n : Nat) (f : Fio → Fio) (s : State) : (setFio n f s).sram = s.sram := rfl
@[simp] theorem setFio_mram (n : Nat) (f : Fio → Fio) (s : State) : (setFio n f s).mram = s.mram := rfl
@[simp] theorem setFio_rings (n : Nat) (f : Fio → Fio) (s : State) : (setFio n f s).rings = s.rings := rfl
@[simp] theorem setFio_nextHigh (n : Nat) (f : Fio → Fio) (s : State) : (setFio n f s).nextHigh = s.nextHigh := rfl
@[simp] theorem setFio_nextNormal (n : Nat) (f : Fio → Fio) (s : State) : (setFio n f s).nextNormal = s.nextNormal := rfl
@[simp] theorem setFio_started (n : Nat) (f : Fio → Fio) (s : State) : (setFio n f s).started = s.started := rfl
@[simp] theorem setFio_nextUid (n : Nat) (f : Fio → Fio) (s : State) : (setFio n f s).nextUid = s.nextUid := rfl
@[simp] theorem setFio_engPipe (n : Nat) (f : Fio → Fio) (s : State) : (setFio n f s).engPipe = s.engPipe := rfl
@[simp] theorem setFio_diagPipe (n : Nat) (f : Fio → Fio) (s : State) : (setFio n f s).diagPipe = s.diagPipe := rfl
@[simp] theorem setFio_diagBusy (n : Nat) (f : Fio → Fio) (s : State) : (setFio n f s).diagBusy = s.diagBusy := rfl
@[simp] theorem setFio_diagAnswer (n : Nat) (f : Fio → Fio) (s : State) : (setFio n f s).diagAnswer = s.diagAnswer := rfl
@[simp] theorem setFio_out (n : Nat) (f : Fio → Fio) (s : State) : (setFio n f s).out = s.out := rfl
@[simp] theorem setFio_transit (n : Nat) (f : Fio → Fio) (s : State) : (setFio n f s).transit = s.transit := rfl
@[simp] theorem setFio_linkDown (n : Nat) (f : Fio → Fio) (s : State) : (setFio n f s).linkDown = s.linkDown := rfl
@[simp] theorem setFio_safeHere (n : Nat) (f : Fio → Fio) (s : State) : (setFio n f s).safeHere = s.safeHere := rfl
@[simp] theorem setFio_host (n : Nat) (f : Fio → Fio) (s : State) : (setFio n f s).host = s.host := rfl
@[simp] theorem setFio_stg (n : Nat) (f : Fio → Fio) (s : State) : (setFio n f s).stg = s.stg := rfl
@[simp] theorem setFio_ses (n : Nat) (f : Fio → Fio) (s : State) : (setFio n f s).ses = s.ses := rfl
@[simp] theorem setFio_flt (n : Nat) (f : Fio → Fio) (s : State) : (setFio n f s).flt = s.flt := rfl
@[simp] theorem setFio_pw (n : Nat) (f : Fio → Fio) (s : State) : (setFio n f s).pw = s.pw := rfl
@[simp] theorem setFio_hw (n : Nat) (f : Fio → Fio) (s : State) : (setFio n f s).hw = s.hw := rfl
@[simp] theorem setFio_upd (n : Nat) (f : Fio → Fio) (s : State) : (setFio n f s).upd = s.upd := rfl
@[simp] theorem setFio_perf (n : Nat) (f : Fio → Fio) (s : State) : (setFio n f s).perf = s.perf := rfl
@[simp] theorem setFio_engInts (n : Nat) (f : Fio → Fio) (s : State) : (setFio n f s).engInts = s.engInts := rfl
@[simp] theorem setFio_keys (n : Nat) (f : Fio → Fio) (s : State) : (setFio n f s).keys = s.keys := rfl
@[simp] theorem setFio_heldEvents (n : Nat) (f : Fio → Fio) (s : State) : (setFio n f s).heldEvents = s.heldEvents := rfl
@[simp] theorem setFio_ld (n : Nat) (f : Fio → Fio) (s : State) : (setFio n f s).ld = s.ld := rfl
@[simp] theorem setFio_hbs (n : Nat) (f : Fio → Fio) (s : State) : (setFio n f s).hbs = s.hbs := rfl
@[simp] theorem setFio_vs (n : Nat) (f : Fio → Fio) (s : State) : (setFio n f s).vs = s.vs := rfl
@[simp] theorem setFio_sw (n : Nat) (f : Fio → Fio) (s : State) : (setFio n f s).sw = s.sw := rfl
@[simp] theorem setFio_fs (n : Nat) (f : Fio → Fio) (s : State) : (setFio n f s).fs = { s.fs with fio := updN s.fs.fio n f } := rfl
@[simp] theorem setFio_ns (n : Nat) (f : Fio → Fio) (s : State) : (setFio n f s).ns = s.ns := rfl
@[simp] theorem setFio_acc (n : Nat) (f : Fio → Fio) (s : State) : (setFio n f s).acc = s.acc := rfl
@[simp] theorem setFio_eng (n : Nat) (f : Fio → Fio) (s : State) : (setFio n f s).eng = s.eng := rfl
@[simp] theorem setFio_pairs (n : Nat) (f : Fio → Fio) (s : State) : (setFio n f s).pairs = s.pairs := rfl
@[simp] theorem setFio_wbufs (n : Nat) (f : Fio → Fio) (s : State) : (setFio n f s).wbufs = s.wbufs := rfl
@[simp] theorem setFio_pkgs (n : Nat) (f : Fio → Fio) (s : State) : (setFio n f s).pkgs = s.pkgs := rfl

/-! `modNs` -/

@[simp] theorem modNs_pending (f : NsSt → NsSt) (s : State) : (modNs f s).pending = s.pending := rfl
@[simp] theorem modNs_dt (f : NsSt → NsSt) (s : State) : (modNs f s).dt = s.dt := rfl
@[simp] theorem modNs_rt (f : NsSt → NsSt) (s : State) : (modNs f s).rt = s.rt := rfl
@[simp] theorem modNs_rtPhase (f : NsSt → NsSt) (s : State) : (modNs f s).rtPhase = s.rtPhase := rfl
@[simp] theorem modNs_free (f : NsSt → NsSt) (s : State) : (modNs f s).free = s.free := rfl
@[simp] theorem modNs_sram (f : NsSt → NsSt) (s : State) : (modNs f s).sram = s.sram := rfl
@[simp] theorem modNs_mram (f : NsSt → NsSt) (s : State) : (modNs f s).mram = s.mram := rfl
@[simp] theorem modNs_rings (f : NsSt → NsSt) (s : State) : (modNs f s).rings = s.rings := rfl
@[simp] theorem modNs_nextHigh (f : NsSt → NsSt) (s : State) : (modNs f s).nextHigh = s.nextHigh := rfl
@[simp] theorem modNs_nextNormal (f : NsSt → NsSt) (s : State) : (modNs f s).nextNormal = s.nextNormal := rfl
@[simp] theorem modNs_started (f : NsSt → NsSt) (s : State) : (modNs f s).started = s.started := rfl
@[simp] theorem modNs_nextUid (f : NsSt → NsSt) (s : State) : (modNs f s).nextUid = s.nextUid := rfl
@[simp] theorem modNs_engPipe (f : NsSt → NsSt) (s : State) : (modNs f s).engPipe = s.engPipe := rfl
@[simp] theorem modNs_diagPipe (f : NsSt → NsSt) (s : State) : (modNs f s).diagPipe = s.diagPipe := rfl
@[simp] theorem modNs_diagBusy (f : NsSt → NsSt) (s : State) : (modNs f s).diagBusy = s.diagBusy := rfl
@[simp] theorem modNs_diagAnswer (f : NsSt → NsSt) (s : State) : (modNs f s).diagAnswer = s.diagAnswer := rfl
@[simp] theorem modNs_out (f : NsSt → NsSt) (s : State) : (modNs f s).out = s.out := rfl
@[simp] theorem modNs_transit (f : NsSt → NsSt) (s : State) : (modNs f s).transit = s.transit := rfl
@[simp] theorem modNs_linkDown (f : NsSt → NsSt) (s : State) : (modNs f s).linkDown = s.linkDown := rfl
@[simp] theorem modNs_safeHere (f : NsSt → NsSt) (s : State) : (modNs f s).safeHere = s.safeHere := rfl
@[simp] theorem modNs_host (f : NsSt → NsSt) (s : State) : (modNs f s).host = s.host := rfl
@[simp] theorem modNs_stg (f : NsSt → NsSt) (s : State) : (modNs f s).stg = s.stg := rfl
@[simp] theorem modNs_ses (f : NsSt → NsSt) (s : State) : (modNs f s).ses = s.ses := rfl
@[simp] theorem modNs_flt (f : NsSt → NsSt) (s : State) : (modNs f s).flt = s.flt := rfl
@[simp] theorem modNs_pw (f : NsSt → NsSt) (s : State) : (modNs f s).pw = s.pw := rfl
@[simp] theorem modNs_hw (f : NsSt → NsSt) (s : State) : (modNs f s).hw = s.hw := rfl
@[simp] theorem modNs_upd (f : NsSt → NsSt) (s : State) : (modNs f s).upd = s.upd := rfl
@[simp] theorem modNs_perf (f : NsSt → NsSt) (s : State) : (modNs f s).perf = s.perf := rfl
@[simp] theorem modNs_engInts (f : NsSt → NsSt) (s : State) : (modNs f s).engInts = s.engInts := rfl
@[simp] theorem modNs_keys (f : NsSt → NsSt) (s : State) : (modNs f s).keys = s.keys := rfl
@[simp] theorem modNs_heldEvents (f : NsSt → NsSt) (s : State) : (modNs f s).heldEvents = s.heldEvents := rfl
@[simp] theorem modNs_ld (f : NsSt → NsSt) (s : State) : (modNs f s).ld = s.ld := rfl
@[simp] theorem modNs_hbs (f : NsSt → NsSt) (s : State) : (modNs f s).hbs = s.hbs := rfl
@[simp] theorem modNs_vs (f : NsSt → NsSt) (s : State) : (modNs f s).vs = s.vs := rfl
@[simp] theorem modNs_sw (f : NsSt → NsSt) (s : State) : (modNs f s).sw = s.sw := rfl
@[simp] theorem modNs_fs (f : NsSt → NsSt) (s : State) : (modNs f s).fs = s.fs := rfl
@[simp] theorem modNs_ns (f : NsSt → NsSt) (s : State) : (modNs f s).ns = f s.ns := rfl
@[simp] theorem modNs_acc (f : NsSt → NsSt) (s : State) : (modNs f s).acc = s.acc := rfl
@[simp] theorem modNs_eng (f : NsSt → NsSt) (s : State) : (modNs f s).eng = s.eng := rfl
@[simp] theorem modNs_pairs (f : NsSt → NsSt) (s : State) : (modNs f s).pairs = s.pairs := rfl
@[simp] theorem modNs_wbufs (f : NsSt → NsSt) (s : State) : (modNs f s).wbufs = s.wbufs := rfl
@[simp] theorem modNs_pkgs (f : NsSt → NsSt) (s : State) : (modNs f s).pkgs = s.pkgs := rfl

/-! `setCan` -/

@[simp] theorem setCan_pending (n : Nat) (f : Can → Can) (s : State) : (setCan n f s).pending = s.pending := rfl
@[simp] theorem setCan_dt (n : Nat) (f : Can → Can) (s : State) : (setCan n f s).dt = s.dt := rfl
@[simp] theorem setCan_rt (n : Nat) (f : Can → Can) (s : State) : (setCan n f s).rt = s.rt := rfl
@[simp] theorem setCan_rtPhase (n : Nat) (f : Can → Can) (s : State) : (setCan n f s).rtPhase = s.rtPhase := rfl
@[simp] theorem setCan_free (n : Nat) (f : Can → Can) (s : State) : (setCan n f s).free = s.free := rfl
@[simp] theorem setCan_sram (n : Nat) (f : Can → Can) (s : State) : (setCan n f s).sram = s.sram := rfl
@[simp] theorem setCan_mram (n : Nat) (f : Can → Can) (s : State) : (setCan n f s).mram = s.mram := rfl
@[simp] theorem setCan_rings (n : Nat) (f : Can → Can) (s : State) : (setCan n f s).rings = s.rings := rfl
@[simp] theorem setCan_nextHigh (n : Nat) (f : Can → Can) (s : State) : (setCan n f s).nextHigh = s.nextHigh := rfl
@[simp] theorem setCan_nextNormal (n : Nat) (f : Can → Can) (s : State) : (setCan n f s).nextNormal = s.nextNormal := rfl
@[simp] theorem setCan_started (n : Nat) (f : Can → Can) (s : State) : (setCan n f s).started = s.started := rfl
@[simp] theorem setCan_nextUid (n : Nat) (f : Can → Can) (s : State) : (setCan n f s).nextUid = s.nextUid := rfl
@[simp] theorem setCan_engPipe (n : Nat) (f : Can → Can) (s : State) : (setCan n f s).engPipe = s.engPipe := rfl
@[simp] theorem setCan_diagPipe (n : Nat) (f : Can → Can) (s : State) : (setCan n f s).diagPipe = s.diagPipe := rfl
@[simp] theorem setCan_diagBusy (n : Nat) (f : Can → Can) (s : State) : (setCan n f s).diagBusy = s.diagBusy := rfl
@[simp] theorem setCan_diagAnswer (n : Nat) (f : Can → Can) (s : State) : (setCan n f s).diagAnswer = s.diagAnswer := rfl
@[simp] theorem setCan_out (n : Nat) (f : Can → Can) (s : State) : (setCan n f s).out = s.out := rfl
@[simp] theorem setCan_transit (n : Nat) (f : Can → Can) (s : State) : (setCan n f s).transit = s.transit := rfl
@[simp] theorem setCan_linkDown (n : Nat) (f : Can → Can) (s : State) : (setCan n f s).linkDown = s.linkDown := rfl
@[simp] theorem setCan_safeHere (n : Nat) (f : Can → Can) (s : State) : (setCan n f s).safeHere = s.safeHere := rfl
@[simp] theorem setCan_host (n : Nat) (f : Can → Can) (s : State) : (setCan n f s).host = s.host := rfl
@[simp] theorem setCan_stg (n : Nat) (f : Can → Can) (s : State) : (setCan n f s).stg = s.stg := rfl
@[simp] theorem setCan_ses (n : Nat) (f : Can → Can) (s : State) : (setCan n f s).ses = s.ses := rfl
@[simp] theorem setCan_flt (n : Nat) (f : Can → Can) (s : State) : (setCan n f s).flt = s.flt := rfl
@[simp] theorem setCan_pw (n : Nat) (f : Can → Can) (s : State) : (setCan n f s).pw = s.pw := rfl
@[simp] theorem setCan_hw (n : Nat) (f : Can → Can) (s : State) : (setCan n f s).hw = s.hw := rfl
@[simp] theorem setCan_upd (n : Nat) (f : Can → Can) (s : State) : (setCan n f s).upd = s.upd := rfl
@[simp] theorem setCan_perf (n : Nat) (f : Can → Can) (s : State) : (setCan n f s).perf = s.perf := rfl
@[simp] theorem setCan_engInts (n : Nat) (f : Can → Can) (s : State) : (setCan n f s).engInts = s.engInts := rfl
@[simp] theorem setCan_keys (n : Nat) (f : Can → Can) (s : State) : (setCan n f s).keys = s.keys := rfl
@[simp] theorem setCan_heldEvents (n : Nat) (f : Can → Can) (s : State) : (setCan n f s).heldEvents = s.heldEvents := rfl
@[simp] theorem setCan_ld (n : Nat) (f : Can → Can) (s : State) : (setCan n f s).ld = s.ld := rfl
@[simp] theorem setCan_hbs (n : Nat) (f : Can → Can) (s : State) : (setCan n f s).hbs = s.hbs := rfl
@[simp] theorem setCan_vs (n : Nat) (f : Can → Can) (s : State) : (setCan n f s).vs = s.vs := rfl
@[simp] theorem setCan_sw (n : Nat) (f : Can → Can) (s : State) : (setCan n f s).sw = s.sw := rfl
@[simp] theorem setCan_fs (n : Nat) (f : Can → Can) (s : State) : (setCan n f s).fs = s.fs := rfl
@[simp] theorem setCan_ns (n : Nat) (f : Can → Can) (s : State) : (setCan n f s).ns = { s.ns with can := updN s.ns.can n f } := rfl
@[simp] theorem setCan_acc (n : Nat) (f : Can → Can) (s : State) : (setCan n f s).acc = s.acc := rfl
@[simp] theorem setCan_eng (n : Nat) (f : Can → Can) (s : State) : (setCan n f s).eng = s.eng := rfl
@[simp] theorem setCan_pairs (n : Nat) (f : Can → Can) (s : State) : (setCan n f s).pairs = s.pairs := rfl
@[simp] theorem setCan_wbufs (n : Nat) (f : Can → Can) (s : State) : (setCan n f s).wbufs = s.wbufs := rfl
@[simp] theorem setCan_pkgs (n : Nat) (f : Can → Can) (s : State) : (setCan n f s).pkgs = s.pkgs := rfl

/-! `setLin` -/

@[simp] theorem setLin_pending (n : Nat) (f : Lin → Lin) (s : State) : (setLin n f s).pending = s.pending := rfl
@[simp] theorem setLin_dt (n : Nat) (f : Lin → Lin) (s : State) : (setLin n f s).dt = s.dt := rfl
@[simp] theorem setLin_rt (n : Nat) (f : Lin → Lin) (s : State) : (setLin n f s).rt = s.rt := rfl
@[simp] theorem setLin_rtPhase (n : Nat) (f : Lin → Lin) (s : State) : (setLin n f s).rtPhase = s.rtPhase := rfl
@[simp] theorem setLin_free (n : Nat) (f : Lin → Lin) (s : State) : (setLin n f s).free = s.free := rfl
@[simp] theorem setLin_sram (n : Nat) (f : Lin → Lin) (s : State) : (setLin n f s).sram = s.sram := rfl
@[simp] theorem setLin_mram (n : Nat) (f : Lin → Lin) (s : State) : (setLin n f s).mram = s.mram := rfl
@[simp] theorem setLin_rings (n : Nat) (f : Lin → Lin) (s : State) : (setLin n f s).rings = s.rings := rfl
@[simp] theorem setLin_nextHigh (n : Nat) (f : Lin → Lin) (s : State) : (setLin n f s).nextHigh = s.nextHigh := rfl
@[simp] theorem setLin_nextNormal (n : Nat) (f : Lin → Lin) (s : State) : (setLin n f s).nextNormal = s.nextNormal := rfl
@[simp] theorem setLin_started (n : Nat) (f : Lin → Lin) (s : State) : (setLin n f s).started = s.started := rfl
@[simp] theorem setLin_nextUid (n : Nat) (f : Lin → Lin) (s : State) : (setLin n f s).nextUid = s.nextUid := rfl
@[simp] theorem setLin_engPipe (n : Nat) (f : Lin → Lin) (s : State) : (setLin n f s).engPipe = s.engPipe := rfl
@[simp] theorem setLin_diagPipe (n : Nat) (f : Lin → Lin) (s : State) : (setLin n f s).diagPipe = s.diagPipe := rfl
@[simp] theorem setLin_diagBusy (n : Nat) (f : Lin → Lin) (s : State) : (setLin n f s).diagBusy = s.diagBusy := rfl
@[simp] theorem setLin_diagAnswer (n : Nat) (f : Lin → Lin) (s : State) : (setLin n f s).diagAnswer = s.diagAnswer := rfl
@[simp] theorem setLin_out (n : Nat) (f : Lin → Lin) (s : State) : (setLin n f s).out = s.out := rfl
@[simp] theorem setLin_transit (n : Nat) (f : Lin → Lin) (s : State) : (setLin n f s).transit = s.transit := rfl
@[simp] theorem setLin_linkDown (n : Nat) (f : Lin → Lin) (s : State) : (setLin n f s).linkDown = s.linkDown := rfl
@[simp] theorem setLin_safeHere (n : Nat) (f : Lin → Lin) (s : State) : (setLin n f s).safeHere = s.safeHere := rfl
@[simp] theorem setLin_host (n : Nat) (f : Lin → Lin) (s : State) : (setLin n f s).host = s.host := rfl
@[simp] theorem setLin_stg (n : Nat) (f : Lin → Lin) (s : State) : (setLin n f s).stg = s.stg := rfl
@[simp] theorem setLin_ses (n : Nat) (f : Lin → Lin) (s : State) : (setLin n f s).ses = s.ses := rfl
@[simp] theorem setLin_flt (n : Nat) (f : Lin → Lin) (s : State) : (setLin n f s).flt = s.flt := rfl
@[simp] theorem setLin_pw (n : Nat) (f : Lin → Lin) (s : State) : (setLin n f s).pw = s.pw := rfl
@[simp] theorem setLin_hw (n : Nat) (f : Lin → Lin) (s : State) : (setLin n f s).hw = s.hw := rfl
@[simp] theorem setLin_upd (n : Nat) (f : Lin → Lin) (s : State) : (setLin n f s).upd = s.upd := rfl
@[simp] theorem setLin_perf (n : Nat) (f : Lin → Lin) (s : State) : (setLin n f s).perf = s.perf := rfl
@[simp] theorem setLin_engInts (n : Nat) (f : Lin → Lin) (s : State) : (setLin n f s).engInts = s.engInts := rfl
@[simp] theorem setLin_keys (n : Nat) (f : Lin → Lin) (s : State) : (setLin n f s).keys = s.keys := rfl
@[simp] theorem setLin_heldEvents (n : Nat) (f : Lin → Lin) (s : State) : (setLin n f s).heldEvents = s.heldEvents := rfl
@[simp] theorem setLin_ld (n : Nat) (f : Lin → Lin) (s : State) : (setLin n f s).ld = s.ld := rfl
@[simp] theorem setLin_hbs (n : Nat) (f : Lin → Lin) (s : State) : (setLin n f s).hbs = s.hbs := rfl
@[simp] theorem setLin_vs (n : Nat) (f : Lin → Lin) (s : State) : (setLin n f s).vs = s.vs := rfl
@[simp] theorem setLin_sw (n : Nat) (f : Lin → Lin) (s : State) : (setLin n f s).sw = s.sw := rfl
@[simp] theorem setLin_fs (n : Nat) (f : Lin → Lin) (s : State) : (setLin n f s).fs = s.fs := rfl
@[simp] theorem setLin_ns (n : Nat) (f : Lin → Lin) (s : State) : (setLin n f s).ns = { s.ns with lin := updN s.ns.lin n f } := rfl
@[simp] theorem setLin_acc (n : Nat) (f : Lin → Lin) (s : State) : (setLin n f s).acc = s.acc := rfl
@[simp] theorem setLin_eng (n : Nat) (f : Lin → Lin) (s : State) : (setLin n f s).eng = s.eng := rfl
@[simp] theorem setLin_pairs (n : Nat) (f : Lin → Lin) (s : State) : (setLin n f s).pairs = s.pairs := rfl
@[simp] theorem setLin_wbufs (n : Nat) (f : Lin → Lin) (s : State) : (setLin n f s).wbufs = s.wbufs := rfl
@[simp] theorem setLin_pkgs (n : Nat) (f : Lin → Lin) (s : State) : (setLin n f s).pkgs = s.pkgs := rfl

/-! `setSeg` -/

@[simp] theorem setSeg_pending (b : Nat) (f : Seg → Seg) (s : State) : (setSeg b f s).pending = s.pending := rfl
@[simp] theorem setSeg_dt (b : Nat) (f : Seg → Seg) (s : State) : (setSeg b f s).dt = s.dt := rfl
@[simp] theorem setSeg_rt (b : Nat) (f : Seg → Seg) (s : State) : (setSeg b f s).rt = s.rt := rfl
@[simp] theorem setSeg_rtPhase (b : Nat) (f : Seg → Seg) (s : State) : (setSeg b f s).rtPhase = s.rtPhase := rfl
@[simp] theorem setSeg_free (b : Nat) (f : Seg → Seg) (s : State) : (setSeg b f s).free = s.free := rfl
@[simp] theorem setSeg_sram (b : Nat) (f : Seg → Seg) (s : State) : (setSeg b f s).sram = s.sram := rfl
@[simp] theorem setSeg_mram (b : Nat) (f : Seg → Seg) (s : State) : (setSeg b f s).mram = s.mram := rfl
@[simp] theorem setSeg_rings (b : Nat) (f : Seg → Seg) (s : State) : (setSeg b f s).rings = s.rings := rfl
@[simp] theorem setSeg_nextHigh (b : Nat) (f : Seg → Seg) (s : State) : (setSeg b f s).nextHigh = s.nextHigh := rfl
@[simp] theorem setSeg_nextNormal (b : Nat) (f : Seg → Seg) (s : State) : (setSeg b f s).nextNormal = s.nextNormal := rfl
@[simp] theorem setSeg_started (b : Nat) (f : Seg → Seg) (s : State) : (setSeg b f s).started = s.started := rfl
@[simp] theorem setSeg_nextUid (b : Nat) (f : Seg → Seg) (s : State) : (setSeg b f s).nextUid = s.nextUid := rfl
@[simp] theorem setSeg_engPipe (b : Nat) (f : Seg → Seg) (s : State) : (setSeg b f s).engPipe = s.engPipe := rfl
@[simp] theorem setSeg_diagPipe (b : Nat) (f : Seg → Seg) (s : State) : (setSeg b f s).diagPipe = s.diagPipe := rfl
@[simp] theorem setSeg_diagBusy (b : Nat) (f : Seg → Seg) (s : State) : (setSeg b f s).diagBusy = s.diagBusy := rfl
@[simp] theorem setSeg_diagAnswer (b : Nat) (f : Seg → Seg) (s : State) : (setSeg b f s).diagAnswer = s.diagAnswer := rfl
@[simp] theorem setSeg_out (b : Nat) (f : Seg → Seg) (s : State) : (setSeg b f s).out = s.out := rfl
@[simp] theorem setSeg_transit (b : Nat) (f : Seg → Seg) (s : State) : (setSeg b f s).transit = s.transit := rfl
@[simp] theorem setSeg_linkDown (b : Nat) (f : Seg → Seg) (s : State) : (setSeg b f s).linkDown = s.linkDown := rfl
@[simp] theorem setSeg_safeHere (b : Nat) (f : Seg → Seg) (s : State) : (setSeg b f s).safeHere = s.safeHere := rfl
@[simp] theorem setSeg_host (b : Nat) (f : Seg → Seg) (s : State) : (setSeg b f s).host = s.host := rfl
@[simp] theorem setSeg_stg (b : Nat) (f : Seg → Seg) (s : State) : (setSeg b f s).stg = s.stg := rfl
@[simp] theorem setSeg_ses (b : Nat) (f : Seg → Seg) (s : State) : (setSeg b f s).ses = s.ses := rfl
@[simp] theorem setSeg_flt (b : Nat) (f : Seg → Seg) (s : State) : (setSeg b f s).flt = s.flt := rfl
@[simp] theorem setSeg_pw (b : Nat) (f : Seg → Seg) (s : State) : (setSeg b f s).pw = s.pw := rfl
@[simp] theorem setSeg_hw (b : Nat) (f : Seg → Seg) (s : State) : (setSeg b f s).hw = s.hw := rfl
@[simp] theorem setSeg_upd (b : Nat) (f : Seg → Seg) (s : State) : (setSeg b f s).upd = s.upd := rfl
@[simp] theorem setSeg_perf (b : Nat) (f : Seg → Seg) (s : State) : (setSeg b f s).perf = s.perf := rfl
@[simp] theorem setSeg_engInts (b : Nat) (f : Seg → Seg) (s : State) : (setSeg b f s).engInts = s.engInts := rfl
@[simp] theorem setSeg_keys (b : Nat) (f : Seg → Seg) (s : State) : (setSeg b f s).keys = s.keys := rfl
@[simp] theorem setSeg_heldEvents (b : Nat) (f : Seg → Seg) (s : State) : (setSeg b f s).heldEvents = s.heldEvents := rfl
@[simp] theorem setSeg_ld (b : Nat) (f : Seg → Seg) (s : State) : (setSeg b f s).ld = s.ld := rfl
@[simp] theorem setSeg_hbs (b : Nat) (f : Seg → Seg) (s : State) : (setSeg b f s).hbs = s.hbs := rfl
@[simp] theorem setSeg_vs (b : Nat) (f : Seg → Seg) (s : State) : (setSeg b f s).vs = s.vs := rfl
@[simp] theorem setSeg_sw (b : Nat) (f : Seg → Seg) (s : State) : (setSeg b f s).sw = s.sw := rfl
@[simp] theorem setSeg_fs (b : Nat) (f : Seg → Seg) (s : State) : (setSeg b f s).fs = s.fs := rfl
@[simp] theorem setSeg_ns (b : Nat) (f : Seg → Seg) (s : State) : (setSeg b f s).ns = { s.ns with seg := updN s.ns.seg b f } := rfl
@[simp] theorem setSeg_acc (b : Nat) (f : Seg → Seg) (s : State) : (setSeg b f s).acc = s.acc := rfl
@[simp] theorem setSeg_eng (b : Nat) (f : Seg → Seg) (s : State) : (setSeg b f s).eng = s.eng := rfl
@[simp] theorem setSeg_pairs (b : Nat) (f : Seg → Seg) (s : State) : (setSeg b f s).pairs = s.pairs := rfl
@[simp] theorem setSeg_wbufs (b : Nat) (f : Seg → Seg) (s : State) : (setSeg b f s).wbufs = s.wbufs := rfl
@[simp] theorem setSeg_pkgs (b : Nat) (f : Seg → Seg) (s : State) : (setSeg b f s).pkgs = s.pkgs := rfl

/-! `modAcc` -/

@[simp] theorem modAcc_pending (f : AccSt → AccSt) (s : State) : (modAcc f s).pending = s.pending := rfl
@[simp] theorem modAcc_dt (f : AccSt → AccSt) (s : State) : (modAcc f s).dt = s.dt := rfl
@[simp] theorem modAcc_rt (f : AccSt → AccSt) (s : State) : (modAcc f s).rt = s.rt := rfl
@[simp] theorem modAcc_rtPhase (f : AccSt → AccSt) (s : State) : (modAcc f s).rtPhase = s.rtPhase := rfl
@[simp] theorem modAcc_free (f : AccSt → AccSt) (s : State) : (modAcc f s).free = s.free := rfl
@[simp] theorem modAcc_sram (f : AccSt → AccSt) (s : State) : (modAcc f s).sram = s.sram := rfl
@[simp] theorem modAcc_mram (f : AccSt → AccSt) (s : State) : (modAcc f s).mram = s.mram := rfl
@[simp] theorem modAcc_rings (f : AccSt → AccSt) (s : State) : (modAcc f s).rings = s.rings := rfl
@[simp] theorem modAcc_nextHigh (f : AccSt → AccSt) (s : State) : (modAcc f s).nextHigh = s.nextHigh := rfl
@[simp] theorem modAcc_nextNormal (f : AccSt → AccSt) (s : State) : (modAcc f s).nextNormal = s.nextNormal := rfl
@[simp] theorem modAcc_started (f : AccSt → AccSt) (s : State) : (modAcc f s).started = s.started := rfl
@[simp] theorem modAcc_nextUid (f : AccSt → AccSt) (s : State) : (modAcc f s).nextUid = s.nextUid := rfl
@[simp] theorem modAcc_engPipe (f : AccSt → AccSt) (s : State) : (modAcc f s).engPipe = s.engPipe := rfl
@[simp] theorem modAcc_diagPipe (f : AccSt → AccSt) (s : State) : (modAcc f s).diagPipe = s.diagPipe := rfl
@[simp] theorem modAcc_diagBusy (f : AccSt → AccSt) (s : State) : (modAcc f s).diagBusy = s.diagBusy := rfl
@[simp] theorem modAcc_diagAnswer (f : AccSt → AccSt) (s : State) : (modAcc f s).diagAnswer = s.diagAnswer := rfl
@[simp] theorem modAcc_out (f : AccSt → AccSt) (s : State) : (modAcc f s).out = s.out := rfl
@[simp] theorem modAcc_transit (f : AccSt → AccSt) (s : State) : (modAcc f s).transit = s.transit := rfl
@[simp] theorem modAcc_linkDown (f : AccSt → AccSt) (s : State) : (modAcc f s).linkDown = s.linkDown := rfl
@[simp] theorem modAcc_safeHere (f : AccSt → AccSt) (s : State) : (modAcc f s).safeHere = s.safeHere := rfl
@[simp] theorem modAcc_host (f : AccSt → AccSt) (s : State) : (modAcc f s).host = s.host := rfl
@[simp] theorem modAcc_stg (f : AccSt → AccSt) (s : State) : (modAcc f s).stg = s.stg := rfl
@[simp] theorem modAcc_ses (f : AccSt → AccSt) (s : State) : (modAcc f s).ses = s.ses := rfl
@[simp] theorem modAcc_flt (f : AccSt → AccSt) (s : State) : (modAcc f s).flt = s.flt := rfl
@[simp] theorem modAcc_pw (f : AccSt → AccSt) (s : State) : (modAcc f s).pw = s.pw := rfl
@[simp] theorem modAcc_hw (f : AccSt → AccSt) (s : State) : (modAcc f s).hw = s.hw := rfl
@[simp] theorem modAcc_upd (f : AccSt → AccSt) (s : State) : (modAcc f s).upd = s.upd := rfl
@[simp] theorem modAcc_perf (f : AccSt → AccSt) (s : State) : (modAcc f s).perf = s.perf := rfl
@[simp] theorem modAcc_engInts (f : AccSt → AccSt) (s : State) : (modAcc f s).engInts = s.engInts := rfl
@[simp] theorem modAcc_keys (f : AccSt → AccSt) (s : State) : (modAcc f s).keys = s.keys := rfl
@[simp] theorem modAcc_heldEvents (f : AccSt → AccSt) (s : State) : (modAcc f s).heldEvents = s.heldEvents := rfl
@[simp] theorem modAcc_ld (f : AccSt → AccSt) (s : State) : (modAcc f s).ld = s.ld := rfl
@[simp] theorem modAcc_hbs (f : AccSt → AccSt) (s : State) : (modAcc f s).hbs = s.hbs := rfl
@[simp] theorem modAcc_vs (f : AccSt → AccSt) (s : State) : (modAcc f s).vs = s.vs := rfl
@[simp] theorem modAcc_sw (f : AccSt → AccSt) (s : State) : (modAcc f s).sw = s.sw := rfl
@[simp] theorem modAcc_fs (f : AccSt → AccSt) (s : State) : (modAcc f s).fs = s.fs := rfl
@[simp] theorem modAcc_ns (f : AccSt → AccSt) (s : State) : (modAcc f s).ns = s.ns := rfl
@[simp] theorem modAcc_acc (f : AccSt → AccSt) (s : State) : (modAcc f s).acc = f s.acc := rfl
@[simp] theorem modAcc_eng (f : AccSt → AccSt) (s : State) : (modAcc f s).eng = s.eng := rfl
@[simp] theorem modAcc_pairs (f : AccSt → AccSt) (s : State) : (modAcc f s).pairs = s.pairs := rfl
@[simp] theorem modAcc_wbufs (f : AccSt → AccSt) (s : State) : (modAcc f s).wbufs = s.wbufs := rfl
@[simp] theorem modAcc_pkgs (f : AccSt → AccSt) (s : State) : (modAcc f s).pkgs = s.pkgs := rfl

/-! `setEng` -/

@[simp] theorem setEng_pending (e : Nat) (f : Eng → Eng) (s : State) : (setEng e f s).pending = s.pending := rfl
@[simp] theorem setEng_dt (e : Nat) (f : Eng → Eng) (s : State) : (setEng e f s).dt = s.dt := rfl
@[simp] theorem setEng_rt (e : Nat) (f : Eng → Eng) (s : State) : (setEng e f s).rt = s.rt := rfl
@[simp] theorem setEng_rtPhase (e : Nat) (f : Eng → Eng) (s : State) : (setEng e f s).rtPhase = s.rtPhase := rfl
@[simp] theorem setEng_free (e : Nat) (f : Eng → Eng) (s : State) : (setEng e f s).free = s.free := rfl
@[simp] theorem setEng_sram (e : Nat) (f : Eng → Eng) (s : State) : (setEng e f s).sram = s.sram := rfl
@[simp] theorem setEng_mram (e : Nat) (f : Eng → Eng) (s : State) : (setEng e f s).mram = s.mram := rfl
@[simp] theorem setEng_rings (e : Nat) (f : Eng → Eng) (s : State) : (setEng e f s).rings = s.rings := rfl
@[simp] theorem setEng_nextHigh (e : Nat) (f : Eng → Eng) (s : State) : (setEng e f s).nextHigh = s.nextHigh := rfl
@[simp] theorem setEng_nextNormal (e : Nat) (f : Eng → Eng) (s : State) : (setEng e f s).nextNormal = s.nextNormal := rfl
@[simp] theorem setEng_started (e : Nat) (f : Eng → Eng) (s : State) : (setEng e f s).started = s.started := rfl
@[simp] theorem setEng_nextUid (e : Nat) (f : Eng → Eng) (s : State) : (setEng e f s).nextUid = s.nextUid := rfl
@[simp] theorem setEng_engPipe (e : Nat) (f : Eng → Eng) (s : State) : (setEng e f s).engPipe = s.engPipe := rfl
@[simp] theorem setEng_diagPipe (e : Nat) (f : Eng → Eng) (s : State) : (setEng e f s).diagPipe = s.diagPipe := rfl
@[simp] theorem setEng_diagBusy (e : Nat) (f : Eng → Eng) (s : State) : (setEng e f s).diagBusy = s.diagBusy := rfl
@[simp] theorem setEng_diagAnswer (e : Nat) (f : Eng → Eng) (s : State) : (setEng e f s).diagAnswer = s.diagAnswer := rfl
@[simp] theorem setEng_out (e : Nat) (f : Eng → Eng) (s : State) : (setEng e f s).out = s.out := rfl
@[simp] theorem setEng_transit (e : Nat) (f : Eng → Eng) (s : State) : (setEng e f s).transit = s.transit := rfl
@[simp] theorem setEng_linkDown (e : Nat) (f : Eng → Eng) (s : State) : (setEng e f s).linkDown = s.linkDown := rfl
@[simp] theorem setEng_safeHere (e : Nat) (f : Eng → Eng) (s : State) : (setEng e f s).safeHere = s.safeHere := rfl
@[simp] theorem setEng_host (e : Nat) (f : Eng → Eng) (s : State) : (setEng e f s).host = s.host := rfl
@[simp] theorem setEng_stg (e : Nat) (f : Eng → Eng) (s : State) : (setEng e f s).stg = s.stg := rfl
@[simp] theorem setEng_ses (e : Nat) (f : Eng → Eng) (s : State) : (setEng e f s).ses = s.ses := rfl
@[simp] theorem setEng_flt (e : Nat) (f : Eng → Eng) (s : State) : (setEng e f s).flt = s.flt := rfl
@[simp] theorem setEng_pw (e : Nat) (f : Eng → Eng) (s : State) : (setEng e f s).pw = s.pw := rfl
@[simp] theorem setEng_hw (e : Nat) (f : Eng → Eng) (s : State) : (setEng e f s).hw = s.hw := rfl
@[simp] theorem setEng_upd (e : Nat) (f : Eng → Eng) (s : State) : (setEng e f s).upd = s.upd := rfl
@[simp] theorem setEng_perf (e : Nat) (f : Eng → Eng) (s : State) : (setEng e f s).perf = s.perf := rfl
@[simp] theorem setEng_engInts (e : Nat) (f : Eng → Eng) (s : State) : (setEng e f s).engInts = s.engInts := rfl
@[simp] theorem setEng_keys (e : Nat) (f : Eng → Eng) (s : State) : (setEng e f s).keys = s.keys := rfl
@[simp] theorem setEng_heldEvents (e : Nat) (f : Eng → Eng) (s : State) : (setEng e f s).heldEvents = s.heldEvents := rfl
@[simp] theorem setEng_ld (e : Nat) (f : Eng → Eng) (s : State) : (setEng e f s).ld = s.ld := rfl
@[simp] theorem setEng_hbs (e : Nat) (f : Eng → Eng) (s : State) : (setEng e f s).hbs = s.hbs := rfl
@[simp] theorem setEng_vs (e : Nat) (f : Eng → Eng) (s : State) : (setEng e f s).vs = s.vs := rfl
@[simp] theorem setEng_sw (e : Nat) (f : Eng → Eng) (s : State) : (setEng e f s).sw = s.sw := rfl
@[simp] theorem setEng_fs (e : Nat) (f : Eng → Eng) (s : State) : (setEng e f s).fs = s.fs := rfl
@[simp] theorem setEng_ns (e : Nat) (f : Eng → Eng) (s : State) : (setEng e f s).ns = s.ns := rfl
@[simp] theorem setEng_acc (e : Nat) (f : Eng → Eng) (s : State) : (setEng e f s).acc = s.acc := rfl
@[simp] theorem setEng_eng (e : Nat) (f : Eng → Eng) (s : State) : (setEng e f s).eng = updN s.eng e f := rfl
@[simp] theorem setEng_pairs (e : Nat) (f : Eng → Eng) (s : State) : (setEng e f s).pairs = s.pairs := rfl
@[simp] theorem setEng_wbufs (e : Nat) (f : Eng → Eng) (s : State) : (setEng e f s).wbufs = s.wbufs := rfl
@[simp] theorem setEng_pkgs (e : Nat) (f : Eng → Eng) (s : State) : (setEng e f s).pkgs = s.pkgs := rfl

/-! `setPair` -/

@[simp] theorem setPair_pending (k : Nat) (f : PairSt → PairSt) (s : State) : (setPair k f s).pending = s.pending := rfl
@[simp] theorem setPair_dt (k : Nat) (f : PairSt → PairSt) (s : State) : (setPair k f s).dt = s.dt := rfl
@[simp] theorem setPair_rt (k : Nat) (f : PairSt → PairSt) (s : State) : (setPair k f s).rt = s.rt := rfl
@[simp] theorem setPair_rtPhase (k : Nat) (f : PairSt → PairSt) (s : State) : (setPair k f s).rtPhase = s.rtPhase := rfl
@[simp] theorem setPair_free (k : Nat) (f : PairSt → PairSt) (s : State) : (setPair k f s).free = s.free := rfl
@[simp] theorem setPair_sram (k : Nat) (f : PairSt → PairSt) (s : State) : (setPair k f s).sram = s.sram := rfl
@[simp] theorem setPair_mram (k : Nat) (f : PairSt → PairSt) (s : State) : (setPair k f s).mram = s.mram := rfl
@[simp] theorem setPair_rings (k : Nat) (f : PairSt → PairSt) (s : State) : (setPair k f s).rings = s.rings := rfl
@[simp] theorem setPair_nextHigh (k : Nat) (f : PairSt → PairSt) (s : State) : (setPair k f s).nextHigh = s.nextHigh := rfl
@[simp] theorem setPair_nextNormal (k : Nat) (f : PairSt → PairSt) (s : State) : (setPair k f s).nextNormal = s.nextNormal := rfl
@[simp] theorem setPair_started (k : Nat) (f : PairSt → PairSt) (s : State) : (setPair k f s).started = s.started := rfl
@[simp] theorem setPair_nextUid (k : Nat) (f : PairSt → PairSt) (s : State) : (setPair k f s).nextUid = s.nextUid := rfl
@[simp] theorem setPair_engPipe (k : Nat) (f : PairSt → PairSt) (s : State) : (setPair k f s).engPipe = s.engPipe := rfl
@[simp] theorem setPair_diagPipe (k : Nat) (f : PairSt → PairSt) (s : State) : (setPair k f s).diagPipe = s.diagPipe := rfl
@[simp] theorem setPair_diagBusy (k : Nat) (f : PairSt → PairSt) (s : State) : (setPair k f s).diagBusy = s.diagBusy := rfl
@[simp] theorem setPair_diagAnswer (k : Nat) (f : PairSt → PairSt) (s : State) : (setPair k f s).diagAnswer = s.diagAnswer := rfl
@[simp] theorem setPair_out (k : Nat) (f : PairSt → PairSt) (s : State) : (setPair k f s).out = s.out := rfl
@[simp] theorem setPair_transit (k : Nat) (f : PairSt → PairSt) (s : State) : (setPair k f s).transit = s.transit := rfl
@[simp] theorem setPair_linkDown (k : Nat) (f : PairSt → PairSt) (s : State) : (setPair k f s).linkDown = s.linkDown := rfl
@[simp] theorem setPair_safeHere (k : Nat) (f : PairSt → PairSt) (s : State) : (setPair k f s).safeHere = s.safeHere := rfl
@[simp] theorem setPair_host (k : Nat) (f : PairSt → PairSt) (s : State) : (setPair k f s).host = s.host := rfl
@[simp] theorem setPair_stg (k : Nat) (f : PairSt → PairSt) (s : State) : (setPair k f s).stg = s.stg := rfl
@[simp] theorem setPair_ses (k : Nat) (f : PairSt → PairSt) (s : State) : (setPair k f s).ses = s.ses := rfl
@[simp] theorem setPair_flt (k : Nat) (f : PairSt → PairSt) (s : State) : (setPair k f s).flt = s.flt := rfl
@[simp] theorem setPair_pw (k : Nat) (f : PairSt → PairSt) (s : State) : (setPair k f s).pw = s.pw := rfl
@[simp] theorem setPair_hw (k : Nat) (f : PairSt → PairSt) (s : State) : (setPair k f s).hw = s.hw := rfl
@[simp] theorem setPair_upd (k : Nat) (f : PairSt → PairSt) (s : State) : (setPair k f s).upd = s.upd := rfl
@[simp] theorem setPair_perf (k : Nat) (f : PairSt → PairSt) (s : State) : (setPair k f s).perf = s.perf := rfl
@[simp] theorem setPair_engInts (k : Nat) (f : PairSt → PairSt) (s : State) : (setPair k f s).engInts = s.engInts := rfl
@[simp] theorem setPair_keys (k : Nat) (f : PairSt → PairSt) (s : State) : (setPair k f s).keys = s.keys := rfl
@[simp] theorem setPair_heldEvents (k : Nat) (f : PairSt → PairSt) (s : State) : (setPair k f s).heldEvents = s.heldEvents := rfl
@[simp] theorem setPair_ld (k : Nat) (f : PairSt → PairSt) (s : State) : (setPair k f s).ld = s.ld := rfl
@[simp] theorem setPair_hbs (k : Nat) (f : PairSt → PairSt) (s : State) : (setPair k f s).hbs = s.hbs := rfl
@[simp] theorem setPair_vs (k : Nat) (f : PairSt → PairSt) (s : State) : (setPair k f s).vs = s.vs := rfl
@[simp] theorem setPair_sw (k : Nat) (f : PairSt → PairSt) (s : State) : (setPair k f s).sw = s.sw := rfl
@[simp] theorem setPair_fs (k : Nat) (f : PairSt → PairSt) (s : State) : (setPair k f s).fs = s.fs := rfl
@[simp] theorem setPair_ns (k : Nat) (f : PairSt → PairSt) (s : State) : (setPair k f s).ns = s.ns := rfl
@[simp] theorem setPair_acc (k : Nat) (f : PairSt → PairSt) (s : State) : (setPair k f s).acc = s.acc := rfl
@[simp] theorem setPair_eng (k : Nat) (f : PairSt → PairSt) (s : State) : (setPair k f s).eng = s.eng := rfl
@[simp] theorem setPair_pairs (k : Nat) (f : PairSt → PairSt) (s : State) : (setPair k f s).pairs = updN s.pairs k f := rfl
@[simp] theorem setPair_wbufs (k : Nat) (f : PairSt → PairSt) (s : State) : (setPair k f s).wbufs = s.wbufs := rfl
@[simp] theorem setPair_pkgs (k : Nat) (f : PairSt → PairSt) (s : State) : (setPair k f s).pkgs = s.pkgs := rfl

/-! `startRun` -/

@[simp] theorem startRun_pending (d : Desc) (s : State) : (startRun d s).pending = s.pending := rfl
@[simp] theorem startRun_dt (d : Desc) (s : State) : (startRun d s).dt = s.dt := rfl
@[simp] theorem startRun_rt (d : Desc) (s : State) : (startRun d s).rt = s.rt := rfl
@[simp] theorem startRun_rtPhase (d : Desc) (s : State) : (startRun d s).rtPhase = s.rtPhase := rfl
@[simp] theorem startRun_free (d : Desc) (s : State) : (startRun d s).free = s.free := rfl
@[simp] theorem startRun_sram (d : Desc) (s : State) : (startRun d s).sram = s.sram := rfl
@[simp] theorem startRun_mram (d : Desc) (s : State) : (startRun d s).mram = s.mram := rfl
@[simp] theorem startRun_rings (d : Desc) (s : State) : (startRun d s).rings = s.rings := rfl
@[simp] theorem startRun_nextHigh (d : Desc) (s : State) : (startRun d s).nextHigh = s.nextHigh := rfl
@[simp] theorem startRun_nextNormal (d : Desc) (s : State) : (startRun d s).nextNormal = s.nextNormal := rfl
@[simp] theorem startRun_started (d : Desc) (s : State) : (startRun d s).started = s.started ++ [{ uid := s.nextUid, desc := d }] := rfl
@[simp] theorem startRun_nextUid (d : Desc) (s : State) : (startRun d s).nextUid = s.nextUid + 1 := rfl
@[simp] theorem startRun_engPipe (d : Desc) (s : State) : (startRun d s).engPipe = s.engPipe := rfl
@[simp] theorem startRun_diagPipe (d : Desc) (s : State) : (startRun d s).diagPipe = s.diagPipe := rfl
@[simp] theorem startRun_diagBusy (d : Desc) (s : State) : (startRun d s).diagBusy = s.diagBusy := rfl
@[simp] theorem startRun_diagAnswer (d : Desc) (s : State) : (startRun d s).diagAnswer = s.diagAnswer := rfl
@[simp] theorem startRun_out (d : Desc) (s : State) : (startRun d s).out = s.out := rfl
@[simp] theorem startRun_transit (d : Desc) (s : State) : (startRun d s).transit = s.transit := rfl
@[simp] theorem startRun_linkDown (d : Desc) (s : State) : (startRun d s).linkDown = s.linkDown := rfl
@[simp] theorem startRun_safeHere (d : Desc) (s : State) : (startRun d s).safeHere = s.safeHere := rfl
@[simp] theorem startRun_host (d : Desc) (s : State) : (startRun d s).host = s.host := rfl
@[simp] theorem startRun_stg (d : Desc) (s : State) : (startRun d s).stg = s.stg := rfl
@[simp] theorem startRun_ses (d : Desc) (s : State) : (startRun d s).ses = s.ses := rfl
@[simp] theorem startRun_flt (d : Desc) (s : State) : (startRun d s).flt = s.flt := rfl
@[simp] theorem startRun_pw (d : Desc) (s : State) : (startRun d s).pw = s.pw := rfl
@[simp] theorem startRun_hw (d : Desc) (s : State) : (startRun d s).hw = s.hw := rfl
@[simp] theorem startRun_upd (d : Desc) (s : State) : (startRun d s).upd = s.upd := rfl
@[simp] theorem startRun_perf (d : Desc) (s : State) : (startRun d s).perf = s.perf := rfl
@[simp] theorem startRun_engInts (d : Desc) (s : State) : (startRun d s).engInts = s.engInts := rfl
@[simp] theorem startRun_keys (d : Desc) (s : State) : (startRun d s).keys = s.keys := rfl
@[simp] theorem startRun_heldEvents (d : Desc) (s : State) : (startRun d s).heldEvents = s.heldEvents := rfl
@[simp] theorem startRun_ld (d : Desc) (s : State) : (startRun d s).ld = s.ld := rfl
@[simp] theorem startRun_hbs (d : Desc) (s : State) : (startRun d s).hbs = s.hbs := rfl
@[simp] theorem startRun_vs (d : Desc) (s : State) : (startRun d s).vs = s.vs := rfl
@[simp] theorem startRun_sw (d : Desc) (s : State) : (startRun d s).sw = s.sw := rfl
@[simp] theorem startRun_fs (d : Desc) (s : State) : (startRun d s).fs = s.fs := rfl
@[simp] theorem startRun_ns (d : Desc) (s : State) : (startRun d s).ns = s.ns := rfl
@[simp] theorem startRun_acc (d : Desc) (s : State) : (startRun d s).acc = s.acc := rfl
@[simp] theorem startRun_eng (d : Desc) (s : State) : (startRun d s).eng = s.eng := rfl
@[simp] theorem startRun_pairs (d : Desc) (s : State) : (startRun d s).pairs = s.pairs := rfl
@[simp] theorem startRun_wbufs (d : Desc) (s : State) : (startRun d s).wbufs = s.wbufs := rfl
@[simp] theorem startRun_pkgs (d : Desc) (s : State) : (startRun d s).pkgs = s.pkgs := rfl

/-! `touchSession` -/

@[simp] theorem touchSession_pending (n : Nat) (s : State) : (touchSession n s).pending = s.pending := rfl
@[simp] theorem touchSession_dt (n : Nat) (s : State) : (touchSession n s).dt = s.dt := rfl
@[simp] theorem touchSession_rt (n : Nat) (s : State) : (touchSession n s).rt = s.rt := rfl
@[simp] theorem touchSession_rtPhase (n : Nat) (s : State) : (touchSession n s).rtPhase = s.rtPhase := rfl
@[simp] theorem touchSession_free (n : Nat) (s : State) : (touchSession n s).free = s.free := rfl
@[simp] theorem touchSession_sram (n : Nat) (s : State) : (touchSession n s).sram = s.sram := rfl
@[simp] theorem touchSession_mram (n : Nat) (s : State) : (touchSession n s).mram = s.mram := rfl
@[simp] theorem touchSession_rings (n : Nat) (s : State) : (touchSession n s).rings = s.rings := rfl
@[simp] theorem touchSession_nextHigh (n : Nat) (s : State) : (touchSession n s).nextHigh = s.nextHigh := rfl
@[simp] theorem touchSession_nextNormal (n : Nat) (s : State) : (touchSession n s).nextNormal = s.nextNormal := rfl
@[simp] theorem touchSession_started (n : Nat) (s : State) : (touchSession n s).started = s.started := rfl
@[simp] theorem touchSession_nextUid (n : Nat) (s : State) : (touchSession n s).nextUid = s.nextUid := rfl
@[simp] theorem touchSession_engPipe (n : Nat) (s : State) : (touchSession n s).engPipe = s.engPipe := rfl
@[simp] theorem touchSession_diagPipe (n : Nat) (s : State) : (touchSession n s).diagPipe = s.diagPipe := rfl
@[simp] theorem touchSession_diagBusy (n : Nat) (s : State) : (touchSession n s).diagBusy = s.diagBusy := rfl
@[simp] theorem touchSession_diagAnswer (n : Nat) (s : State) : (touchSession n s).diagAnswer = s.diagAnswer := rfl
@[simp] theorem touchSession_out (n : Nat) (s : State) : (touchSession n s).out = s.out := rfl
@[simp] theorem touchSession_transit (n : Nat) (s : State) : (touchSession n s).transit = s.transit := rfl
@[simp] theorem touchSession_linkDown (n : Nat) (s : State) : (touchSession n s).linkDown = s.linkDown := rfl
@[simp] theorem touchSession_safeHere (n : Nat) (s : State) : (touchSession n s).safeHere = s.safeHere := rfl
@[simp] theorem touchSession_host (n : Nat) (s : State) : (touchSession n s).host = s.host := rfl
@[simp] theorem touchSession_stg (n : Nat) (s : State) : (touchSession n s).stg = s.stg := rfl
@[simp] theorem touchSession_ses (n : Nat) (s : State) : (touchSession n s).ses = updN s.ses n fun x => { x with lastNamed := s.dt } := rfl
@[simp] theorem touchSession_flt (n : Nat) (s : State) : (touchSession n s).flt = s.flt := rfl
@[simp] theorem touchSession_pw (n : Nat) (s : State) : (touchSession n s).pw = s.pw := rfl
@[simp] theorem touchSession_hw (n : Nat) (s : State) : (touchSession n s).hw = s.hw := rfl
@[simp] theorem touchSession_upd (n : Nat) (s : State) : (touchSession n s).upd = s.upd := rfl
@[simp] theorem touchSession_perf (n : Nat) (s : State) : (touchSession n s).perf = s.perf := rfl
@[simp] theorem touchSession_engInts (n : Nat) (s : State) : (touchSession n s).engInts = s.engInts := rfl
@[simp] theorem touchSession_keys (n : Nat) (s : State) : (touchSession n s).keys = s.keys := rfl
@[simp] theorem touchSession_heldEvents (n : Nat) (s : State) : (touchSession n s).heldEvents = s.heldEvents := rfl
@[simp] theorem touchSession_ld (n : Nat) (s : State) : (touchSession n s).ld = s.ld := rfl
@[simp] theorem touchSession_hbs (n : Nat) (s : State) : (touchSession n s).hbs = s.hbs := rfl
@[simp] theorem touchSession_vs (n : Nat) (s : State) : (touchSession n s).vs = s.vs := rfl
@[simp] theorem touchSession_sw (n : Nat) (s : State) : (touchSession n s).sw = s.sw := rfl
@[simp] theorem touchSession_fs (n : Nat) (s : State) : (touchSession n s).fs = s.fs := rfl
@[simp] theorem touchSession_ns (n : Nat) (s : State) : (touchSession n s).ns = s.ns := rfl
@[simp] theorem touchSession_acc (n : Nat) (s : State) : (touchSession n s).acc = s.acc := rfl
@[simp] theorem touchSession_eng (n : Nat) (s : State) : (touchSession n s).eng = s.eng := rfl
@[simp] theorem touchSession_pairs (n : Nat) (s : State) : (touchSession n s).pairs = s.pairs := rfl
@[simp] theorem touchSession_wbufs (n : Nat) (s : State) : (touchSession n s).wbufs = s.wbufs := rfl
@[simp] theorem touchSession_pkgs (n : Nat) (s : State) : (touchSession n s).pkgs = s.pkgs := rfl

/-! Reads of fixed arrays -/

theorem at?_updN {α : Type} {n : Nat} (v : Vector α n) (x y : Nat) (f : α → α) :
    at? (updN v x f) y = if y = x then (at? v x).map f else at? v y := by
  unfold at? updN
  by_cases e : y = x
  · subst e
    by_cases hx : y < n <;> simp [hx]
  · by_cases hx : x < n
    · by_cases hy : y < n
      · simp [hx, hy, e, Ne.symm e]
      · simp [hy, e]
    · by_cases hy : y < n <;> simp [hx, hy, e]

theorem at?_lt {α : Type} {n : Nat} (v : Vector α n) {x : Nat} (h : x < n) : at? v x = some v[x] := by simp [at?, h]
theorem at?_ge {α : Type} {n : Nat} (v : Vector α n) {x : Nat} (h : n ≤ x) : at? v x = none := by simp [at?, Nat.not_lt.mpr h]

theorem lch_setLch_same {n : Nat} (h : n < 64) (f : Lch → Lch) (s : State) : lch (setLch n f s) n = f (lch s n) := by rw [lch, lch, setLch_ld, at?_updN, if_pos rfl, at?_lt _ h]; rfl
theorem lch_setLch_other {m n : Nat} (h : m ≠ n) (f : Lch → Lch) (s : State) : lch (setLch n f s) m = lch s m := by simp only [lch, setLch_ld, at?_updN, if_neg h]
theorem bank_setBank_same {n : Nat} (h : n < 8) (f : Bank → Bank) (s : State) : bank (setBank n f s) n = f (bank s n) := by rw [bank, bank, setBank_ld, at?_updN, if_pos rfl, at?_lt _ h]; rfl
theorem bank_setBank_other {m n : Nat} (h : m ≠ n) (f : Bank → Bank) (s : State) : bank (setBank n f s) m = bank s m := by simp only [bank, setBank_ld, at?_updN, if_neg h]
theorem hb_setHb_same {n : Nat} (h : n < 16) (f : Hb → Hb) (s : State) : hb (setHb n f s) n = f (hb s n) := by rw [hb, hb, setHb_hbs, at?_updN, if_pos rfl, at?_lt _ h]; rfl
theorem hb_setHb_other {m n : Nat} (h : m ≠ n) (f : Hb → Hb) (s : State) : hb (setHb n f s) m = hb s m := by simp only [hb, setHb_hbs, at?_updN, if_neg h]
theorem vlv_setVlv_same {n : Nat} (h : n < 24) (f : Vlv → Vlv) (s : State) : vlv (setVlv n f s) n = f (vlv s n) := by rw [vlv, vlv, setVlv_vs, at?_updN, if_pos rfl, at?_lt _ h]; rfl
theorem vlv_setVlv_other {m n : Nat} (h : m ≠ n) (f : Vlv → Vlv) (s : State) : vlv (setVlv n f s) m = vlv s m := by simp only [vlv, setVlv_vs, at?_updN, if_neg h]
theorem vg_setVg_same {n : Nat} (h : n < 4) (f : Vg → Vg) (s : State) : vg (setVg n f s) n = f (vg s n) := by rw [vg, vg, setVg_vs, at?_updN, if_pos rfl, at?_lt _ h]; rfl
theorem vg_setVg_other {m n : Nat} (h : m ≠ n) (f : Vg → Vg) (s : State) : vg (setVg n f s) m = vg s m := by simp only [vg, setVg_vs, at?_updN, if_neg h]
theorem swi_setSwi_same {n : Nat} (h : n < 48) (f : Swi → Swi) (s : State) : swi (setSwi n f s) n = f (swi s n) := by rw [swi, swi, setSwi_sw, at?_updN, if_pos rfl, at?_lt _ h]; rfl
theorem swi_setSwi_other {m n : Nat} (h : m ≠ n) (f : Swi → Swi) (s : State) : swi (setSwi n f s) m = swi s m := by simp only [swi, setSwi_sw, at?_updN, if_neg h]
theorem fio_setFio_same {n : Nat} (h : n < 32) (f : Fio → Fio) (s : State) : fio (setFio n f s) n = f (fio s n) := by rw [fio, fio, setFio_fs, at?_updN, if_pos rfl, at?_lt _ h]; rfl
theorem fio_setFio_other {m n : Nat} (h : m ≠ n) (f : Fio → Fio) (s : State) : fio (setFio n f s) m = fio s m := by simp only [fio, setFio_fs, at?_updN, if_neg h]
theorem can_setCan_same {n : Nat} (h : n < 8) (f : Can → Can) (s : State) : can (setCan n f s) n = f (can s n) := by rw [can, can, setCan_ns, at?_updN, if_pos rfl, at?_lt _ h]; rfl
theorem can_setCan_other {m n : Nat} (h : m ≠ n) (f : Can → Can) (s : State) : can (setCan n f s) m = can s m := by simp only [can, setCan_ns, at?_updN, if_neg h]
theorem lin_setLin_same {n : Nat} (h : n < 8) (f : Lin → Lin) (s : State) : lin (setLin n f s) n = f (lin s n) := by rw [lin, lin, setLin_ns, at?_updN, if_pos rfl, at?_lt _ h]; rfl
theorem lin_setLin_other {m n : Nat} (h : m ≠ n) (f : Lin → Lin) (s : State) : lin (setLin n f s) m = lin s m := by simp only [lin, setLin_ns, at?_updN, if_neg h]
theorem seg_setSeg_same {n : Nat} (h : n < 16) (f : Seg → Seg) (s : State) : seg (setSeg n f s) n = f (seg s n) := by rw [seg, seg, setSeg_ns, at?_updN, if_pos rfl, at?_lt _ h]; rfl
theorem seg_setSeg_other {m n : Nat} (h : m ≠ n) (f : Seg → Seg) (s : State) : seg (setSeg n f s) m = seg s m := by simp only [seg, setSeg_ns, at?_updN, if_neg h]
theorem eng_setEng_same {n : Nat} (h : n < 16) (f : Eng → Eng) (s : State) : eng (setEng n f s) n = f (eng s n) := by rw [eng, eng, setEng_eng, at?_updN, if_pos rfl, at?_lt _ h]; rfl
theorem eng_setEng_other {m n : Nat} (h : m ≠ n) (f : Eng → Eng) (s : State) : eng (setEng n f s) m = eng s m := by simp only [eng, setEng_eng, at?_updN, if_neg h]
theorem pair_setPair_same {n : Nat} (h : n < 8) (f : PairSt → PairSt) (s : State) : pair (setPair n f s) n = f (pair s n) := by rw [pair, pair, setPair_pairs, at?_updN, if_pos rfl, at?_lt _ h]; rfl
theorem pair_setPair_other {m n : Nat} (h : m ≠ n) (f : PairSt → PairSt) (s : State) : pair (setPair n f s) m = pair s m := by simp only [pair, setPair_pairs, at?_updN, if_neg h]

end Sys2Proof.Laws
end

