-- ==== Sys2Proof/WellFormed.lean ====
section
/-! DEFINITION. Operands that the hardware can present: what a command's operand types do not bound by themselves. `exec`
is total on every term; a well-formed command is one that a bus, a pin or a sensor can deliver. -/

namespace Sys2Proof

/-- A frame that CAN FD can carry (R241, R247): a base identifier of 11 bits, an extended one of 29, a DLC of 4 bits, as many
data bytes as it says, bit-rate switch and ESI in FD frames only, no FD remote frame, no data in a remote frame. -/
def CanFrame.wf (f : CanFrame) : Bool :=
  f.ident < (if f.ide then 2 ^ 29 else 2 ^ 11) && f.dlc < 16 && !(f.brs && !f.fd) && !(f.esi && !f.fd) && !(f.rtr && f.fd) &&
    f.data.length == (if f.rtr then 0 else Machine.dlcLen f.fd f.dlc)

/-- A device address has 32 bits, an offset in configuration space 12 (R384, R386). -/
def HostPlace.wf : HostPlace → Bool
  | .device addr => addr < 2 ^ 32
  | .config off => off < 2 ^ 12

/-- A read returns at most the 512 bytes that its tag reserves (R393). -/
def ReadResult.wf : ReadResult → Bool
  | .data bytes => bytes.length ≤ 512
  | .failed _ => true

/-- An answer of a token: at most 16 bytes with its CRC (R318). -/
def TokenAnswer.wf : TokenAnswer → Bool
  | .frame _ bytes => bytes.length ≤ 16
  | _ => true

/-- A wake in park: a wake-up frame is one that CAN can carry. -/
def WakeKind.wf : WakeKind → Bool
  | .network _ (some (f, _)) => f.wf
  | _ => true

/-- Times in ordered order. -/
def ordered (l : List Nat) : Bool := (l.zip (l.drop 1)).all fun x => x.1 < x.2

/-- The samples of a debounce, of the input's kind and in order (R201, R222). -/
def debounceWf : DebIn → DebTrace → Bool
  | .switch _, .switch l => ordered (l.map (·.dt))
  | .field _, .field l => ordered (l.map (·.dt))
  | _, _ => false

/-- Geometry of an xSPI device (R407): a page is no larger than an erase unit. -/
def XspiGeometry.wf (g : XspiGeometry) : Bool := 0 < g.mib && g.pageLog2 ≤ g.eraseLog2

/-- Commands that carry a checked operand; every other command is bounded by its types. -/
def Instr.wf : Instr → Bool
  | .digitalDieStart f => f.xspi0.all XspiGeometry.wf && f.xspi1.all XspiGeometry.wf
  | .registerWrite addr v be => addr.wf && 0 < v.length && v.length == be.length
  | .readClear addr _ => addr < 2 ^ 32
  | .hostRead addr len => addr.wf && 1 ≤ len && len ≤ 4096
  | .diagnosticRequest _ f => f.wf
  | .frameReceived _ f _ => f.wf
  | .wakeUpFrame _ w => w.1.wf
  | .wakeLatch w => w.wf
  | .linRx _ data _ => 1 ≤ data.length && data.length ≤ 8
  | .tokenAnswer a => a.wf
  | .readCompletion _ r => r.wf
  | .gwDrop r => r < 2048
  | .debounceComplete n t => debounceWf n t
  | .ladderInvalid _ l => ordered (l.map (·.dt))
  | .fioChange _ l => ordered (l.map (·.dt))
  | .voutAcknowledge vout status => vout < 2 ^ 16 && status < 2 ^ 16
  | .pmAlert status => status < 2 ^ 16
  | _ => true

end Sys2Proof
end

