-- ==== Sys2Proof/Tests/Slice0.lean ====
section
/-! SUPPORT. Witnesses for the hypotheses of the statements, the WellFormed smoke test, and the worked examples of the
spec that concern single values. -/

set_option linter.unusedVariables false
set_option Elab.async false

namespace Sys2Proof.Tests

open Sys2Proof Sys2Proof.Machine Sys2Proof.Safety

/-! ### Small states -/

/-- The witness state's tables: a few enabled entries of each kind. -/
def tables : Vector Mem 16 := #v[
  [(18, 44), (19, 1)],
  [(16, 1), (18, 100), (48, 1), (50, 100), (80, 1), (82, 100), (144, 1), (146, 100), (176, 1), (178, 100)],
  [(16, 4), (17, 2)],
  [(16, 48), (24, 1), (26, 5), (30, 1), (48, 48), (56, 1), (58, 5), (62, 1)],
  [(16, 9), (20, 100), (48, 5), (56, 5), (64, 5), (72, 5), (144, 4), (145, 5), (146, 1), (147, 1), (156, 100), (176, 6), (177, 7), (178, 3)],
  [(16, 128), (17, 187), (18, 47), (20, 100), (22, 90), (23, 255), (32, 1), (33, 2), (64, 25), (66, 244), (67, 1), (80, 10), (96, 1)],
  [(16, 1), (24, 1), (32, 5)],
  [],
  [(16, 151), (30, 1), (48, 1), (276, 5)],
  [],
  [(16, 1), (19, 75), (274, 1), (528, 1), (529, 8), (532, 2), (533, 8), (2593, 3), (2594, 10)],
  [(16, 8), (17, 8), (18, 8), (19, 8), (20, 8), (21, 8), (22, 8), (23, 8), (24, 255), (28, 2)],
  [(16, 136), (17, 19), (18, 255), (20, 150), (32, 3), (34, 1), (36, 8), (37, 7), (544, 1), (546, 1), (548, 8), (549, 7)],
  [(16, 1), (18, 255), (32, 1), (40, 1)],
  [],
  []]

/-- A field die's own copy of its table. -/
def fieldCfg : Mem := [(16, 5), (32, 5), (40, 1), (48, 9), (64, 67), (76, 5)]

/-- A device in service: the digital die runs on full clocks, the tables are in force, sessions 0 to 2 are open. -/
def live : State :=
  { State.reset with
    dt := 2 ^ 40, rt := 2 ^ 40
    pw := { State.reset.pw with regWake := true, regRise := none, dieOn := true, clocks := true, ready := true, enginePll := true, retention := true }
    stg := { State.reset.stg with tables := tables, inForce := true, seq := 7, report := some [1] }
    ses := #v[{ isOpen := true }, { isOpen := true }, { isOpen := true }, {}]
    flt := { State.reset.flt with phase := .normal }
    hw := { State.reset.hw with any := true, oldest := 5, newest := 5 }
    keys := #v[none, none, none, none, none, some 5, some 6]
    host := { State.reset.host with xspi := Vector.replicate 2 { geometry := some { mib := 64, eraseLog2 := 12, pageLog2 := 8 } } }
    sw := { State.reset.sw with inputs := Vector.replicate 48 { level := true, valid := true } }
    fs := { State.reset.fs with powered := true, fresh := false, cfg := fieldCfg }
    acc := { State.reset.acc with lastN := 1 }
    ns := { State.reset.ns with
      seg := Vector.replicate 16 { en := true, st := .awake, xcvr := 0 }
      lin := Vector.replicate 8 { sched := some 0 } } }

/-- A descriptor of session 0 from engine 0: opcode, TARGET, PLEN, and fields of PARAM by their byte. -/
def dsc (op target plen : Nat) (fs : List (Nat × Nat) := []) : Desc :=
  { origin := .engine 0, raw := BitVec.ofNat 256 (op + target * 2 ^ 32 + plen * 2 ^ 48 + (fs.map fun x => x.2 * 2 ^ (8 * x.1)).foldl (· + ·) 0) }

/-- The state with that descriptor first at its origin. -/
def ask (d : Desc) (s : State) : State := { s with engPipe := s.engPipe.set 0 [d] }

/-- An engine whose G0 to G3 name places in its local RAM, with a stack there. -/
def eng0 : Eng :=
  { regs := #v[1, 2, 3, 0, 0x20000100, 0x20000200, 7, 0x20000300, 9, 10, 11, 12, 0, 0, 0, 0], ssp := 0x20001000, tsp := 0x20002000, pc := 0x10F00000 }

/-- `live` with that engine as engine 0 (of a coupled pair) and engine 4 (of a split pair). -/
def run (g : Eng) : State :=
  { live with eng := (live.eng.set 0 g).set 4 g, pairs := live.pairs.set 2 { split := true } }

/-- The descriptor, first at engine 0, is taken by operation `op`. -/
def took (s : State) (op : Nat) (form : State → Desc → OpForm) (d : Desc) : Bool := decide (Took (ask d s) (.engine 0) op form d)

/-- As `took`, and its block has come whole. -/
def tookBlock (s : State) (op : Nat) (form : State → Desc → OpForm) (place : BlockPlace) (d : Desc) : Bool :=
  let t := ask d s
  let u := begun (.engine 0) d form t
  took s op form d && blockThere (.engine 0) place t d && (blockBytes (.engine 0) (place u d).1 (place u d).2.1 (place u d).2.2 u).1.isSome

/-- A command answers a next state. -/
def goes (c : Instr) (s : State) : Bool := match exec c s with | .next _ => true | _ => false

/-! ### Witnesses of the completion statements -/

/-- The hypotheses of `Obligations.RingCommandsComplete`, clause by clause, at boundary values of deadlines and ranges. -/
theorem witness_RingCommandsComplete :
    [(/- doorbellWrite -/ let s : State := live
     (s.pw.dieOn)),
     (/- ringStart -/ let s : State := live
     let v : Word := 0x80000000
     (s.pw.dieOn) &&
     (decide (bitN v.toNat 31))),
     (/- ringStop -/ let s : State := live
     let v : Word := 0x40000000
     (s.pw.dieOn) &&
     (decide (bitN v.toNat 30))),
     (/- ringStopped -/ let s : State := { live with rings := live.rings.set 0 { active := true, stopping := true } }
     let n : Fin 64 := 0
     (decide (s.rings[n].active && s.rings[n].stopping && s.rings[n].pipe.isEmpty && !originBusy s (.ring n)))),
     (/- ringSetupWrite -/ let s : State := live
     (s.pw.dieOn)),
     (/- descriptorFetch -/ let s : State := live
     (s.pw.dieOn)),
     (/- irqTimerExpiry -/ let s : State := { live with rings := live.rings.set 1 { role := true, irqEn := true, timerUs := 5, irqStart := some (2 ^ 40 - 400) } }
     let n : Fin 64 := 1
     (decide (irqTimeUp s.rings[n] s.dt))),
     (/- stallTimeout -/ let s : State := { live with host := { live.host with selfHosted := true }, rings := (live.rings.set 0 { active := true, db := 1, stallMs := 1, stallStart := some (2 ^ 40 - 80000) }).set 1 { role := true, active := true, idx := 16 } }
     let n : Fin 64 := 0
     (decide (stallTimeUp s n))),
     (/- nop -/ took (live) 0x0000 nopForm (dsc 0x0000 0xF00 0)),
     (/- echo -/ took (live) 0x0001 echoForm (dsc 0x0001 0xF00 0)),
     (/- placementQuery -/ took (live) 0x0002 placementQueryForm (dsc 0x0002 0xF00 0 [(16, 0x1000), (24, 0x20)])),
     (/- registerWrite -/ let s : State := live
     s.pw.dieOn),
     (/- registerWrite -/ let s : State := live
     s.pw.dieOn),
     (/- readClear -/ let s : State := live
     (s.pw.dieOn)),
     (/- hostRead -/ let s : State := { live with host := { live.host with inReads := List.replicate 31 { addr := 0, len := 4, dt := 0 } } }
     s.pw.dieOn && decide (s.host.inReads.length < inReadMax)),
     (/- hostRead -/ let s : State := live
     s.pw.dieOn)].all id = true := by decide +kernel

/-- The hypotheses of `Obligations.StagingAndSessionCommandsComplete`, clause by clause, at boundary values of deadlines and ranges. Part 1. -/
theorem witness_StagingAndSessionCommandsComplete_1 :
    [(/- stageWrite -/ tookBlock (live) 0x0100 stageWriteForm paramBlock (dsc 0x0100 0xF00 4 [(16, 0x1000), (24, 2), (28, 4)])),
     (/- stageLoad -/ took (live) 0x0101 stageLoadForm (dsc 0x0101 0xF00 0 [(24, 2)])),
     (/- stageDiscard -/ took (live) 0x0102 stageDiscardForm (dsc 0x0102 0xF00 0 [(24, 0xFFFF)])),
     (/- stageQuery -/ took (live) 0x0103 stageQueryForm (dsc 0x0103 0xF00 0)),
     (/- stgDataWrite -/ let s : State := live
     (s.pw.dieOn)),
     (/- autoCommit -/ let s : State := { live with pw := { live.pw with autoCommit := true }, stg := { live.stg with inForce := false }, host := { live.host with selfHosted := true } }
     s.pw.dieOn && autoAccepts s),
     (/- autoCommit -/ let s : State := { live with pw := { live.pw with autoCommit := true }, stg := { live.stg with inForce := false }, host := { live.host with selfHosted := true }, upd := { live.upd with state := .trial } }
     s.pw.dieOn && autoDue s && s.upd.state == .trial && (!s.flt.srcs.toList.any fun x => x.sticky && 2 ≤ x.eff) && autoAccepts (confirmSet 2 [] s)),
     (/- stgCtrlCommit -/ let s : State := live
     let v : Word := 0x80000000
     (s.pw.dieOn) &&
     (decide (bitN v.toNat 31))),
     (/- stgCtrlCheck -/ let s : State := live
     let v : Word := 0x40000000
     (s.pw.dieOn) &&
     (decide (bitN v.toNat 30))),
     (/- stgCtrlDiscard -/ let s : State := live
     let v : Word := 0x20000000
     (s.pw.dieOn) &&
     (decide (bitN v.toNat 29))),
     (/- commitCheck -/ took (live) 0x0200 commitCheckForm (dsc 0x0200 0xF00 0)),
     (/- commit -/ took (live) 0x0201 commitForm (dsc 0x0201 0xF00 0 [(24, 7)])),
     (/- checkAndPlacementComplete -/ let s : State := { live with stg := { live.stg with run := some { who := .regs, session := 0, checkOnly := false, phase := .checking, stepAt := 0, reqTick := 0, t0 := 2 ^ 40 - 64000 } } }
     (s.pw.dieOn) &&
     (match runIn s .checking with
     | some c =>
       (!decide (s.dt < c.t0 + us 800)) &&
       true
     | _ => false)),
     (/- newSetHeld -/ let s : State := { live with stg := { live.stg with run := some { who := .regs, session := 0, checkOnly := false, phase := .writing, t0 := 0, stepAt := 2 ^ 40 - 24000, reqTick := 0 } } }
     (s.pw.dieOn) &&
     (match runIn s .writing with
     | some c =>
       (!decide (s.dt < c.stepAt + us 300)) &&
       true
     | _ => false)),
     (/- commitTick -/ let s : State := { live with stg := { live.stg with run := some { who := .regs, session := 0, checkOnly := false, phase := .held, t0 := 0, stepAt := 2 ^ 40 - 1600, reqTick := 0 } } }
     (s.pw.dieOn) &&
     (match runIn s .held with
     | some c =>
       (let earliest := c.stepAt + us 20
       (!decide (s.dt < max c.reqTick earliest)) &&
       true)
     | _ => false)),
     (/- mramMarkCommitted -/ let s : State := { live with stg := { live.stg with run := some { who := .regs, session := 0, checkOnly := false, phase := .applied, t0 := 0, stepAt := 2 ^ 40 - 1600, reqTick := 0 } } }
     (s.pw.dieOn) &&
     (match runIn s .applied with
     | some c =>
       (!decide (s.dt < c.stepAt + us 20)) &&
       true
     | _ => false)),
     (/- sessionChallenge -/ took (live) 0x0210 sessionChallengeForm (dsc 0x0210 0xF00 0 [(24, 3)])),
     (/- sessionOpen -/ took (live) 0x0211 sessionOpenForm (dsc 0x0211 0xF00 0 [(24, 3)])),
     (/- sessionClose -/ took (live) 0x0212 sessionCloseForm (dsc 0x0212 0xF00 0 [(24, 1)])),
     (/- challengeExpiry -/ let s : State := { live with ses := live.ses.set 3 { challenge := some (1, 2 ^ 40 - 800000000) } }
     let n : Fin 4 := 3
     (decide (challengeOver s.ses[n] s.dt)))].all id = true := by decide +kernel

/-- The hypotheses of `Obligations.StagingAndSessionCommandsComplete`, clause by clause, at boundary values of deadlines and ranges. Part 2. -/
theorem witness_StagingAndSessionCommandsComplete_2 :
    [(/- sessionLockExpiry -/ let s : State := { live with ses := live.ses.set 3 { lockEnd := some (2 ^ 40) } }
     let n : Fin 4 := 3
     (decide (lockOver s.ses[n] s.rt))),
     (/- sessionExpiry -/ let s : State := { live with ses := live.ses.set 0 { isOpen := true, lastNamed := 2 ^ 40 - 24000000000 } }
     let n : Fin 4 := 0
     (s.pw.dieOn) &&
     (decide (s.ses[n].isOpen && n.val != 2 && idleTime s != 0 && s.ses[n].lastNamed + sec (idleTime s) ≤ s.dt))),
     (/- runtimeSessionOpen -/ let s : State := { live with ses := live.ses.set 2 {} }
     (s.pw.dieOn) &&
     (decide (!sessionOpen s 2))),
     (/- heartwoodRecordWrite -/ let s : State := live
     (s.pw.dieOn)),
     (/- hwRead -/ took (live) 0x3800 hwReadForm (dsc 0x3800 0x942 0 [(16, 0x1000), (24, 5), (28, 1)])),
     (/- hwQuery -/ took (live) 0x3801 hwQueryForm (dsc 0x3801 0x942 0))].all id = true := by decide +kernel

/-- The hypotheses of `Obligations.LoadAndWireCommandsComplete`, clause by clause, at boundary values of deadlines and ranges. Part 1. -/
theorem witness_LoadAndWireCommandsComplete_1 :
    [(/- lchSet -/ took (live) 0x1000 lchSetForm (dsc 0x1000 0x000 0 [(24, 2), (26, 0xFFF)])),
     (/- lchTimed -/ took (live) 0x1001 lchTimedForm (dsc 0x1001 0x001 0 [(24, 1), (28, 0x36EE80)])),
     (/- lchSetMask -/ took (live) 0x1002 lchSetMaskForm (dsc 0x1002 0x020 0 [(24, 1), (25, 3)])),
     (/- lchQuery -/ took (live) 0x1003 lchQueryForm (dsc 0x1003 0x30F 0)),
     (/- heatQuery -/ took (live) 0x1004 heatQueryForm (dsc 0x1004 0xF00 0)),
     (/- timedEnd -/ let s : State := { live with ld := { live.ld with chs := live.ld.chs.set 0 { run := 1, timed := some { uid := 3, endDt := some (2 ^ 40), onMs := 5, result := 0 } } } }
     let n : Fin 64 := 0
     (s.pw.dieOn) &&
     (match (lch s n).timed with
     | some t =>
       (!decide (s.dt < t.endDt.getD (s.dt + 1))) &&
       true
     | _ => false)),
     (/- leafStepUp -/ let s : State := { live with ld := { live.ld with chs := live.ld.chs.set 0 { run := 1 } } }
     let n : Fin 64 := 0
     let i : Nat := 2344
     (s.pw.clocks) &&
     (let c := lch s n
     (decide (c.run != 0 && beyondStep n c i && !leafForced s n c && c.step < fullStep n)))),
     (/- leafStepDown -/ let s : State := { live with ld := { live.ld with chs := live.ld.chs.set 0 { run := 1, step := 2, lowSince := some (2 ^ 40 - 800000) } } }
     let n : Fin 64 := 0
     (s.pw.clocks) &&
     (let c := lch s n
     (match c.lowSince with
     | some t =>
       (decide (c.run != 0 && t + ms 10 ≤ s.dt && !leafForced s n c && 1 < c.step)) &&
       true
     | _ => false))),
     (/- pwmPeriodStart -/ let s : State := { live with ld := { live.ld with chs := live.ld.chs.set 5 { run := 2, dEff := 0xFFF } } }
     let n : Fin 64 := 5
     (s.pw.clocks) &&
     (let c := lch s n
     (decide (isMember s n)) &&
     (decide (onGrid s c n && outDuty s n c != 0)))),
     (/- pwmPeriodStart -/ let s : State := { live with ld := { live.ld with chs := live.ld.chs.set 0 { run := 2 } } }
     let n : Fin 64 := 0
     (s.pw.clocks) &&
     (let c := lch s n
     (!decide (isMember s n)) &&
     (!decide (!onGrid s c n || gridIndex s n s.dt ≤ gridIndex s n (sinceDt c))))),
     (/- inrushEnd -/ let s : State := { live with ld := { live.ld with chs := live.ld.chs.set 0 { inrush := some (2 ^ 40) } } }
     let n : Fin 64 := 0
     (s.pw.clocks) &&
     (match (lch s n).inrush with
     | some t =>
       (decide (t ≤ s.dt && !isMember s n)) &&
       true
     | _ => false)),
     (/- preheatEnd -/ let s : State := { live with ld := { live.ld with chs := live.ld.chs.set 0 { pre := some { start := 2 ^ 40 - 80000, len := 1, d0 := 0, lvl := 2 } } } }
     let n : Fin 64 := 0
     (s.pw.clocks) &&
     (match (lch s n).pre with
     | some p =>
       (decide (p.start + ms p.len ≤ s.dt && !isMember s n)) &&
       true
     | _ => false)),
     (/- budgetAllocation -/ let s : State := { live with ld := { live.ld with budDt := 2 ^ 40 - 800000 } }
     (s.pw.dieOn) &&
     (!decide (s.dt < s.ld.budDt + ms 10))),
     (/- gangImbalance -/ let s : State := { live with ld := { live.ld with chs := live.ld.chs.set 4 { imbSince := some (2 ^ 40 - 8000000) } } }
     let n : Fin 64 := 4
     (s.pw.clocks) &&
     (let c := lch s n
     (match c.imbSince with
     | some t =>
       (decide (t + ms 100 ≤ s.dt && !c.imbRaised && 1 < (membersOf s n).length)) &&
       true
     | _ => false))),
     (/- bankSenseImplausible -/ let s : State := live
     let b : Fin 8 := 7
     let sense : Int := 65001
     let die : Nat := 65001
     (s.pw.clocks) &&
     (decide (senseWrong sense die && !(bank s b).senseBad))),
     (/- cpFreezeEnd -/ let s : State := { live with ld := { live.ld with banks := live.ld.banks.set 0 { frozen := true, freezeFrom := 2 ^ 40 - 16000 } } }
     let b : Fin 8 := 0
     (s.pw.clocks) &&
     (let k := bank s b
     (let lim := (List.range 8).any fun j => (lch s (8 * b.val + j)).scLim
     (decide (k.frozen && !lim && k.freezeFrom + us 200 ≤ s.dt))))),
     (/- bankSensePlausible -/ let s : State := live
     let sense : Int := 12000
     let die : Nat := 14000
     (s.pw.clocks) &&
     (decide (!senseWrong sense die))),
     (/- wireModelUpdate -/ let s : State := { live with ld := { live.ld with updDt := 2 ^ 40 - 80000 } }
     (s.pw.clocks) &&
     (!decide (s.dt < s.ld.updDt + ms 1))),
     (/- restartCountReset -/ let s : State := { live with ld := { live.ld with chs := live.ld.chs.set 0 { count := 1, lastProt := 2 ^ 40 - 80000000 } } }
     let n : Fin 64 := 0
     (s.pw.clocks) &&
     (decide ((lch s n).lastProt + sec (wireU s n 8 2) ≤ s.dt && !isMember s n))),
     (/- heatSnapshot -/ let s : State := { live with ld := { live.ld with snapDt := 2 ^ 40 - 20480000 } }
     (s.pw.dieOn) &&
     (decide (s.ld.snapDt + ms 256 ≤ s.dt)))].all id = true := by decide +kernel

/-- The hypotheses of `Obligations.LoadAndWireCommandsComplete`, clause by clause, at boundary values of deadlines and ranges. Part 2. -/
theorem witness_LoadAndWireCommandsComplete_2 :
    [(/- ambientStale -/ let s : State := { live with ld := { live.ld with amb := live.ld.amb.set 3 { setDt := 2 ^ 40 - 800000000 }, chs := live.ld.chs.set 9 { wire := { ambSrc := 4 } } } }
     let g : Fin 4 := 3
     (s.pw.dieOn) &&
     (let a := s.ld.amb[g]
     (decide (!a.stale && takesAmb s g && max a.setDt s.pw.releaseDt + sec 10 ≤ s.dt)))),
     (/- shortCircuitLimit -/ let s : State := { live with ld := { live.ld with chs := live.ld.chs.set 0 { run := 1 } } }
     let n : Fin 64 := 0
     let i : Nat := 95000
     (s.pw.clocks) &&
     (!decide ((lch s n).run == 0 || i < limMin n))),
     (/- envelopeTrip -/ let s : State := { live with ld := { live.ld with chs := live.ld.chs.set 0 { run := 1, inrush := some 5, env := 9 } } }
     let n : Fin 64 := 0
     let i : Nat := 10
     (s.pw.clocks) &&
     (let c := lch s n
     (decide (!isMember s n && c.run != 0 && c.inrush.isSome && c.env != 0 && c.env < i)))),
     (/- switchOvertemp -/ let s : State := { live with ld := { live.ld with chs := live.ld.chs.set 0 { run := 1 } } }
     let n : Fin 64 := 0
     let t : Int := 2640
     (s.pw.clocks) &&
     (!decide ((lch s n).run == 0 || t < 2640))),
     (/- onStateDiagnosis -/ let s : State := { live with ld := { live.ld with chs := live.ld.chs.set 0 { run := 1, olSince := some (2 ^ 40 - 800000) } } }
     let n : Fin 64 := 0
     (s.pw.clocks) &&
     (let c := lch s n
     (match c.olSince with
     | some t =>
       (decide (t + ms 10 ≤ s.dt && onDiagActive s n c)) &&
       true
     | _ => false))),
     (/- reverseCurrent -/ let s : State := { live with ld := { live.ld with chs := live.ld.chs.set 0 { run := 1 } } }
     let n : Fin 64 := 0
     let i : Nat := 500
     (s.pw.clocks) &&
     (decide (onDiagActive s n (lch s n) && 500 ≤ i))),
     (/- offStateDiagnosis -/ let s : State := { live with ld := { live.ld with chs := live.ld.chs.set 0 { offDiagDt := 2 ^ 40 - 80000 } } }
     let n : Fin 64 := 0
     (s.pw.clocks) &&
     (decide (lchEn s n && !isMember s n && bitN (wireU s n 0 1) 4 && offDiagRuns s n && (lch s n).offDiagDt + ms (wireU s n 14 2) ≤ s.dt && entriesAct s))),
     (/- protClear -/ took (live) 0x1020 protClearForm (dsc 0x1020 0x000 0)),
     (/- wireQuery -/ took (live) 0x1021 wireQueryForm (dsc 0x1021 0x30F 0)),
     (/- wireAmbient -/ took (live) 0x1022 wireAmbientForm (dsc 0x1022 0xF00 0 [(24, 3), (26, 0xFD80)])),
     (/- diagRun -/ took (live) 0x1023 diagRunForm (dsc 0x1023 0x000 0))].all id = true := by decide +kernel

/-- The hypotheses of `Obligations.BridgeAndValveCommandsComplete`, clause by clause, at boundary values of deadlines and ranges. Part 1. -/
theorem witness_BridgeAndValveCommandsComplete_1 :
    [(/- brDrive -/ took (live) 0x1100 brDriveForm (dsc 0x1100 0x110 0 [(24, 1), (26, 0x800), (28, 0x927C0)])),
     (/- brMove -/ took ({ live with hbs := live.hbs.set 4 { posValid := true } }) 0x1101 brMoveForm (dsc 0x1101 0x110 0 [(28, 0x64)])),
     (/- brPulse -/ took (live) 0x1102 brPulseForm (dsc 0x1102 0x110 0 [(24, 2)])),
     (/- wiperSet -/ took (live) 0x1103 wiperSetForm (dsc 0x1103 0x112 0 [(24, 2), (28, 0x1F4)])),
     (/- brQuery -/ took (live) 0x1104 brQueryForm (dsc 0x1104 0x110 0)),
     (/- brPosSet -/ took (live) 0x1105 brPosSetForm (dsc 0x1105 0x110 0 [(28, 0x64)])),
     (/- hbSet -/ took (live) 0x1106 hbSetForm (dsc 0x1106 0x010 0 [(24, 2), (26, 0xFFF)])),
     (/- hbDiagRun -/ took (live) 0x1107 hbDiagRunForm (dsc 0x1107 0x010 0)),
     (/- brakeEnd -/ let s : State := { live with hbs := live.hbs.set 4 { brake := some (2 ^ 40, .coast) } }
     let h : Fin 16 := 4
     (s.pw.clocks) &&
     (let b := hb s h
     (match b.brake with
     | some (t, next) =>
       (!decide (s.dt < t)) &&
       true
     | _ => false))),
     (/- peakTimeTrip -/ let s : State := { live with hbs := live.hbs.set 0 { run := 1, peakT := 2000 } }
     let h : Fin 16 := 0
     (s.pw.clocks) &&
     (decide (legLive s h && 2000 ≤ (hb s h).peakT))),
     (/- hbShortCircuit -/ let s : State := { live with hbs := live.hbs.set 0 { run := 1 } }
     let h : Fin 16 := 0
     let i : Nat := 34000
     (s.pw.clocks) &&
     (decide (legLive s h && 34000 ≤ i))),
     (/- hbOvertemp -/ let s : State := { live with hbs := live.hbs.set 0 { run := 1 } }
     let h : Fin 16 := 0
     let t : Int := 2640
     (s.pw.clocks) &&
     (decide (legLive s h && 2640 ≤ t))),
     (/- hbHeldClear -/ let s : State := { live with hbs := live.hbs.set 4 { held := some 5, lastSc := some (2 ^ 40 - 8000000), peakT := 1000, tSw := 2400 } }
     let h : Fin 16 := 4
     (s.pw.clocks) &&
     (match (hb s h).held with
     | some p =>
       (decide (legCool s h && legCool s p)) &&
       true
     | _ => false)),
     (/- ripple -/ let s : State := { live with hbs := live.hbs.set 4 { state := 1, op := some { kind := 1, uid := some 3, cfg := { brEntry live 0 with pinch := true, ripple := true } } } }
     let h : Fin 16 := 4
     (s.pw.clocks) &&
     (let b := hb s h
     (match actingCfg s h with
     | some c =>
       (let drv := driving b
       (!decide (!c.ripple || !(drv || b.countFrom.isSome))) &&
       true)
     | _ => false))),
     (/- pinchArm -/ let s : State := { live with hbs := live.hbs.set 4 { state := 1, driveDt := 2 ^ 40 - 12000000, op := some { kind := 1, uid := some 3, cfg := { brEntry live 0 with kind := 2, pinch := true } } } }
     let h : Fin 16 := 4
     (s.pw.clocks) &&
     (let b := hb s h
     (decide (pinches b && b.state == 1 && b.driveDt + ms 150 ≤ s.dt && !b.pinchTime)))),
     (/- backEmfCountEnd -/ let s : State := { live with hbs := live.hbs.set 4 { countFrom := some (2 ^ 40 - 24000000), ripDt := 2 ^ 40 } }
     let h : Fin 16 := 4
     (s.pw.clocks) &&
     (let b := hb s h
     (decide (b.countFrom.isSome && (countOver b s.dt || b.ripDt + ms 50 < s.dt))))),
     (/- stall -/ let s : State := { live with hbs := live.hbs.set 4 { state := 1, stallFrom := some (2 ^ 40), op := some { kind := 1, uid := some 3, cfg := { brEntry live 0 with pinch := true, ripple := true } } } }
     let h : Fin 16 := 4
     (s.pw.clocks) &&
     (let b := hb s h
     (match b.op with
     | some o =>
       (!decide (!driving b || !(stallByCurrent b o s.dt || stallByRipple b o s.dt))) &&
       true
     | _ => false))),
     (/- wiperParked -/ let s : State := { live with hbs := live.hbs.set 6 { state := 1, op := some { kind := 4, uid := some 3, cfg := { brEntry live 1 with pinch := true, ripple := true }, wmode := 1 } } }
     (s.pw.clocks)),
     (/- wiperInterval -/ let s : State := { live with hbs := live.hbs.set 6 { op := some { kind := 4, uid := some 3, cfg := { brEntry live 1 with pinch := true, ripple := true }, wmode := 2, interval := 500, parkDt := 2 ^ 40 - 40000000 } } }
     let h : Fin 16 := 6
     (s.pw.clocks) &&
     (let b := hb s h
     (match b.op with
     | some o =>
       (decide (o.kind == 4 && o.wmode == 2 && b.state == 0 && o.parkDt + ms o.interval ≤ s.dt)) &&
       true
     | _ => false))),
     (/- parkTimeout -/ let s : State := { live with hbs := live.hbs.set 6 { state := 1, lookFrom := some (2 ^ 40 - 400000000), op := some { kind := 4, uid := some 3, cfg := { brEntry live 1 with pinch := true, ripple := true } } } }
     let h : Fin 16 := 6
     (s.pw.clocks) &&
     (let b := hb s h
     (match b.op, b.lookFrom with
     | some o, some t =>
       (decide (o.kind == 4 && b.state == 1 && t + sec 5 ≤ s.dt)) &&
       true
     | _, _ => false)))].all id = true := by decide +kernel

/-- The hypotheses of `Obligations.BridgeAndValveCommandsComplete`, clause by clause, at boundary values of deadlines and ranges. Part 2. -/
theorem witness_BridgeAndValveCommandsComplete_2 :
    [(/- driveTimeout -/ let s : State := { live with hbs := live.hbs.set 4 { state := 1, op := some { kind := 1, uid := some 3, cfg := { brEntry live 0 with pinch := true, ripple := true }, endDt := some (2 ^ 40) } } }
     let h : Fin 16 := 4
     (s.pw.clocks) &&
     (match (hb s h).op with
     | some o =>
       (match o.kind, o.endDt with
       | 1, some t =>
         (decide (t ≤ s.dt && o.reason != 2 && drivesOrWill (hb s h))) &&
         true
       | _, _ => false)
     | _ => false)),
     (/- pulseEnd -/ let s : State := { live with hbs := live.hbs.set 4 { state := 2, op := some { kind := 3, uid := some 3, cfg := { brEntry live 0 with pinch := true, ripple := true }, endDt := some (2 ^ 40) } } }
     let h : Fin 16 := 4
     (s.pw.clocks) &&
     (match (hb s h).op with
     | some o =>
       (match o.kind, o.endDt with
       | 3, some t =>
         (decide (t ≤ s.dt && driving (hb s h))) &&
         true
       | _, _ => false)
     | _ => false)),
     (/- hbOffStateDiagnosis -/ let s : State := { live with hbs := live.hbs.set 0 { offDiagDt := 2 ^ 40 - 8000000 } }
     let h : Fin 16 := 0
     (s.pw.dieOn) &&
     (decide (s.stg.inForce && bitN (hbU s h 0 1) 3 && hbDiagRuns s h && (hb s h).offDiagDt + ms 100 ≤ s.dt))),
     (/- hbOnStateOpenLoad -/ let s : State := { live with hbs := live.hbs.set 4 { olFrom := some (2 ^ 40 - 4000000) } }
     let h : Fin 16 := 4
     (s.pw.dieOn) &&
     (match (hb s h).olFrom with
     | some t =>
       (decide (t + ms 50 ≤ s.dt && !diagSuspended s (hbBank h))) &&
       true
     | _ => false)),
     (/- vlvFire -/ took (live) 0x1200 vlvFireForm (dsc 0x1200 0x400 0 [(16, 0)])),
     (/- vlvRelease -/ took (live) 0x1201 vlvReleaseForm (dsc 0x1201 0x400 0 [(24, 1)])),
     (/- vlvPeriodic -/ took (live) 0x1202 vlvPeriodicForm (dsc 0x1202 0x400 0 [(16, 0x10000000000), (24, 1)])),
     (/- vlvQuery -/ took (live) 0x1203 vlvQueryForm (dsc 0x1203 0x401 0)),
     (/- boostSet -/ took (live) 0x1204 boostSetForm (dsc 0x1204 0x428 0 [(24, 1)])),
     (/- ledgerQuery -/ took (live) 0x1205 ledgerQueryForm (dsc 0x1205 0x428 0)),
     (/- vlvDiagRun -/ took (live) 0x1206 vlvDiagRunForm (dsc 0x1206 0x400 0)),
     (/- fireRequestedStart -/ let s : State := { live with vs := { live.vs with pend := [{ valve := 0, uid := some 3, start := 2 ^ 40, order := 0, holdMs := 1, cfg := vlvCfg live 0 }] } }
     let v : Fin 24 := 0
     (s.pw.dieOn) &&
     (match s.vs.pend.find? fun f => f.valve == v.val && f.start ≤ s.dt with
     | some f =>
       true
     | _ => false)),
     (/- slotGrant -/ let s : State := { live with vs := { live.vs with vg := live.vs.vg.set 0 { waiting := [{ valve := 0, uid := some 3, start := 2 ^ 40, order := 0, holdMs := 1, cfg := vlvCfg live 0 }] } } }
     let g : Fin 4 := 0
     (s.pw.clocks) &&
     (match firstWaiting (vg s g).waiting with
     | some f =>
       (decide (slotFree s g && capReady s f.cfg)) &&
       true
     | _ => false)),
     (/- deferTimeout -/ let s : State := { live with vs := { live.vs with vlv := live.vs.vlv.set 0 { state := 1, fire := some { valve := 0, uid := some 3, start := 2 ^ 40 - 16000, order := 0, holdMs := 1, cfg := vlvCfg live 0 } } } }
     let v : Fin 24 := 0
     (s.pw.clocks) &&
     (match (vlv s v).state, (vlv s v).fire with
     | 1, some f =>
       (!decide (s.dt < f.start + f.maxDefer)) &&
       true
     | _, _ => false)),
     (/- peakReached -/ let s : State := { live with vs := { live.vs with vlv := live.vs.vlv.set 0 { state := 2 } } }
     let v : Fin 24 := 0
     let m : VlvCurs := { i := 500, hi := 500 }
     (s.pw.clocks) &&
     (let x := vlv s v
     (let c := vlvActs s v
     (!decide (x.state != 2 || m.i < c.iPeak))))),
     (/- boostTimeout -/ let s : State := { live with vs := { live.vs with vlv := live.vs.vlv.set 0 { state := 2, since := 2 ^ 40 } } }
     let v : Fin 24 := 0
     (s.pw.clocks) &&
     (decide ((vlv s v).state == 2 && (vlv s v).since + us (vlvActs s v).tBoostMax ≤ s.dt))),
     (/- peakEnd -/ let s : State := { live with vs := { live.vs with vlv := live.vs.vlv.set 0 { state := 3, since := 2 ^ 40 } } }
     let v : Fin 24 := 0
     (s.pw.clocks) &&
     (decide ((vlv s v).state == 3 && (vlv s v).since + us (vlvActs s v).tPeak ≤ s.dt))),
     (/- decayEnd -/ let s : State := { live with vs := { live.vs with vlv := live.vs.vlv.set 0 { state := 4 } } }
     let v : Fin 24 := 0
     let m : VlvCurs := { i := 0, hi := 0 }
     (s.pw.clocks) &&
     (let x := vlv s v
     (let c := vlvActs s v
     (!decide (x.state != 4 || (c.iHold < m.i && s.dt < x.since + us c.decMax)))))),
     (/- holdEnd -/ let s : State := { live with vs := { live.vs with vlv := live.vs.vlv.set 0 { state := 5, holdEnd := some (2 ^ 40) } } }
     let v : Fin 24 := 0
     (s.pw.clocks) &&
     (match (vlv s v).state, (vlv s v).holdEnd with
     | 5, some t =>
       (decide (t ≤ s.dt && !(safeHeld s (.vlv v) && (safeKind s (.vlv v) == 1 || safeKind s (.vlv v) == 2)))) &&
       true
     | _, _ => false)),
     (/- valveOff -/ let s : State := { live with vs := { live.vs with vlv := live.vs.vlv.set 0 { state := 6 } } }
     let v : Fin 24 := 0
     (s.pw.clocks) &&
     (let x := vlv s v
     (!decide (x.state != 6))))].all id = true := by decide +kernel

/-- The hypotheses of `Obligations.BridgeAndValveCommandsComplete`, clause by clause, at boundary values of deadlines and ranges. Part 3. -/
theorem witness_BridgeAndValveCommandsComplete_3 :
    [(/- releaseTimeout -/ let s : State := { live with vs := { live.vs with vlv := live.vs.vlv.set 0 { state := 6, since := 2 ^ 40 - 3200, decMax := 10 } } }
     let v : Fin 24 := 0
     (s.pw.clocks) &&
     (let x := vlv s v
     (decide (x.state == 6 && x.since + us (4 * x.decMax) ≤ s.dt && !x.relLate)))),
     (/- periodicFiring -/ let s : State := { live with vs := { live.vs with vlv := live.vs.vlv.set 0 { perNext := some (2 ^ 40) } } }
     let v : Fin 24 := 0
     (s.pw.dieOn) &&
     (match (vlv s v).perNext with
     | some t =>
       (!decide (s.dt < t)) &&
       true
     | _ => false)),
     (/- prechargeDone -/ let s : State := { live with vs := { live.vs with boost := .precharge } }
     (s.pw.clocks) &&
     (!decide (s.vs.boost != .precharge))),
     (/- measureDone -/ let s : State := { live with vs := { live.vs with boost := .measure } }
     (s.pw.clocks) &&
     (!decide (s.vs.boost != .measure))),
     (/- boostReady -/ let s : State := { live with vs := { live.vs with boost := .charging } }
     let vCap : Nat := 43200
     (s.pw.clocks) &&
     (decide (s.vs.boost == .charging && vReady s ≤ vCap))),
     (/- boostSuspend -/ let s : State := { live with vs := { live.vs with boost := .ready } }
     let x : HeldV := { v := 7999, since := 2 ^ 40 - 80000 }
     (s.pw.clocks) &&
     (!decide (!boostOut s x.v || s.dt < x.since + ms 1)) &&
     (decide (s.vs.boost == .ready))),
     (/- boostSuspend -/ let s : State := { live with vs := { live.vs with boost := .charging } }
     let x : HeldV := { v := 42001, since := 2 ^ 40 - 80000 }
     (s.pw.clocks) &&
     (!decide (!boostOut s x.v || s.dt < x.since + ms 1)) &&
     (!decide (s.vs.boost == .ready)) &&
     (decide (s.vs.boost == .charging))),
     (/- boostResume -/ let s : State := { live with vs := { live.vs with boost := .suspended, boostDt := 2 ^ 40 - 800000 } }
     let x : HeldV := { v := 8000, since := 2 ^ 40 - 800000 }
     (s.pw.clocks) &&
     (decide (s.vs.boost == .suspended && !boostOut s x.v && s.vs.boostDt ≤ x.since && x.since + ms 10 ≤ s.dt))),
     (/- boostConverterFault -/ let s : State := { live with vs := { live.vs with boost := .charging } }
     (s.pw.clocks) &&
     (decide (s.vs.boost == .ready || s.vs.boost == .charging))),
     (/- boostOvervoltage -/ let s : State := live
     let vCap : Nat := 52001
     (s.pw.clocks) &&
     (!decide (vCap ≤ vBoost s + 4000))),
     (/- ledgerWindow -/ let s : State := { live with vs := { live.vs with winDt := 2 ^ 40 - 80000000 } }
     (s.pw.clocks) &&
     (!decide (s.dt < s.vs.winDt + sec 1))),
     (/- valveShortCircuit -/ let s : State := { live with vs := { live.vs with vlv := live.vs.vlv.set 0 { state := 2 } } }
     let t : VsTrip := .lowSide 0 350
     (s.pw.clocks) &&
     (match t with
     | .lowSide v i =>
       (let x := vlv s v
       (decide (2 ≤ x.state && x.state ≤ 5 && 350 ≤ i)) &&
       true)
     | _ => false)),
     (/- valveShortCircuit -/ let s : State := { live with vs := { live.vs with vlv := live.vs.vlv.set 0 { state := 5 } } }
     let t : VsTrip := .highSide 0 1400
     (s.pw.clocks) &&
     (match t with
     | .highSide g i =>
       (!decide (commonOf s g == 0 || i < 1400)) &&
       true
     | _ => false)),
     (/- valveShortCircuit -/ let s : State := live
     let t : VsTrip := .overTemp 3 2640
     (s.pw.clocks) &&
     (match t with
     | .overTemp g k =>
       (!decide (k < 2640)) &&
       true
     | _ => false)),
     (/- valveHeldClear -/ let s : State := { live with vs := { live.vs with vlv := live.vs.vlv.set 0 { held := some (2 ^ 40 - 8000000) } } }
     let v : Fin 24 := 0
     let t : Int := 2400
     (s.pw.clocks) &&
     (match (vlv s v).held with
     | some t0 =>
       (decide (t ≤ 2400 && t0 + ms 100 ≤ s.dt)) &&
       true
     | _ => false)),
     (/- valveOffStateDiagnosis -/ let s : State := { live with vs := { live.vs with vg := live.vs.vg.set 0 { diagDt := 2 ^ 40 - 8000000 } } }
     let g : Fin 4 := 0
     (s.pw.dieOn) &&
     (let l := vgDiagSet s g
     (decide (s.stg.inForce && !l.isEmpty && vgDiagRuns s g l && (vg s g).diagDt + ms 100 ≤ s.dt)))),
     (/- valveOnStateDiagnosis -/ let s : State := { live with vs := { live.vs with vlv := live.vs.vlv.set 0 { state := 2, since := 2 ^ 40 - 16000 } } }
     let f : VsFinding := .openLoad 0 0 (2 ^ 40 - 16000)
     (s.pw.clocks) &&
     (decide (!crankRange s.pw.vbat)) &&
     (match f with
     | .openLoad v i since =>
       (decide ((vlv s v).state == 2 && (vlvActs s v).diagOn && i < (vlvActs s v).iPeak && (vlv s v).since ≤ since && since + us 200 ≤ s.dt)) &&
       true
     | _ => false)),
     (/- valveOnStateDiagnosis -/ let s : State := { live with vs := { live.vs with vlv := live.vs.vlv.set 0 { state := 3 } } }
     let f : VsFinding := .shortGround 0 500 100 (2 ^ 40 - 80000)
     (s.pw.clocks) &&
     (decide (!crankRange s.pw.vbat)) &&
     (match f with
     | .shortGround g high lows since =>
       (!decide (commonOf s g == 0 || high ≤ lows + 300 || s.dt < since + ms 1)) &&
       true
     | _ => false)),
     (/- ledgerLoRead -/ let s : State := live
     (s.pw.dieOn)),
     (/- ovSlowEnd -/ let s : State := live
     let vCap : Nat := 49999
     (s.pw.clocks) &&
     (decide (vCap < vBoost s + 2000)))].all id = true := by decide +kernel

/-- The hypotheses of `Obligations.SwitchAndFieldCommandsComplete`, clause by clause, at boundary values of deadlines and ranges. Part 1. -/
theorem witness_SwitchAndFieldCommandsComplete_1 :
    [(/- isSupplyLow -/ let s : State := live
     let vbat : Nat := 5999
     (s.pw.dieOn) &&
     (decide (vbat < 6000 && !s.sw.frozen))),
     (/- isSupplyReturn -/ let s : State := { live with sw := { live.sw with frozen := true } }
     let m : HeldV := { v := 6500, since := 2 ^ 40 - 80000 }
     (s.pw.dieOn) &&
     (decide (6500 ≤ m.v && s.sw.frozen && m.since + ms 1 ≤ s.dt))),
     (/- cleaningPulseEnd -/ let s : State := { live with sw := { live.sw with inputs := live.sw.inputs.set 0 { clean := some (15, 2 ^ 40) } } }
     let n : Fin 48 := 0
     (s.pw.dieOn) &&
     (match (swi s n).clean with
     | some (w1, t) =>
       (decide (t ≤ s.dt)) &&
       true
     | _ => false)),
     (/- swiStuck -/ let s : State := { live with sw := { live.sw with inputs := live.sw.inputs.set 0 { valid := true, level := true, lastDt := 2 ^ 40 - 80000000 } } }
     let n : Fin 48 := 0
     (s.pw.dieOn) &&
     (let v := swi s n
     (let t := swiU s n 8 2
     (decide (swiEn s n && v.valid && v.level && !s.sw.frozen && !v.stuck && t != 0 && v.actDt + sec t ≤ s.dt))))),
     (/- poll -/ let s : State := { live with pw := { live.pw with dieOn := false, state := .deep }, sw := { live.sw with polls := live.sw.polls.set 0 (some { mask := 1, cmp := Vector.replicate 48 { pol := false, thr := 0, hyst := 0 }, refs := 0, period := 4, settle := 0, confirm := 1, deep := true, armRt := 0, lastRt := some (2 ^ 40 - 4) }) } }
     let g : Fin 8 := 0
     (match s.sw.polls[g] with
     | some p =>
       (decide (rootPolls s && pollDue p s.rt)) &&
       true
     | _ => false)),
     (/- wetThermal -/ let s : State := live
     let t : Int := 2400
     (s.pw.dieOn) &&
     (decide (2400 ≤ t && !s.sw.thermCap))),
     (/- wetThermal -/ let s : State := { live with sw := { live.sw with thermCap := true } }
     let t : Int := 2159
     (s.pw.dieOn) &&
     (!decide (2400 ≤ t && !s.sw.thermCap)) &&
     (decide (t < 2160 && s.sw.thermCap))),
     (/- swiQuery -/ took (live) 0x1300 swiQueryForm (dsc 0x1300 0x500 0)),
     (/- swiSnapshot -/ took (live) 0x1301 swiSnapshotForm (dsc 0x1301 0x500 0)),
     (/- swiClean -/ took (live) 0x1302 swiCleanForm (dsc 0x1302 0x500 0)),
     (/- fioSet -/ took (live) 0x1400 fioSetForm (dsc 0x1400 0x602 0 [(24, 1)])),
     (/- fioQuery -/ took (live) 0x1401 fioQueryForm (dsc 0x1401 0x600 0)),
     (/- fioSnapshot -/ took (live) 0x1402 fioSnapshotForm (dsc 0x1402 0x600 0)),
     (/- fioClear -/ took (live) 0x1403 fioClearForm (dsc 0x1403 0x602 0)),
     (/- fsQuery -/ took (live) 0x1404 fsQueryForm (dsc 0x1404 0x620 0)),
     (/- fsSupplyLow -/ let s : State := live
     let x : HeldV := { v := 16499, since := 2 ^ 40 - 80000 }
     (decide (s.fs.powered && x.v < 16500))),
     (/- fsSupplyHigh -/ let s : State := live
     let x : HeldV := { v := 33501, since := 2 ^ 40 - 80000 }
     (decide (s.fs.powered && 33500 < x.v && s.fs.supply != 2 && x.since + ms 1 ≤ s.dt))),
     (/- fsSupplyNormal -/ let s : State := { live with fs := { live.fs with supply := 1 } }
     let x : HeldV := { v := 17000, since := 2 ^ 40 - 800000 }
     (decide (s.fs.powered && x.since + ms 10 ≤ s.dt && ((s.fs.supply == 1 && 17000 ≤ x.v) || (s.fs.supply == 2 && x.v ≤ 33000))))),
     (/- barrierPowerFail -/ let s : State := live
     true),
     (/- fioWire -/ let s : State := live
     let n : Fin 32 := 0
     let since : Nat := 2 ^ 40 - 80000
     (decide (s.fs.powered && fioEn s n && !fioOut s n && fioFunc s n == 1 && s.fs.supply != 1 && since + ms (fioU s n 8 2) ≤ s.dt)))].all id = true := by decide +kernel

/-- The hypotheses of `Obligations.SwitchAndFieldCommandsComplete`, clause by clause, at boundary values of deadlines and ranges. Part 2. -/
theorem witness_SwitchAndFieldCommandsComplete_2 :
    [(/- fioChange -/ let s : State := live
     let n : Fin 32 := 1
     (decide (fioFunc s n == 2))),
     (/- edgeQueueDelivery -/ let s : State := { live with fs := { live.fs with queue := [{ ch := 1, level := true, initial := false, stamp := 0, bounces := 0, i := 0 }], lastDelivery := some (2 ^ 40 - 1600) } }
     (decide (fsFrames s && !s.fs.unreported && barrierFree s.fs s.dt)) &&
     (match s.fs.queue with
     | e :: rest =>
       true
     | _ => false)),
     (/- fioProt -/ let s : State := { live with fs := { live.fs with fio := live.fs.fio.set 2 { on := true } } }
     let n : Fin 32 := 2
     let hot : Bool := false
     let i : Nat := 700
     let since : Nat := 2 ^ 40 - 720000
     (decide ((fio s n).on && (hot || (700 ≤ i && since + ms 9 ≤ s.dt))))),
     (/- fioRestart -/ let s : State := { live with fs := { live.fs with fio := live.fs.fio.set 2 { held := some (2 ^ 40 - 8000000) } } }
     let n : Fin 32 := 2
     let t : Int := 2400
     (match (fio s n).held with
     | some h =>
       (decide (h + ms 100 ≤ s.dt && t ≤ 2400)) &&
       true
     | _ => false)),
     (/- fioCountReset -/ let s : State := { live with fs := { live.fs with fio := live.fs.fio.set 2 { lastProt := 2 ^ 40 - 800000000 } } }
     let n : Fin 32 := 2
     (decide ((fio s n).lastProt + sec 10 ≤ s.dt))),
     (/- fioDiag -/ let s : State := { live with fs := { live.fs with fio := live.fs.fio.set 2 { on := true, swDt := 2 ^ 40 - 4000000 } } }
     let n : Fin 32 := 2
     let x : FioFinding := .openLoad
     let i : Nat := 49
     let since : Nat := 0
     (decide (s.fs.powered && fioEn s n && fioOut s n && s.fs.supply == 0)) &&
     (let c := fio s n
     (let r := fioResult x
     (!decide (!fioFound s n x i since))))),
     (/- silenceTimeout -/ let s : State := live
     let gap : Nat := 5000
     (match silenceMs s with
     | some t =>
       (decide (s.fs.powered && !s.fs.parked && !s.fs.unreported && 1000 * t ≤ gap)) &&
       true
     | _ => false)),
     (/- fsSilence -/ let s : State := { live with fs := { live.fs with unreported := true } }
     (decide (fsFrames s && s.fs.unreported))),
     (/- barrierPowerReturn -/ let s : State := { live with fs := { live.fs with backup := true } }
     (s.pw.clocks))].all id = true := by decide +kernel

/-- The hypotheses of `Obligations.CanCommandsComplete`, clause by clause, at boundary values of deadlines and ranges. -/
theorem witness_CanCommandsComplete :
    [(/- diagnosticRequest -/ let s : State := live
     let n : Fin 8 := 0
     let f : CanFrame := { ide := false, fd := true, brs := false, rtr := false, esi := false, ident := 5, dlc := 13, data := List.replicate 32 0 }
     (s.pw.dieOn) &&
     (let w := memLe (tblM s 9) 276 4
     (!decide (diagCan s != n || !canHears s n s.dt || s.diagBusy || !f.fd || dlcLen f.fd f.dlc != 32 || f.ide != bitN w 29 || f.ident != fld w 0 29)))),
     (/- canTx -/ tookBlock (live) 0x1800 canTxForm paramBlock (dsc 0x1800 0x700 0 [(24, 5), (28, 8)]) && (dsc 0x1800 0x700 0 [(24, 5), (28, 8)]).plen == 0 &&
     tookBlock (live) 0x1800 canTxForm paramBlock (dsc 0x1800 0x700 12 [(16, 4096), (24, 0x40000005), (28, 9)])),
     (/- canTxCancel -/ took (live) 0x1801 canTxCancelForm (dsc 0x1801 0x700 0 [(16, 9)])),
     (/- canQuery -/ took (live) 0x1802 canQueryForm (dsc 0x1802 0x707 0)),
     (/- canRecover -/ took ({ live with ns := { live.ns with can := live.ns.can.set 0 { st := 2 } } }) 0x1803 canRecoverForm (dsc 0x1803 0x700 0)),
     (/- canQueueQuery -/ took (live) 0x1804 canQueueQueryForm (dsc 0x1804 0x700 0 [(24, 1)])),
     (/- frameReceived -/ let s : State := live
     let sof : Nat := 2 ^ 40
     (s.pw.dieOn) &&
     (decide (!dieDown s .base && sof ≤ s.dt))),
     (/- frameRecordWrite -/ let s : State := { live with ns := { live.ns with can := live.ns.can.set 0 { hold := [{ queue := 0, ring := 1, frame := { ide := false, fd := false, brs := false, rtr := false, esi := false, ident := 5, dlc := 0, data := [] }, sof := 0, pair := 0, own := false }] } } }
     let n : Fin 8 := 0
     (s.pw.dieOn) &&
     (match (can s n).hold with
     | h :: rest =>
       true
     | _ => false)),
     (/- arbitrationStart -/ let s : State := live
     let n : Fin 8 := 0
     (s.pw.dieOn) &&
     (let c := can s n
     (!decide (!segOpen s n || (seg s n).xcvr != 0 || segStopped s n || dieDown s .base || c.st == 2 || c.integ.isSome || c.attempt.isSome)))),
     (/- frameTransmitted -/ let s : State := { live with ns := { live.ns with can := live.ns.can.set 0 { bufs := [{ src := .desc 3 4, frame := { ide := false, fd := false, brs := false, rtr := false, esi := false, ident := 5, dlc := 0, data := [] }, order := 2 }], attempt := some { order := 2, sof := 0, boundary := 2 ^ 40 } } } }
     let n : Fin 8 := 0
     (s.pw.dieOn) &&
     (match running s n with
     | some (a, b) =>
       (!decide (s.dt < a.boundary || flagStops s n a b || (seg s n).xcvr == 1)) &&
       true
     | _ => false)),
     (/- transmitAttemptFailed -/ let s : State := { live with ns := { live.ns with can := live.ns.can.set 0 { bufs := [{ src := .desc 3 4, frame := { ide := false, fd := false, brs := false, rtr := false, esi := false, ident := 5, dlc := 0, data := [] }, order := 2 }], attempt := some { order := 2, sof := 0, boundary := 2 ^ 40 } } } }
     let n : Fin 8 := 0
     (s.pw.dieOn) &&
     (match running s n with
     | some (a, b) =>
       true
     | _ => false)),
     (/- cancelErrorFlag -/ let s : State := { live with ns := { live.ns with can := live.ns.can.set 0 { bufs := [{ src := .desc 3 4, frame := { ide := false, fd := false, brs := false, rtr := false, esi := false, ident := 5, dlc := 0, data := [] }, order := 2, stop := some { before := true, timeout := false } }], attempt := some { order := 2, sof := 0, boundary := 2 ^ 40 - 1 } } } }
     let n : Fin 8 := 0
     (s.pw.dieOn) &&
     (match running s n with
     | some (a, b) =>
       (match b.stop with
       | some t =>
         (decide (t.before && canFlagAt s n a.sof 7 && a.boundary < s.dt && (seg s n).xcvr != 1)) &&
         true
       | _ => false)
     | _ => false)),
     (/- txTimeout -/ let s : State := live
     (s.pw.dieOn)),
     (/- busoffHoldExpiry -/ let s : State := { live with ns := { live.ns with can := live.ns.can.set 0 { st := 2, busoffDt := 2 ^ 40 - 80000 } } }
     let n : Fin 8 := 0
     (s.pw.dieOn) &&
     (decide ((can s n).st == 2 && !(can s n).recovering && canFlag s n 4 && !dieDown s .base && (can s n).busoffDt + ms (canU s n 14 2) ≤ s.dt))),
     (/- busoffRecoveryComplete -/ let s : State := { live with ns := { live.ns with can := live.ns.can.set 0 { st := 2, recovering := true } } }
     let x : SeqCount := { n := 0, seqs := 128 }
     (s.pw.dieOn) &&
     (decide ((can s x.n).st == 2 && (can s x.n).recovering && (seg s x.n).xcvr == 0 && !dieDown s .base))),
     (/- txdDominant -/ let s : State := live
     let n : Fin 8 := 0
     (s.pw.dieOn) &&
     (decide (canEn s n && (seg s n).xcvr == 0 && !dieDown s .base))),
     (/- busIntegrated -/ let s : State := { live with ns := { live.ns with can := live.ns.can.set 0 { integ := some 5 } } }
     let n : Fin 8 := 0
     (s.pw.dieOn) &&
     (decide (canEn s n && (seg s n).xcvr ≤ 1 && !dieDown s .base))),
     (/- receiveError -/ let s : State := live
     let why : RxError := { kind := .resBit, sof := 2 ^ 40 }
     (s.pw.dieOn) &&
     (decide (!dieDown s .base && why.sof ≤ s.dt)))].all id = true := by decide +kernel

/-- The hypotheses of `Obligations.LinAndSleepCommandsComplete`, clause by clause, at boundary values of deadlines and ranges. Part 1. -/
theorem witness_LinAndSleepCommandsComplete_1 :
    [(/- linWrite -/ took (live) 0x1900 linWriteForm (dsc 0x1900 0x708 0 [(24, 0), (25, 0), (26, 8)])),
     (/- linSched -/ took (live) 0x1901 linSchedForm (dsc 0x1901 0x708 0 [(24, 0)])),
     (/- linDiagReq -/ took (live) 0x1902 linDiagReqForm (dsc 0x1902 0x708 0 [(16, 1)])),
     (/- linQuery -/ took (live) 0x1903 linQueryForm (dsc 0x1903 0x708 0)),
     (/- gwIsolate -/ took (live) 0x1904 gwIsolateForm (dsc 0x1904 0x710 0 [(24, 0xF), (25, 1)])),
     (/- gwRouteQuery -/ took (live) 0x1905 gwRouteQueryForm (dsc 0x1905 0x710 0 [(28, 1)])),
     (/- linSlotStart -/ let s : State := live
     let n : Fin 8 := 0
     (s.pw.dieOn) &&
     (decide ((lin s n).slotEnd ≤ s.dt)) &&
     (decide (linRuns s n && ((lin s n).sched.isSome || !(lin s n).pend.isEmpty)))),
     (/- linSlotStart -/ let s : State := { live with ns := { live.ns with seg := live.ns.seg.set 8 { en := true, st := .drain } } }
     let n : Fin 8 := 0
     (s.pw.dieOn) &&
     (decide ((lin s n).slotEnd ≤ s.dt)) &&
     (!decide (linRuns s n && ((lin s n).sched.isSome || !(lin s n).pend.isEmpty))) &&
     (decide (linHears s n && !segStopped s (8 + n) && (seg s (8 + n)).st == .drain && !sleepCmdOut s n))),
     (/- linRx -/ let s : State := { live with ns := { live.ns with lin := live.ns.lin.set 0 { sched := some 0, cur := some { fid := 1, kind := 0, sub := true, len := 2, enhanced := true, brk := 2 ^ 40, tMax := 0, sent := false, rxRing := 0xFF } } } }
     let n : Fin 8 := 0
     let data : List Byte := [1, 2]
     let cks : Byte := 0x3B
     (s.pw.dieOn) &&
     (match (lin s n).cur with
     | some c =>
       (!decide (!linHears s n || !c.sub || data.length != c.len || cks.toNat != linCks c.fid c.enhanced data || c.brk + c.tMax < s.dt)) &&
       true
     | _ => false)),
     (/- linErr -/ let s : State := { live with ns := { live.ns with lin := live.ns.lin.set 0 { sched := some 0, cur := some { fid := 1, kind := 0, sub := true, len := 2, enhanced := true, brk := 2 ^ 40, tMax := 0, sent := false, rxRing := 0xFF } } } }
     let n : Fin 8 := 0
     let code : Fin 7 := 1
     (s.pw.dieOn) &&
     (match (lin s n).cur with
     | some c =>
       (let k := code.val
       (!decide (!linErrFits c k s.dt || !linHears s n)) &&
       true)
     | _ => false)),
     (/- linBusDominant -/ let s : State := { live with ns := { live.ns with seg := live.ns.seg.set 8 { en := true, arm := some { deep := false, sw := false } } } }
     let n : Fin 8 := 0
     (let b := 8 + n.val
     (decide ((seg s b).arm.isSome)))),
     (/- linBusDominant -/ let s : State := { live with ns := { live.ns with seg := live.ns.seg.set 8 { en := true, st := .asleep } } }
     let n : Fin 8 := 0
     (let b := 8 + n.val
     (!decide ((seg s b).arm.isSome)) &&
     (s.pw.dieOn) &&
     (decide (linEn s n && !(lin s n).busDom)) &&
     (decide ((seg s b).st == .asleep)) &&
     (decide (nsDetects s b)))),
     (/- linBusDominant -/ let s : State := live
     let n : Fin 8 := 0
     (let b := 8 + n.val
     (!decide ((seg s b).arm.isSome)) &&
     (s.pw.dieOn) &&
     (decide (linEn s n && !(lin s n).busDom)) &&
     (!decide ((seg s b).st == .asleep)))),
     (/- gatewayBufferAssign -/ let s : State := { live with ns := { live.ns with holding := [{ route := 0, can := 0, frame := { ide := false, fd := false, brs := false, rtr := false, esi := false, ident := 5, dlc := 0, data := [] }, valid := 0, maxAge := 0 }] } }
     let n : Fin 8 := 0
     (s.pw.dieOn) &&
     (match s.ns.holding.find? fun h => h.can == n.val with
     | some h =>
       (!decide (gwTxBuf s n ≤ txGw (can s n) || 32 ≤ txUsed (can s n))) &&
       true
     | _ => false)),
     (/- gatewayMaxAge -/ let s : State := live
     (s.pw.dieOn)),
     (/- gwDrop -/ let s : State := { live with ns := { live.ns with cnts := [(2047, { interval := some (2 ^ 40 - 8000000) })] } }
     let r : Nat := 2047
     (s.pw.dieOn) &&
     (let c := routeCnt s r
     (match c.interval with
     | some t =>
       (decide (t + ms 100 ≤ s.dt)) &&
       true
     | _ => false))),
     (/- linBusRecessive -/ let s : State := { live with ns := { live.ns with lin := live.ns.lin.set 0 { busDom := true } } }
     let n : Fin 8 := 0
     (s.pw.dieOn) &&
     (decide ((lin s n).busDom))),
     (/- netSleep -/ took (live) 0x1A00 netSleepForm (dsc 0x1A00 0x700 0)),
     (/- netWake -/ took (live) 0x1A01 netWakeForm (dsc 0x1A01 0x708 0)),
     (/- netListen -/ took (live) 0x1A02 netListenForm (dsc 0x1A02 0x700 0 [(24, 1)]))].all id = true := by decide +kernel

/-- The hypotheses of `Obligations.LinAndSleepCommandsComplete`, clause by clause, at boundary values of deadlines and ranges. Part 2. -/
theorem witness_LinAndSleepCommandsComplete_2 :
    [(/- netQuery -/ took (live) 0x1A03 netQueryForm (dsc 0x1A03 0x700 0)),
     (/- drainEnd -/ let s : State := { live with ns := { live.ns with seg := live.ns.seg.set 0 { en := true, st := .drain } } }
     let b : Fin 16 := 0
     (s.pw.dieOn) &&
     (let n := b.val - 8
     (let ready := if b.val < 8 then (can s b).attempt.isNone else sleepCmdOut s n && (lin s n).slotEnd ≤ s.dt
     (!decide ((seg s b).st != .drain || !ready))))),
     (/- segmentCommit -/ let s : State := { live with ns := { live.ns with seg := live.ns.seg.set 0 { en := true, st := .quiet, quietSince := 2 ^ 40 - 80000 } } }
     let b : Fin 16 := 0
     (s.pw.dieOn) &&
     (decide ((seg s b).st == .quiet && !(8 ≤ b.val && (lin s (b - 8)).busDom) && (seg s b).quietSince + ms (quietMs s b) ≤ s.dt))),
     (/- agreeTimeout -/ let s : State := { live with ns := { live.ns with seg := live.ns.seg.set 15 { sleep := some (3, 2 ^ 40 - 400000000) } } }
     let b : Fin 16 := 15
     (s.pw.dieOn) &&
     (match (seg s b).sleep with
     | some (u, t) =>
       (decide (t + ms (seg s b).tAgree ≤ s.dt)) &&
       true
     | _ => false)),
     (/- wakeUpPattern -/ let s : State := { live with ns := { live.ns with seg := live.ns.seg.set 0 { arm := some { deep := false, sw := true } } } }
     let n : Fin 8 := 0
     (decide (rootDecodes s n))),
     (/- wakeUpPattern -/ let s : State := { live with ns := { live.ns with seg := live.ns.seg.set 0 { en := true, st := .asleep } } }
     let n : Fin 8 := 0
     (!decide (rootDecodes s n)) &&
     (s.pw.dieOn) &&
     (decide (nsDetects s n))),
     (/- wakeUpFrame -/ let s : State := { live with ns := { live.ns with seg := live.ns.seg.set 0 { en := true, st := .asleep, swk := true, swkDt := 2 ^ 40 - 8000 } } }
     let n : Fin 8 := 0
     let w : CanFrame × Nat := ({ ide := false, fd := false, brs := false, rtr := false, esi := false, ident := 5, dlc := 0, data := [] }, 2 ^ 40)
     (s.pw.dieOn) &&
     (decide (nsDetects s n && segFlag s n 1 && (seg s n).swk && (seg s n).swkDt + us 100 ≤ w.2 && w.2 ≤ s.dt && isWuf (armOf s n) w.1))),
     (/- decoderErrorCount -/ let s : State := { live with ns := { live.ns with seg := live.ns.seg.set 0 { en := true, st := .asleep, swk := true, swkErr := 31, swkDt := 2 ^ 40 - 8000 } } }
     let x : DecodedFrame := { n := 0, bad := true, sof := 2 ^ 40 }
     (let n := x.n
     (!decide (!(seg s n).swk || !afterRamp s x)))),
     (/- decoderSilence -/ let s : State := { live with ns := { live.ns with seg := live.ns.seg.set 0 { en := true, st := .asleep, swk := true } } }
     let n : Fin 8 := 0
     (decide ((seg s n).swk && decoderSilent s n))),
     (/- linWake -/ let s : State := { live with ns := { live.ns with seg := live.ns.seg.set 8 { en := true, st := .asleep } } }
     let n : Fin 8 := 0
     (s.pw.dieOn) &&
     (let b := 8 + n.val
     (decide (nsDetects s b)))),
     (/- linWake -/ let s : State := { live with ns := { live.ns with seg := live.ns.seg.set 8 { en := true, st := .drain } } }
     let n : Fin 8 := 0
     (s.pw.dieOn) &&
     (let b := 8 + n.val
     (let st := (seg s b).st
     (!decide (nsDetects s b)) &&
     (decide (segEn s b && (st == .drain || st == .quiet)))))),
     (/- segmentAwake -/ let s : State := { live with ns := { live.ns with seg := live.ns.seg.set 8 { en := true, st := .waking, changeDt := 2 ^ 40 - 12080000 } } }
     let b : Fin 16 := 8
     (s.pw.dieOn) &&
     (let g := seg s b
     (!decide (g.st != .waking || !segEn s b || dieDown s .base || (2 ≤ g.xcvr && s.dt < g.changeDt + us 10) || (8 ≤ b.val && s.dt < g.changeDt + ms (1 + g.linWake.getD (netU s 4 2))))))),
     (/- netAnnounce -/ let s : State := { live with ns := { live.ns with seg := live.ns.seg.set 0 { annSent := some (2 ^ 40) } } }
     let n : Fin 8 := 0
     (s.pw.dieOn) &&
     (match (seg s n).annSent, (seg s n).annSince with
     | some sof, w1 =>
       true
     | _, _ => false)),
     (/- netAnnounce -/ let s : State := { live with ns := { live.ns with seg := live.ns.seg.set 0 { annSince := some (2 ^ 40 - 8000000) } } }
     let n : Fin 8 := 0
     (s.pw.dieOn) &&
     (match (seg s n).annSent, (seg s n).annSince with
     | none, some t =>
       (decide (t + ms 100 ≤ s.dt && !annRuns s n)) &&
       true
     | _, _ => false)),
     (/- maxAwake -/ let s : State := { live with ns := { live.ns with seg := live.ns.seg.set 0 { en := true, st := .awake, released := true, awakeSince := some (2 ^ 40 - 144000000000) } } }
     let b : Fin 16 := 0
     (s.pw.dieOn) &&
     (let g := seg s b
     (match g.awakeSince with
     | some t =>
       (let lim := segU s b 4 2
       (!decide (lim == 0 || !g.released || g.st == .asleep || s.dt < t + sec lim)) &&
       true)
     | _ => false)))].all id = true := by decide +kernel

/-- The hypotheses of `Obligations.AccessAndPairCommandsComplete`, clause by clause, at boundary values of deadlines and ranges. Part 1. -/
theorem witness_AccessAndPairCommandsComplete_1 :
    [(/- debounceComplete -/ let s : State := live
     let n : DebIn := .switch 47
     let t : DebTrace := .switch [{ dt := 2 ^ 40, v := 0, vbat := 12000 }]
     (match n, t with
     | .switch i, .switch l =>
       (s.pw.dieOn) &&
       true
     | _, _ => false)),
     (/- debounceComplete -/ let s : State := live
     let n : DebIn := .field 1
     let t : DebTrace := .field [{ dt := 2 ^ 40, v := 24000, i := 0 }]
     (match n, t with
     | .field i, .field l =>
       (s.pw.clocks) &&
       true
     | _, _ => false)),
     (/- ladderInvalid -/ let s : State := { live with sw := { live.sw with inputs := live.sw.inputs.set 1 { deb := { raw := 0xF, since := some (2 ^ 40 - 8000000), last := 2 ^ 40 } } } }
     (s.pw.dieOn)),
     (/- tokenSearch -/ took (live) 0x1C00 tokenSearchForm (dsc 0x1C00 0x808 0 [(24, 1)])),
     (/- releaseStart -/ took (live) 0x1C01 releaseStartForm (dsc 0x1C01 0x808 0 [(24, 3)])),
     (/- releaseEnd -/ took ({ live with acc := { live.acc with rel := some { basis := 0, next := 0 } } }) 0x1C02 releaseEndForm (dsc 0x1C02 0x808 0)),
     (/- tokenRead -/ took (live) 0x1C03 tokenReadForm (dsc 0x1C03 0x800 0 [(24, 0x1F)])),
     (/- tokenWrite -/ took (live) 0x1C04 tokenWriteForm (dsc 0x1C04 0x801 0 [(24, 0x1F), (16, 1)])),
     (/- keyWrite -/ tookBlock (live) 0x1C05 keyWriteForm paramBlock (dsc 0x1C05 0x808 24 [(16, 0x1000), (24, 6)])),
     (/- keyQuery -/ took (live) 0x1C06 keyQueryForm (dsc 0x1C06 0x808 0 [(24, 6)])),
     (/- fieldStart -/ let s : State := { live with acc := { live.acc with op := some { kind := .search, uid := 3, coils := [0], phase := .fieldDue } } }
     (s.pw.dieOn) &&
     (match s.acc.op with
     | some o =>
       (!decide (o.phase != .fieldDue)) &&
       true
     | _ => false)),
     (/- wup -/ let s : State := { live with acc := { live.acc with op := some { kind := .search, uid := 3, coils := [0], phase := .wupDue, ready := 2 ^ 40 } } }
     (s.pw.dieOn) &&
     (match s.acc.op with
     | some o =>
       (!decide (o.phase != .wupDue || s.dt < o.ready)) &&
       true
     | _ => false)),
     (/- halt -/ let s : State := { live with acc := { live.acc with op := some { kind := .search, uid := 3, coils := [0], phase := .process, haltDue := true, ready := 2 ^ 40 } } }
     (s.pw.dieOn) &&
     (match s.acc.op with
     | some o =>
       (!decide (o.phase != .process || !o.haltDue || s.dt < o.ready)) &&
       true
     | _ => false)),
     (/- authA -/ let s : State := { live with acc := { live.acc with op := some { kind := .read, uid := 3, coils := [0], phase := .process, ready := 2 ^ 40 } } }
     (s.pw.dieOn) &&
     (match s.acc.op with
     | some o =>
       (!decide (o.phase != .process || o.haltDue || s.dt < o.ready)) &&
       true
     | _ => false)),
     (/- authB -/ let s : State := { live with acc := { live.acc with op := some { kind := .read, uid := 3, coils := [0], phase := .authBDue, ready := 2 ^ 40 } } }
     (s.pw.dieOn) &&
     (match s.acc.op with
     | some o =>
       (!decide (o.phase != .authBDue || s.dt < o.ready)) &&
       true
     | _ => false)),
     (/- read -/ let s : State := { live with acc := { live.acc with op := some { kind := .read, uid := 3, coils := [0], phase := .cmdDue, ready := 2 ^ 40 } } }
     (s.pw.dieOn) &&
     (match s.acc.op with
     | some o =>
       (!decide (o.phase != .cmdDue || o.kind != .read || s.dt < o.ready)) &&
       true
     | _ => false)),
     (/- write -/ let s : State := { live with acc := { live.acc with op := some { kind := .write, uid := 3, coils := [0], phase := .cmdDue, ready := 2 ^ 40 } } }
     (s.pw.dieOn) &&
     (match s.acc.op with
     | some o =>
       (!decide (o.phase != .cmdDue || o.kind != .write || s.dt < o.ready)) &&
       true
     | _ => false)),
     (/- tokenAnswer -/ let s : State := { live with acc := { live.acc with op := some { kind := .read, uid := 3, coils := [0], phase := (.slots 0 0) } } }
     (s.pw.dieOn) &&
     (match s.acc.op with
     | some o =>
       (match o.phase with
       | .slots k start =>
         true
       | _ => false)
     | _ => false)),
     (/- tokenAnswer -/ let s : State := { live with acc := { live.acc with op := some { kind := .read, uid := 3, coils := [0], phase := .c1 } } }
     (s.pw.dieOn) &&
     (match s.acc.op with
     | some o =>
       (match o.phase with
       | .c1 =>
         true
       | _ => false)
     | _ => false)),
     (/- tokenAnswer -/ let s : State := { live with acc := { live.acc with op := some { kind := .read, uid := 3, coils := [0], phase := .ack } } }
     (s.pw.dieOn) &&
     (match s.acc.op with
     | some o =>
       (match o.phase with
       | .ack =>
         true
       | _ => false)
     | _ => false))].all id = true := by decide +kernel

/-- The hypotheses of `Obligations.AccessAndPairCommandsComplete`, clause by clause, at boundary values of deadlines and ranges. Part 2. -/
theorem witness_AccessAndPairCommandsComplete_2 :
    [(/- tokenAnswer -/ let s : State := { live with acc := { live.acc with op := some { kind := .read, uid := 3, coils := [0], phase := .data } } }
     (s.pw.dieOn) &&
     (match s.acc.op with
     | some o =>
       (match o.phase with
       | .data =>
         true
       | _ => false)
     | _ => false)),
     (/- releaseFrame -/ let s : State := { live with acc := { live.acc with rel := some { basis := 0, next := 2 ^ 40 } } }
     (s.pw.dieOn) &&
     (match s.acc.rel with
     | some r =>
       (decide (r.next ≤ s.dt)) &&
       true
     | _ => false)),
     (/- releaseFrame -/ let s : State := { live with acc := { live.acc with blocked := 1, blockNext := 2 ^ 40 } }
     (s.pw.dieOn) &&
     (match s.acc.rel with
     | none =>
       (decide (s.acc.blockNext ≤ s.dt && (s.acc.blocked != 0 || s.acc.unsent))) &&
       true
     | _ => false)),
     (/- releaseSessionTimeout -/ let s : State := { live with acc := { live.acc with session := some (0, 1) } }
     (s.pw.dieOn) &&
     (decide (s.acc.session.isSome && !relSession s))),
     (/- pairMismatch -/ let s : State := { live with pairs := live.pairs.set 2 { trail := [{ cycles := 1, charge := [], items := [(0, 5), (1, 6)], after := {} }] } }
     let k : Fin 8 := 2
     let lane : Fin 4 := 1
     let bit : Fin 128 := 65
     (let n := entriesTo lane (pair s k).trail
     (decide (compares s k && bit.val < laneWidth lane && n < (pair s k).trail.length)))),
     (/- pkgWrite -/ tookBlock (live) 0x2000 pkgWriteForm paramBlock (dsc 0x2000 0xF00 4 [(16, 0x1000), (24, 0xFF), (28, 0)])),
     (/- pkgErase -/ took (live) 0x2001 pkgEraseForm (dsc 0x2001 0xF00 0 [(24, 0xFF)])),
     (/- pkgQuery -/ took (live) 0x2002 pkgQueryForm (dsc 0x2002 0xF00 0 [(24, 0xFF)])),
     (/- pairSplit -/ took (live) 0x2003 pairSplitForm (dsc 0x2003 0xE12 0)),
     (/- pairMerge -/ took ({ live with pairs := live.pairs.set 2 { split := true } }) 0x2004 pairMergeForm (dsc 0x2004 0xE12 0)),
     (/- pairQuery -/ took (live) 0x2005 pairQueryForm (dsc 0x2005 0xE17 0)),
     (/- mergeCopyDone -/ let s : State := { live with pairs := live.pairs.set 2 { split := true, phase := .copying, run := some { uid := none, toSplit := false, t0 := 0, stepDt := 2 ^ 40 - 1024 } } }
     let k : Fin 8 := 2
     (decide (copyDue (pair s k) s.dt))),
     (/- mergeSelftestDone -/ let s : State := { live with pairs := live.pairs.set 2 { split := true, phase := .testing, run := some { uid := none, toSplit := false, t0 := 0, stepDt := 2 ^ 40 - 412 } } }
     let k : Fin 8 := 2
     let failed : List (Fin 203) := []
     (let p := pair s k
     (let ok := failed.isEmpty
     (match p.run with
     | some h =>
       (decide (p.phase == .testing && h.stepDt + (if ok then 412 else 404) ≤ s.dt)) &&
       true
     | _ => false))))].all id = true := by decide +kernel

/-- The hypotheses of `Obligations.HostBridgeAndCounterCommandsComplete`, clause by clause, at boundary values of deadlines and ranges. Part 1. -/
theorem witness_HostBridgeAndCounterCommandsComplete_1 :
    [(/- hostLinkTimeout -/ let s : State := { live with pw := { live.pw with releaseDt := 2 ^ 40 - 80000000 } }
     (s.pw.dieOn) &&
     (decide (!s.host.selfHosted && !s.host.reachedL0 && !s.host.l0Late && s.pw.releaseDt + sec 1 ≤ s.dt))),
     (/- hostLinkUp -/ let s : State := live
     (s.pw.dieOn) &&
     (decide (!s.host.linkUp && !s.host.selfHosted))),
     (/- hbQuery -/ took (live) 0x2800 hbQueryForm (dsc 0x2800 0x943 0)),
     (/- xspiRead -/ took (live) 0x2801 (xspiForm 1) (dsc 0x2801 0x940 0 [(16, 0x1000), (24, 0), (28, 0x200)])),
     (/- xspiWrite -/ tookBlock (live) 0x2802 (xspiForm 2) xspiSource (dsc 0x2802 0x940 0 [(16, 0x1000), (24, 0x1000000), (28, 4)])),
     (/- xspiErase -/ took (live) 0x2803 (xspiForm 3) (dsc 0x2803 0x940 0 [(24, 0x1000000), (28, 0x1000)])),
     (/- xspiQuery -/ took (live) 0x2804 xspiQueryForm (dsc 0x2804 0x940 0)),
     (/- xspiNoAnswer -/ let s : State := { live with host := { live.host with xspiOps := [{ uid := 3, kind := 1, addr := 2 ^ 31, len := 4, buf := 0, host := false, src := [], start := 2 ^ 40 - 800000 }] } }
     let cs : Fin 2 := 1
     (s.pw.dieOn) &&
     (decide (xspiAnswers s cs && s.host.xspiOps.any fun o => xspiCs o.addr == cs && o.start + ms 10 ≤ s.dt))),
     (/- readCompletion -/ let s : State := live
     (s.pw.dieOn)),
     (/- tagTimeout -/ let s : State := { live with host := { live.host with tags := live.host.tags.set 127 (.out (.block (.ring 0) 3 0) 0 512 (2 ^ 40 - 800000)) } }
     let tag : Fin 128 := 127
     (s.pw.dieOn) &&
     (match s.host.tags[tag] with
     | .out rd addr bytes sent =>
       (decide (sent + ms s.host.tagToMs ≤ s.dt)) &&
       true
     | _ => false)),
     (/- tagQuarantineEnd -/ let s : State := { live with host := { live.host with tags := live.host.tags.set 127 (.quarantined (2 ^ 40)) } }
     let tag : Fin 128 := 127
     (s.pw.dieOn) &&
     (match s.host.tags[tag] with
     | .quarantined u =>
       (decide (u ≤ s.dt)) &&
       true
     | _ => false)),
     (/- delayedReadDiscard -/ let s : State := live
     (s.pw.dieOn)),
     (/- hostLinkLoss -/ let s : State := { live with host := { live.host with linkUp := true } }
     (s.pw.dieOn) &&
     (decide (s.host.linkUp))),
     (/- msixUnmask -/ let s : State := live
     (s.pw.dieOn)),
     (/- xspiOperationEnd -/ let s : State := { live with host := { live.host with xspiOps := [{ uid := 3, kind := 1, addr := 0, len := 4, buf := 0, host := false, src := [] }] } }
     let cs : Fin 2 := 0
     let r : XspiResult := .done
     (s.pw.dieOn) &&
     (match s.host.xspiOps.find? fun o => xspiCs o.addr == cs with
     | some op =>
       (decide (xspiEndFits op r s)) &&
       true
     | _ => false)),
     (/- perfSet -/ took (live) 0x3C00 perfSetForm (dsc 0x3C00 0xE0F 0 [(20, 0xFFFFFFFF), (24, 3), (25, 0x1E)])),
     (/- fabSet -/ took (live) 0x3C01 fabSetForm (dsc 0x3C01 0xF00 0 [(20, 1), (24, 3), (25, 3), (27, 0)])),
     (/- perfRing -/ took (live) 0x3C02 perfRingForm (dsc 0x3C02 0xF00 0 [(24, 0xFF)])),
     (/- perfSnap -/ took (live) 0x3C03 perfSnapForm (dsc 0x3C03 0xF00 0 [(16, 0x1000)])),
     (/- perfSample -/ let s : State := { live with perf := { live.perf with samples := [{ engine := 0, counter := 0, task := false, skid := false, prog := 0, la := 0, repa := false, pc := 0, cycles := 0 }] } }
     (s.pw.dieOn) &&
     (match nextSample [] s.perf.samples with
     | some x =>
       true
     | _ => false))].all id = true := by decide +kernel

/-- The hypotheses of `Obligations.HostBridgeAndCounterCommandsComplete`, clause by clause, at boundary values of deadlines and ranges. Part 2. -/
theorem witness_HostBridgeAndCounterCommandsComplete_2 :
    [(/- pcCyclesLoRead -/ let s : State := live
     (s.pw.dieOn)),
     (/- fabLoRead -/ let s : State := live
     (s.pw.dieOn))].all id = true := by decide +kernel

/-- The hypotheses of `Obligations.FaultAndPowerCommandsComplete`, clause by clause, at boundary values of deadlines and ranges. Part 1. -/
theorem witness_FaultAndPowerCommandsComplete_1 :
    [(/- faultQuery -/ took (live) 0x3000 faultQueryForm (dsc 0x3000 0xF00 0 [(24, 7)])),
     (/- faultAck -/ took (live) 0x3001 faultAckForm (dsc 0x3001 0xF00 0 [(24, 7), (28, 1)])),
     (/- faultReset -/ took (live) 0x3002 faultResetForm (dsc 0x3002 0xF00 0)),
     (/- faultInject -/ took (live) 0x3003 faultInjectForm (dsc 0x3003 0xF00 0 [(24, 0), (26, 0xFFFF)])),
     (/- faultRaise -/ live.pw.dieOn),
     (/- heartbeat -/ let s : State := live
     (s.pw.dieOn)),
     (/- runtimeWatchdog -/ let s : State := { live with flt := { live.flt with wdArmed := true, lastBeat := 2 ^ 40 - 8000000 } }
     (s.pw.dieOn) &&
     (decide (s.flt.wdArmed && s.flt.wdFired.isNone && s.flt.lastBeat + ms 100 ≤ s.dt))),
     (/- recoveryEnd -/ let s : State := { live with flt := { live.flt with phase := .recovery, recoveryStart := 2 ^ 40 - 800000000 } }
     (decide (s.flt.recoveryStart + sec 10 ≤ s.dt))),
     (/- powerSet -/ took (live) 0x3100 powerSetForm (dsc 0x3100 0xF00 0 [(24, 4)])),
     (/- powerQuery -/ took (live) 0x3101 powerQueryForm (dsc 0x3101 0xF00 0)),
     (/- alarmSet -/ took (live) 0x3102 alarmSetForm (dsc 0x3102 0xF00 0 [(16, 0x20000000000), (24, 1)])),
     (/- entryHandshakeAnswer -/ let s : State := { live with pw := { live.pw with run := some { uid := 3, target := .park, t0 := 2 ^ 40 - 40000000 } } }
     let block : Fin 11 := 0
     let a : BlockAnswer := .grant
     (match s.pw.run with
     | some p =>
       (!decide (p.tc.isSome)) &&
       (match a with
       | .grant =>
         (!decide (blockDelays block s || blockRefuses block s || !(p.answers[block] == .asked || p.answers[block] == .delayed))) &&
         true
       | _ => false)
     | _ => false)),
     (/- entryHandshakeAnswer -/ let s : State := { live with hbs := live.hbs.set 4 { op := some { kind := 1, uid := some 3, cfg := { brEntry live 0 with pinch := true, ripple := true } } }, pw := { live.pw with run := some { uid := 3, target := .park, t0 := 2 ^ 40 - 40000000 } } }
     let block : Fin 11 := 1
     let a : BlockAnswer := .delay
     (match s.pw.run with
     | some p =>
       (!decide (p.tc.isSome)) &&
       (match a with
       | .delay =>
         (decide (blockDelays block s && (p.answers[block] == .asked || p.answers[block] == .delayed))) &&
         true
       | _ => false)
     | _ => false)),
     (/- entryHandshakeAnswer -/ let s : State := { live with vs := { live.vs with vlv := live.vs.vlv.set 0 { state := 5 } }, pw := { live.pw with run := some { uid := 3, target := .park, t0 := 2 ^ 40 - 40000000 } } }
     let block : Fin 11 := 4
     let a : BlockAnswer := .refuse
     (match s.pw.run with
     | some p =>
       (!decide (p.tc.isSome)) &&
       (match a with
       | .refuse =>
         (decide (blockRefuses block s && (p.answers[block] == .asked || p.answers[block] == .delayed))) &&
         true
       | _ => false)
     | _ => false)),
     (/- entryHandshakeAnswer -/ let s : State := { live with pw := { live.pw with run := some { uid := 3, target := .park, t0 := 2 ^ 40 - 40000000, answers := Vector.replicate 11 (.withdrawn 3) } } }
     let block : Fin 11 := 7
     let a : BlockAnswer := .withdraw
     (match s.pw.run with
     | some p =>
       (!decide (p.tc.isSome)) &&
       (match a with
       | .withdraw =>
         (match p.answers[block] with
         | .withdrawn cause =>
           true
         | _ => false)
       | _ => false)
     | _ => false)),
     (/- entryTimeout -/ let s : State := { live with pw := { live.pw with run := some { uid := 3, target := .park, t0 := 2 ^ 40 - 40000000, answers := Vector.replicate 11 .delayed } } }
     (match s.pw.run with
     | some p =>
       (match (idxs 11).find? fun k => p.answers[k] == .delayed with
       | some k =>
         (decide (p.tc.isNone && p.t0 + ms (10 * s.pw.entryTo) ≤ s.dt)) &&
         true
       | _ => false)
     | _ => false)),
     (/- entryComplete -/ let s : State := { live with pw := { live.pw with run := some { uid := 3, target := .park, t0 := 2 ^ 40 - 40000000, tc := some (2 ^ 40 - 104800), step4 := some (2 ^ 40 - 80000) } } }
     (match s.pw.run with
     | some p =>
       (match p.step4 with
       | some t =>
         (decide (t + ms 1 ≤ s.dt)) &&
         true
       | _ => false)
     | _ => false)),
     (/- standbyExit -/ let s : State := { live with pw := { live.pw with state := .standby, exitTrigger := true } }
     (decide (s.pw.state == .standby && s.pw.exitTrigger && s.pw.vout.isNone && s.pw.run.isNone))),
     (/- voutAcknowledge -/ let s : State := { live with pw := { live.pw with vout := some { mv := 1000, rise := false, tries := 0, sentDt := 2 ^ 40 - 160000, uid := none, target := .standby, old := .run } } }
     (match s.pw.vout with
     | some r =>
       (!decide (s.dt < r.sentDt + changeMin s r || r.sentDt + ms 2 < s.dt)) &&
       true
     | _ => false)),
     (/- pmbusNoAck -/ let s : State := { live with pw := { live.pw with vout := some { mv := 1000, rise := false, tries := 0, sentDt := 2 ^ 40 - 160000, uid := none, target := .standby, old := .run } } }
     (match s.pw.vout with
     | some r =>
       (!decide (s.dt < r.sentDt + ms 2)) &&
       true
     | _ => false))].all id = true := by decide +kernel

/-- The hypotheses of `Obligations.FaultAndPowerCommandsComplete`, clause by clause, at boundary values of deadlines and ranges. Part 2. -/
theorem witness_FaultAndPowerCommandsComplete_2 :
    [(/- pmAlert -/ let s : State := live
     (s.pw.dieOn)),
     (/- wakeLatch -/ let s : State := { live with pw := { live.pw with dieOn := false, regWake := false, state := .park }, ns := { live.ns with seg := live.ns.seg.set 15 { en := true, arm := some { deep := false, sw := false } } } }
     let w : WakeKind := .network 15 none
     (decide (wakeWatch s)) &&
     (match w with
     | .network b wuf =>
       (decide (netArmed b wuf s)) &&
       true
     | _ => false)),
     (/- wakeLatch -/ let s : State := { live with pw := { live.pw with dieOn := false, regWake := false, state := .park }, sw := { live.sw with wakeIn := 47, wakeGrp := 7, polls := live.sw.polls.set 7 (some { mask := 1, cmp := Vector.replicate 48 { pol := false, thr := 0, hyst := 0 }, refs := 0, period := 4, settle := 0, confirm := 1, deep := true, armRt := 0, seen := [(47, 1, 0)] }) } }
     let w : WakeKind := .switchPoll 7 47
     (decide (wakeWatch s)) &&
     (match w with
     | .switchPoll g i =>
       (decide ((pollWakes s g i).isSome)) &&
       (!decide (s.pw.latched.isSome)) &&
       true
     | _ => false)),
     (/- wakeLatch -/ let s : State := { live with pw := { live.pw with dieOn := false, regWake := false, state := .park } }
     let w : WakeKind := .resetPin
     (decide (wakeWatch s)) &&
     (match w with
     | .resetPin =>
       true
     | _ => false)),
     (/- rootTimerWake -/ let s : State := { live with pw := { live.pw with dieOn := false, regWake := false, state := .park, alarmEn := true, alarm := 2 ^ 40 } }
     (decide (wakeWatch s && s.pw.alarmEn && s.pw.alarm ≤ s.rt))),
     (/- perstNWake -/ let s : State := { live with pw := { live.pw with dieOn := false, regWake := false, state := .park, hostWakeEn := true } }
     (decide (wakeWatch s && s.pw.hostWakeEn))),
     (/- wakeNRelease -/ let s : State := { live with pw := { live.pw with wakeN := true } }
     (decide (s.pw.wakeN))),
     (/- regulatorRetry -/ let s : State := { live with pw := { live.pw with dieOn := false, regWake := true, state := .park, regWakeRt := 2 ^ 40 - 820 } }
     (decide (s.pw.rootOn && !s.pw.dieOn && s.pw.regWake && s.pw.regWakeRt + 820 ≤ s.rt))),
     (/- xtal32Start -/ let s : State := { live with pw := { live.pw with xtalEnd := 2 ^ 40 } }
     (decide (s.pw.rootOn && !s.pw.xtal32 && s.rt ≤ s.pw.xtalEnd))),
     (/- xtal32Fail -/ let s : State := { live with pw := { live.pw with xtal32 := true } }
     (decide (s.pw.xtal32))),
     (/- xtal40Fail -/ let s : State := live
     (decide (s.pw.clocks && !s.pw.xtal40Bad))),
     (/- pfwFall -/ let s : State := live
     (decide (awake s && !s.pw.pfw))),
     (/- pfwRise -/ let s : State := { live with pw := { live.pw with pfw := true } }
     (decide (awake s && s.pw.pfw))),
     (/- crank -/ let s : State := live
     let x : HeldV := ⟨5999, 0⟩
     (decide (awake s && x.v < 6000 && x.since + ms 1 ≤ s.dt && !s.pw.crank))),
     (/- xtal40Retry -/ let s : State := { live with pw := { live.pw with xtal40Bad := true, xtal40RetryRt := 2 ^ 40 - 16384 } }
     (decide (s.pw.xtal40Bad && s.pw.xtal40RetryRt + 16384 ≤ s.rt)))].all id = true := by decide +kernel

/-- The hypotheses of `Obligations.UpdateAndStartCommandsComplete`, clause by clause, at boundary values of deadlines and ranges. Part 1. -/
theorem witness_UpdateAndStartCommandsComplete_1 :
    [(/- updWrite -/ tookBlock (live) 0x3810 updWriteForm paramBlock (dsc 0x3810 0xF00 4 [(16, 0x1000), (24, 1), (28, 0x3FFFFC)])),
     (/- updArm -/ took (live) 0x3811 updArmForm (dsc 0x3811 0xF00 0 [(24, 1)])),
     (/- updDisarm -/ took (live) 0x3812 updDisarmForm (dsc 0x3812 0xF00 0 [(24, 0)])),
     (/- updQuery -/ took (live) 0x3813 updQueryForm (dsc 0x3813 0xF00 0)),
     (/- updConfirm -/ took ({ live with upd := { live.upd with state := .trial } }) 0x3814 updConfirmForm (dsc 0x3814 0xF00 0)),
     (/- updReject -/ took ({ live with upd := { live.upd with state := .trial } }) 0x3815 updRejectForm (dsc 0x3815 0xF00 0)),
     (/- updKeySet -/ tookBlock (live) 0x3816 updKeySetForm paramBlock (dsc 0x3816 0xF00 64 [(16, 0x1000)])),
     (/- trialTimeout -/ let s : State := { live with upd := { live.upd with state := .trial, trialStart := 2 ^ 40 - 48000000000 } }
     (s.pw.dieOn) &&
     (decide (s.upd.state == .trial && s.upd.trialStart + sec 600 ≤ s.dt && s.flt.resetDue.isNone))),
     (/- rootIslandPowerOn -/ let s : State := { live with pw := { live.pw with rootOn := false } }
     (decide (!s.pw.rootOn))),
     (/- digitalDieStart -/ let s : State := { State.reset with rt := 24, pw := { State.reset.pw with regWake := true, regWakeRt := 14, regRise := none } }
     (decide (s.pw.rootOn && !s.pw.dieOn && s.pw.regWake && s.pw.regWakeRt + 10 ≤ s.rt && !s.pw.xtal40Bad))),
     (/- graftBlock -/ let s : State := { live with upd := { live.upd with state := .grafting, graftOn := true } }
     (decide (s.pw.dieOn && s.upd.graftOn && s.upd.state == .grafting))),
     (/- safeEntriesDelivered -/ let s : State := live
     let die : Die := .field
     (decide (s.pw.ready && die != .digital && !dieDown s die && !s.safeHere.contains die))),
     (/- linkFailure -/ let s : State := live
     let die : Die := .loadB
     (s.pw.dieOn) &&
     (decide (die != .digital && !dieDown s die))),
     (/- linkReturn -/ let s : State := { live with linkDown := [.base] }
     let die : Die := .base
     (s.pw.dieOn) &&
     (decide (dieDown s die))),
     (/- deviceReset -/ let s : State := live
     let r : ResetSource := .resetPin
     (match r with
     | .resetPin =>
       (s.pw.dieOn) &&
       true
     | _ => false)),
     (/- deviceReset -/ let s : State := { live with flt := { live.flt with resetDue := some (2 ^ 40, .faultReset) } }
     let r : ResetSource := .faultReset
     (match r with
     | .faultReset =>
       (match s.flt.resetDue with
       | some (t, .faultReset) =>
         (decide (t ≤ s.dt)) &&
         true
       | _ => false)
     | _ => false)),
     (/- deviceReset -/ let s : State := { live with flt := { live.flt with wdFired := some (2 ^ 40 - 800000) } }
     let r : ResetSource := .watchdog
     (match r with
     | .watchdog =>
       (match s.flt.wdFired with
       | some t =>
         (decide (t + ms 10 ≤ s.dt)) &&
         true
       | _ => false)
     | _ => false)),
     (/- deviceReset -/ let s : State := { live with flt := { live.flt with resetDue := some (2 ^ 40, .trialTimeout) } }
     let r : ResetSource := .trialTimeout
     (match r with
     | .trialTimeout =>
       (match s.flt.resetDue with
       | some (t, .trialTimeout) =>
         (decide (t ≤ s.dt)) &&
         true
       | _ => false)
     | _ => false)),
     (/- vcoreBrownout -/ let s : State := live
     (s.pw.dieOn)),
     (/- rootIslandSupplyLoss -/ let s : State := live
     (decide (s.pw.rootOn)))].all id = true := by decide +kernel

/-- The hypotheses of `Obligations.UpdateAndStartCommandsComplete`, clause by clause, at boundary values of deadlines and ranges. Part 2. -/
theorem witness_UpdateAndStartCommandsComplete_2 :
    [(/- loadDieSupplyLow -/ let s : State := live
     let d : Die := .loadA
     let x : HeldV := ⟨2999, 0⟩
     (decide (hasSupply d && x.v < 4200 && supplyStands x.since s))),
     (/- lsSupplyHigh -/ let s : State := live
     let x : DieSupply := ⟨.base, 44000, 0⟩
     (decide (hasSupply x.die && 44000 ≤ x.v && supplyStands x.since s))),
     (/- supplyReturn -/ let s : State := { live with ld := { live.ld with supplyOff := [.loadB] } }
     let x : DieSupply := ⟨.loadB, 43000, 0⟩
     (decide (supplyHolds s x.die && 4500 ≤ x.v && x.v ≤ 43000 && (x.since + ms 10 ≤ s.dt || !s.pw.clocks)))),
     (/- dieOvertemp -/ let s : State := live
     let t : Int := 2480
     (s.pw.dieOn) &&
     (decide (2480 ≤ t)))].all id = true := by decide +kernel

/-- The hypotheses of `Obligations.EngineMemoryComplete`, clause by clause, at boundary values of deadlines and ranges. Part 1. -/
theorem witness_EngineMemoryComplete_1 :
    [(/- ld -/ let s : State := run eng0
     let x : Issue := { engine := 0 }
     let d : RegCode := 5
     let b : RegCode := 4
     let m : Amode := .postInc
     let sz : Size := .byte
     let sx : Bool := true
     let g := eng s x.engine
     let n := sizeBytes sz
     decide (Fetched s x (ldKind d b m sz sx)) &&
     decide (modeOk b m = true) &&
     decide (modeBreaksStack g b n m = false) &&
     decide ((modeUpdates m && d == b) = false) &&
     (match memLoad x (modeAddr g b n m).toNat n (start s) with
      | .ok (v, c) => (
       let c2 := based x.engine b (modeBase g b n m) c
       decide ((d = 3 → (stkLim (eng c2.s x.engine)).toNat ≤ (extend sz sx v).toNat)))
      | _ => false)),
     (/- st -/ let s : State := run eng0
     let x : Issue := { engine := 0 }
     let d : RegCode := 5
     let b : RegCode := 4
     let m : Amode := .preDec
     let sz : Size := .word
     let g := eng s x.engine
     let n := sizeBytes sz
     decide (Fetched s x (stKind d b m sz)) &&
     decide (modeOk b m = true) &&
     decide (modeBreaksStack g b n m = false) &&
     (match memStore x (modeAddr g b n m).toNat n ((rdReg g d).toNat % 2 ^ (8 * n)) (start s) with
      | .ok ((), c) => (
       true)
      | _ => false)),
     (/- lea -/ let s : State := run eng0
     let x : Issue := { engine := 0 }
     let d : RegCode := 5
     let b : RegCode := 4
     let m : Amode := .longDisp 0xFFFFFFFF
     let g := eng s x.engine
     decide (Fetched s x (leaKind d b m)) &&
     decide (modeUpdates m = false) &&
     decide (modeOk b m = true) &&
     decide (modeBreaksStack g b 1 m = false) &&
     decide ((d = 3 → (stkLim g).toNat ≤ (modeAddr g b 1 m).toNat))),
     (/- pushm -/ let s : State := run eng0
     let x : Issue := { engine := 0 }
     let mask : BitVec 11 := 0x7FF
     let l := maskRegs mask
     let sp := (rdReg (eng s x.engine) 3).toNat
     decide (Fetched s x (pushmKind mask)) &&
     decide (4 * l.length ≤ sp) &&
     decide ((stkLim (eng s x.engine)).toNat ≤ sp - 4 * l.length) &&
     (match storeWords x (sp - 4 * l.length) (l.map (rdReg (eng s x.engine))) (wrote x.engine 3 (BitVec.ofNat 32 (sp - 4 * l.length)) (spent l.length (start s))) with
      | .ok ((), c) => (
       true)
      | _ => false)),
     (/- popm -/ let s : State := run eng0
     let x : Issue := { engine := 4 }
     let mask : BitVec 11 := 0x7FF
     let l := maskRegs mask
     let sp := rdReg (eng s x.engine) 3
     decide (Fetched s x (popmKind mask)) &&
     (match loadWords x sp.toNat l.length (spent l.length (start s)) with
      | .ok (ws, c) => (
       (match putWords x.engine l ws c with
        | .ok ((), c2) => (
         decide ((stkLim (eng c2.s x.engine)).toNat ≤ (sp + BitVec.ofNat 32 (4 * l.length)).toNat))
        | _ => false))
      | _ => false)),
     (/- movs -/ let s : State := run eng0
     let x : Issue := { engine := 0 }
     let d : RegCode := 4
     let b : RegCode := 5
     let sz : Size := .half
     let g := eng s x.engine
     let n := sizeBytes sz
     decide (Fetched s x (movsKind d b sz)) &&
     decide (isBase d = true) &&
     decide (isBase b = true) &&
     decide (modeBreaksStack g d n .postInc = false) &&
     decide (modeBreaksStack g b n .postInc = false) &&
     (match memLoad x (rdReg g b).toNat n (start s) with
      | .ok (v, c) => (
       (match memStore x (rdReg g d).toNat n v c with
        | .ok ((), c2) => (
         true)
        | _ => false))
      | _ => false)),
     (/- movs -/ let s : State := run eng0
     let x : Issue := { engine := 4 }
     let d : RegCode := 4
     let b : RegCode := 4
     let sz : Size := .half
     let g := eng s x.engine
     let n := sizeBytes sz
     decide (Fetched s x (movsKind d b sz)) &&
     decide (isBase d = true) &&
     decide (isBase b = true) &&
     decide (modeBreaksStack g d n .postInc = false) &&
     decide (modeBreaksStack g b n .postInc = false) &&
     (match memLoad x (rdReg g b).toNat n (start s) with
      | .ok (v, c) => (
       (match memStore x (rdReg g d).toNat n v c with
        | .ok ((), c2) => (
         true)
        | _ => false))
      | _ => false))].all id = true := by decide +kernel

/-- The hypotheses of `Obligations.EngineMemoryComplete`, clause by clause, at boundary values of deadlines and ranges. Part 2. -/
theorem witness_EngineMemoryComplete_2 :
    [(/- xchg -/ let s : State := run eng0
     let x : Issue := { engine := 0 }
     let d : RegCode := 7
     let b : RegCode := 4
     let disp : BitVec 12 := 0xFFC
     let g := eng s x.engine
     decide (Fetched s x (xchgKind d b disp)) &&
     (match atomic x (rdReg g b + disp.signExtend 32).toNat (fun _ => some (rdReg g d)) (spent 1 (start s)) with
      | .ok (old, c) => (
       decide ((d = 3 → (stkLim (eng c.s x.engine)).toNat ≤ old.toNat)))
      | _ => false)),
     (/- cas -/ let s : State := run eng0
     let x : Issue := { engine := 4 }
     let d : RegCode := 6
     let r : RegCode := 4
     let t : RegCode := 5
     let g := eng s x.engine
     decide (Fetched s x (casKind d r t)) &&
     decide ((areaOf s (rdReg g r).toNat = some .sram ∨ areaOf s (rdReg g r).toNat = some .loc)) &&
     (match atomic x (rdReg g r).toNat (fun v => if BitVec.ofNat 32 v == rdReg g d then some (rdReg g t) else none) (spent 1 (start s)) with
      | .ok (old, c) => (
       decide ((d = 3 → (stkLim (eng c.s x.engine)).toNat ≤ old.toNat)))
      | _ => false))].all id = true := by decide +kernel

/-- The hypotheses of `Obligations.EngineFlowComplete`, clause by clause, at boundary values of deadlines and ranges. Part 1. -/
theorem witness_EngineFlowComplete_1 :
    [(/- br -/ let s : State := run eng0
     let x : Issue := { engine := 0 }
     let off : BitVec 22 := 0x3FFFFF
     decide (Fetched s x (brKind off)) &&
     decide ((branchTarget (eng s x.engine) off).toNat % 4 = 0)),
     (/- bz -/ let s : State := run eng0
     let x : Issue := { engine := 0 }
     let c : RegCode := 6
     let off : BitVec 22 := 1
     decide (Fetched s x (condKind true c off)) &&
     decide (isG c = true) &&
     decide ((branchTarget (eng s x.engine) off).toNat % 4 = 0)),
     (/- bz -/ let s : State := run { eng0 with regs := eng0.regs.set 6 0 }
     let x : Issue := { engine := 0 }
     let c : RegCode := 6
     let off : BitVec 22 := 1
     decide (Fetched s x (condKind true c off)) &&
     decide (isG c = true) &&
     decide ((branchTarget (eng s x.engine) off).toNat % 4 = 0)),
     (/- bnz -/ let s : State := run eng0
     let x : Issue := { engine := 0 }
     let c : RegCode := 6
     let off : BitVec 22 := 1
     decide (Fetched s x (condKind false c off)) &&
     decide (isG c = true) &&
     decide ((branchTarget (eng s x.engine) off).toNat % 4 = 0)),
     (/- bnz -/ let s : State := run { eng0 with regs := eng0.regs.set 6 0 }
     let x : Issue := { engine := 0 }
     let c : RegCode := 6
     let off : BitVec 22 := 1
     decide (Fetched s x (condKind false c off)) &&
     decide (isG c = true) &&
     decide ((branchTarget (eng s x.engine) off).toNat % 4 = 0)),
     (/- jr -/ let s : State := run eng0
     let x : Issue := { engine := 0 }
     let r : RegCode := 4
     decide (Fetched s x (jrKind r)) &&
     decide ((rdReg (eng s x.engine) r).toNat % 4 = 0)),
     (/- call -/ let s : State := run eng0
     let x : Issue := { engine := 0 }
     let mask : BitVec 11 := 0x7FF
     let off : BitVec 15 := 1
     let g := eng s x.engine
     let l := maskRegs mask
     let sp := (rdReg g 3).toNat
     let n := 8 + 4 * l.length
     decide (Fetched s x (callKind mask off)) &&
     decide ((branchTarget g off).toNat % 4 = 0) &&
     decide (n ≤ sp) &&
     decide ((stkLim g).toNat ≤ sp - n) &&
     (match storeWords x (sp - n) ([g.pc + 4, frameWord mask g] ++ l.map (rdReg g)) (wrote x.engine 3 (BitVec.ofNat 32 (sp - n)) (spent (1 + l.length) (start s))) with
      | .ok ((), c) => (
       true)
      | _ => false))].all id = true := by decide +kernel

/-- The hypotheses of `Obligations.EngineFlowComplete`, clause by clause, at boundary values of deadlines and ranges. Part 2. -/
theorem witness_EngineFlowComplete_2 :
    [(/- callx -/ let s : State := run eng0
     let x : Issue := { engine := 0 }
     let mask : BitVec 11 := 0
     let target : Word := 0x2000
     let g := eng s x.engine
     let l := maskRegs mask
     let sp := (rdReg g 3).toNat
     let n := 8 + 4 * l.length
     decide (Fetched s x (callxKind mask target)) &&
     decide ((target).toNat % 4 = 0) &&
     decide (n ≤ sp) &&
     decide ((stkLim g).toNat ≤ sp - n) &&
     (match storeWords x (sp - n) ([g.pc + 8, frameWord mask g] ++ l.map (rdReg g)) (wrote x.engine 3 (BitVec.ofNat 32 (sp - n)) (spent (2 + l.length) (start s))) with
      | .ok ((), c) => (
       true)
      | _ => false)),
     (/- callr -/ let s : State := run eng0
     let x : Issue := { engine := 0 }
     let mask : BitVec 11 := 1
     let r : RegCode := 4
     let g := eng s x.engine
     let l := maskRegs mask
     let sp := (rdReg g 3).toNat
     let n := 8 + 4 * l.length
     decide (Fetched s x (callrKind mask r)) &&
     decide ((rdReg g r).toNat % 4 = 0) &&
     decide (n ≤ sp) &&
     decide ((stkLim g).toNat ≤ sp - n) &&
     (match storeWords x (sp - n) ([g.pc + 4, frameWord mask g] ++ l.map (rdReg g)) (wrote x.engine 3 (BitVec.ofNat 32 (sp - n)) (spent (1 + l.length) (start s))) with
      | .ok ((), c) => (
       true)
      | _ => false)),
     (/- ret -/ let s : State := run { eng0 with ram := [(0x1001, 1), (0x1004, 3), (0x1006, 240), (0x1007, 90)] }
     let x : Issue := { engine := 0 }
     let g := eng s x.engine
     let sp := rdReg g 3
     decide (Fetched s x retKind) &&
     (match loadWords x sp.toNat 2 (start s) with
      | .ok (head, c) => (
       let back := head.getD 0 0
       let fw := head.getD 1 0
       let l := maskRegs (fw.truncate 11)
       decide (frameOk fw = true) &&
       decide (back.toNat % 4 = 0) &&
       (match loadWords x (sp.toNat + 8) l.length (spent (2 + l.length) c) with
        | .ok (ws, c2) => (
         (match putFrame x.engine l ws c2 with
          | .ok ((), c3) => (
           let t := setEng x.engine (fun g => { g with sw := setFld g.sw swLa 3 (fld fw.toNat 11 3) }) c3.s
           decide ((stkLim (eng t x.engine)).toNat ≤ (sp + BitVec.ofNat 32 (8 + 4 * l.length)).toNat))
          | _ => false))
        | _ => false))
      | _ => false)),
     (/- loop -/ let s : State := run eng0
     let x : Issue := { engine := 0 }
     let r : RegCode := 15
     let last : BitVec 14 := 1
     decide (Fetched s x (loopKind r last)) &&
     decide (last ≠ 0) &&
     decide (rdReg (eng s x.engine) r = 0)),
     (/- loop -/ let s : State := run eng0
     let x : Issue := { engine := 0 }
     let r : RegCode := 6
     let last : BitVec 14 := 0x3FFF
     decide (Fetched s x (loopKind r last)) &&
     decide (last ≠ 0) &&
     decide (rdReg (eng s x.engine) r ≠ 0) &&
     (match lowestFree (eng s x.engine) with
      | some l => (
       let t := setEng x.engine (fun g => setLevel l true (setLc l (rdReg (eng s x.engine) r) { g with loops := g.loops.set l { start := g.pc + 4, last := (eng s x.engine).pc + BitVec.ofNat 32 (4 * last.toNat) } })) s
       true)
      | _ => false)),
     (/- loopi -/ let s : State := run eng0
     let x : Issue := { engine := 0 }
     let count : BitVec 12 := 0
     let last : BitVec 14 := 1
     decide (Fetched s x (loopiKind count last)) &&
     decide (last ≠ 0) &&
     decide (count.zeroExtend 32 = 0)),
     (/- loopi -/ let s : State := run eng0
     let x : Issue := { engine := 0 }
     let count : BitVec 12 := 0xFFF
     let last : BitVec 14 := 1
     decide (Fetched s x (loopiKind count last)) &&
     decide (last ≠ 0) &&
     decide (count.zeroExtend 32 ≠ 0) &&
     (match lowestFree (eng s x.engine) with
      | some l => (
       let t := setEng x.engine (fun g => setLevel l true (setLc l (count.zeroExtend 32) { g with loops := g.loops.set l { start := g.pc + 4, last := (eng s x.engine).pc + BitVec.ofNat 32 (4 * last.toNat) } })) s
       true)
      | _ => false))].all id = true := by decide +kernel

/-- The hypotheses of `Obligations.EngineFlowComplete`, clause by clause, at boundary values of deadlines and ranges. Part 3. -/
theorem witness_EngineFlowComplete_3 :
    [(/- leave -/ let s : State := run (setLevel 1 true eng0)
     let x : Issue := { engine := 0 }
     decide (Fetched s x leaveKind) &&
     (match innermost (eng s x.engine) with
      | some l => (
       true)
      | _ => false)),
     (/- rep -/ let s : State := run eng0
     let x : Issue := { engine := 0 }
     let r : RegCode := 6
     let ni : Bool := true
     decide (Fetched s x (repKind r ni)) &&
     (match highestFree (eng s x.engine) with
      | some l => (
       let g := eng s x.engine
       let n := if swBit g swRepa then getLc g l else rdReg g r
       decide ((swBit g swRepa = true ∨ ni = false ∨ (rdReg g r).toNat ≤ 256)) &&
       decide (n ≠ 0) &&
       (let t := setEng x.engine (fun g => setSw swRepa true (setLc l n { g with rep := some { level := l, ni := ni, found := some (getLc g l) } })) s
       true))
      | _ => false)),
     (/- rep -/ let s : State := run eng0
     let x : Issue := { engine := 0 }
     let r : RegCode := 15
     let ni : Bool := false
     decide (Fetched s x (repKind r ni)) &&
     decide (swBit (eng s x.engine) swRepa = false) &&
     decide (rdReg (eng s x.engine) r = 0) &&
     (let t := if highestFree (eng s x.engine) = none then s else setEng x.engine (setSw swRepa false) s
     true))].all id = true := by decide +kernel

/-- The hypotheses of `Obligations.EngineSystemComplete`, clause by clause, at boundary values of deadlines and ranges. Part 1. -/
theorem witness_EngineSystemComplete_1 :
    [(/- nopInstruction -/ let s : State := run eng0
     let x : Issue := { engine := 0 }
     decide (Fetched s x nopKind)),
     (/- fence -/ let s : State := run eng0
     let x : Issue := { engine := 0 }
     decide (Fetched s x fenceKind) &&
     decide (confirmsOut (settled x.engine s) x.engine = false)),
     (/- fence -/ let s : State := { run eng0 with host := { live.host with confirmDue := [(0, 0x40000000)] } }
     let x : Issue := { engine := 0 }
     decide (Fetched s x fenceKind) &&
     decide (confirmsOut (settled x.engine s) x.engine = true)),
     (/- send -/ let s : State := run { eng0 with inbox := List.replicate 31 { prog := none, event := false, record := { opcode := 0, target := 0, ringFld := 0, tag := 0, time := 0, result := 0 } } }
     let x : Issue := { engine := 4 }
     let d : RegCode := 8
     let r : RegCode := 4
     let g := eng s x.engine
     decide (Fetched s x (sendKind d r)) &&
     decide (isG d = true) &&
     decide ((rdReg g r).toNat % 32 = 0) &&
     decide ((inTask g = true ∨ areaOf s (rdReg g r).toNat = some .loc)) &&
     (match loadWords x (rdReg g r).toNat 8 (spent 5 (start s)) with
      | .ok (ws, c) => (
       decide (engInFlight c.s x.engine < 32) &&
       (let t := settled x.engine c.s
       let desc := sentDesc x.engine g (ofLe (ws.map fun w => leBytes 4 w.toNat).flatten)
       decide (confirmsOut t x.engine = false)))
      | _ => false)),
     (/- send -/ let s : State := run { eng0 with inbox := List.replicate 32 { prog := none, event := false, record := { opcode := 0, target := 0, ringFld := 0, tag := 0, time := 0, result := 0 } } }
     let x : Issue := { engine := 0 }
     let d : RegCode := 8
     let r : RegCode := 4
     let g := eng s x.engine
     decide (Fetched s x (sendKind d r)) &&
     decide (isG d = true) &&
     decide ((rdReg g r).toNat % 32 = 0) &&
     decide ((inTask g = true ∨ areaOf s (rdReg g r).toNat = some .loc)) &&
     (match loadWords x (rdReg g r).toNat 8 (spent 5 (start s)) with
      | .ok (ws, c) => (
       decide (32 ≤ engInFlight c.s x.engine))
      | _ => false)),
     (/- recv -/ let s : State := run { eng0 with inbox := [{ prog := some 3, event := true, record := { opcode := 0x1080, target := 0, ringFld := 0, tag := 0, time := 0, result := 0 } }] }
     let x : Issue := { engine := 0 }
     let d : RegCode := 8
     let r : RegCode := 4
     let m : InRec := { prog := some 3, event := true, record := { opcode := 0x1080, target := 0, ringFld := 0, tag := 0, time := 0, result := 0 } }
     let rest : List InRec := []
     let g := eng s x.engine
     decide (Fetched s x (recvKind d r)) &&
     decide (isG d = true) &&
     decide ((rdReg g r).toNat % 32 = 0) &&
     decide ((inTask g = true ∨ areaOf s (rdReg g r).toNat = some .loc)) &&
     decide (g.inbox = m :: rest) &&
     (match storeWords x (rdReg g r).toNat ((List.range 8).map fun i => BitVec.ofNat 32 (fld (ofLe (recordBytes 0 m.record)) (32 * i) 32)) { start s with cost := { extra := 11, samples := [ofLe (recordBytes 0 m.record)] } } with
      | .ok ((), c) => (
       true)
      | _ => false)),
     (/- recv -/ let s : State := run eng0
     let x : Issue := { engine := 0 }
     let d : RegCode := 8
     let r : RegCode := 4
     let g := eng s x.engine
     decide (Fetched s x (recvKind d r)) &&
     decide (isG d = true) &&
     decide ((rdReg g r).toNat % 32 = 0) &&
     decide ((inTask g = true ∨ areaOf s (rdReg g r).toNat = some .loc)) &&
     decide (g.inbox = []))].all id = true := by decide +kernel

/-- The hypotheses of `Obligations.EngineSystemComplete`, clause by clause, at boundary values of deadlines and ranges. Part 2. -/
theorem witness_EngineSystemComplete_2 :
    [(/- wait -/ let s : State := run eng0
     let x : Issue := { engine := 0 }
     decide (Fetched s x waitKind) &&
     decide (inTask (eng s x.engine) = false)),
     (/- yield -/ let s : State := run (setSw swTask true { eng0 with mpu := eng0.mpu.set 0 { base := 0x10F00000, lim := 0x10F00003, attr := 0xF } })
     let x : Issue := { engine := 0 }
     decide (Fetched s x yieldKind) &&
     decide (inTask (eng s x.engine) = true)),
     (/- yield -/ let s : State := run eng0
     let x : Issue := { engine := 0 }
     decide (Fetched s x yieldKind) &&
     decide (inTask (eng s x.engine) = false)),
     (/- trap -/ let s : State := run eng0
     let x : Issue := { engine := 0 }
     let code : BitVec 8 := 0xFF
     decide (Fetched s x (trapKind code))),
     (/- mfs -/ let s : State := run eng0
     let x : Issue := { engine := 0 }
     let d : RegCode := 8
     let n : BitVec 8 := 0x10
     let g := eng s x.engine
     let v := spValue s x.engine n.toNat
     decide (Fetched s x (mfsKind d n)) &&
     decide (spListed n.toNat = true) &&
     decide ((inTask g = false ∨ spTask n.toNat = true)) &&
     decide ((d = 3 → (stkLim g).toNat ≤ v.toNat))),
     (/- mfs -/ let s : State := run eng0
     let x : Issue := { engine := 0 }
     let d : RegCode := 3
     let n : BitVec 8 := 0x04
     let g := eng s x.engine
     let v := spValue s x.engine n.toNat
     decide (Fetched s x (mfsKind d n)) &&
     decide (spListed n.toNat = true) &&
     decide ((inTask g = false ∨ spTask n.toNat = true)) &&
     decide ((d = 3 → (stkLim g).toNat ≤ v.toNat))),
     (/- mts -/ let s : State := run eng0
     let x : Issue := { engine := 0 }
     let r : RegCode := 4
     let n : BitVec 8 := 0x37
     let g := eng s x.engine
     decide (Fetched s x (mtsKind r n)) &&
     decide (spListed n.toNat = true) &&
     decide ((inTask g = false ∨ n = 0)))].all id = true := by decide +kernel

/-- The hypotheses of `Obligations.EngineSystemComplete`, clause by clause, at boundary values of deadlines and ranges. Part 3. -/
theorem witness_EngineSystemComplete_3 :
    [(/- reti -/ let s : State := run eng0
     let x : Issue := { engine := 0 }
     let g := eng s x.engine
     decide (Fetched s x retiKind) &&
     decide (inTask g = false) &&
     (match loadWords x g.ssp.toNat 11 (start s) with
      | .ok (ws, c) => (
       decide ((ws.getD 0 0).toNat % 4 = 0))
      | _ => false)),
     (/- illegalInstruction -/ let s : State := run eng0
     let x : Issue := { engine := 0 }
     let w : Word := 0xFFFFFFFF
     decide (mlzLegal w.toNat = false) &&
     decide (Fetched s x (badKindOf w))),
     (/- interruptEntry -/ let s : State := { run (setSw swIe true { eng0 with ivec := 0x20000000, ram := [(644, 1)] }) with engInts := live.engInts.set 0 (2 ^ 80) }
     let x : Issue := { engine := 0 }
     let e := x.engine
     let g := eng s e
     let pc := savedPc g
     decide ((executes s e && intAllowed s e) = true) &&
     (match enterInt x pc (start s) with
      | .ok (some n, c) => (
       let t := setAsked e [] { c.s with engInts := upd c.s.engInts e fun b => b - putF (fld b n 1) n 1 }
       let slots := entrySlots 0x18 (eng t e).pc (occurOf g pc)
       true)
      | _ => false)),
     (/- handlerDispatch -/ let s : State := { live with stg := { live.stg with place := { progs := [{ num := 3, engine := 4, split := false, slot := 1, handlers := [(0x1080, 0, 0x100, 1)] }] } }, eng := live.eng.set 4 { inbox := [{ prog := some 3, event := true, record := { opcode := 0x1080, target := 0, ringFld := 0, tag := 0, time := 0, result := 0 } }] } }
     let e : Fin 16 := 4
     (decide (mayDispatch s e))),
     (/- handlerCycleBudgetExceeded -/ let s : State := { live with eng := live.eng.set 4 { sw := 0x100, handler := some { prog := 3, cycles := 6, max := 5 } } }
     let x : Issue := { engine := 4 }
     (decide (executes s x.engine && budgetOver (eng s x.engine)))),
     (/- inboundQueueDelivery -/ let s : State := { live with transit := [{ engine := 15, prog := none, event := false, record := { opcode := 0, target := 0, ringFld := 0, tag := 0, time := 0, result := 0 } }] }
     let e : Fin 16 := 15
     (s.pw.dieOn) &&
     (match s.transit.find? fun r => r.engine == e.val with
     | some r =>
       true
     | _ => false)),
     (/- localTimer -/ let s : State := live
     let e : Fin 16 := 15
     (decide (engineClock s e)))].all id = true := by decide +kernel

/-! ### Witnesses of the other statements -/

theorem tables_live : TablesWf live := by
  refine ⟨fun i x h => ?_, by decide +kernel, by decide +kernel, fun r h => ?_⟩
  · exact absurd (h.symm.trans ((by decide +kernel : ∀ i : Fin 16, live.stg.staged[i] = none) i)) nofun
  · exact absurd (h.symm.trans (by decide +kernel : live.stg.run = none)) nofun

theorem programs_live : ProgramMemoryWf live := by
  refine ⟨by decide +kernel, by decide +kernel, fun p h => ?_, fun r h => ?_, by decide +kernel⟩
  · exact absurd (show p ∈ ([] : List Prog) from h) List.not_mem_nil
  · exact absurd (h.symm.trans (by decide +kernel : live.stg.run = none)) nofun

theorem witness_StepRunsFrontCommand : ({ live with pending := [.heartbeat, .descriptorFetch] } : State).pending = .heartbeat :: [.descriptorFetch] := rfl

/-- Full clocks and stopped ones; the last step of a phase and of DT. -/
theorem witness_IdleStepCountsTime : live.pending = [] ∧ live.pw.clocks = true ∧ State.reset.pending = [] ∧ State.reset.pw.clocks = false ∧
    (match step { live with dt := 2 ^ 64 - 1, rt := 2 ^ 48 - 1, rtPhase := 78109 } with | .next t => decide (t.dt = 0 ∧ t.rt = 0 ∧ t.rtPhase = 0) | _ => false) = true ∧
    (match step State.reset with | .next t => decide (t.dt = 0 ∧ t.rt = 1) | _ => false) = true := by decide +kernel

/-- The invariants hold in `live`, and from it a step answers a next state. -/
theorem witness_Invariants : TimeFits live ∧ MemoryWf live ∧ ProgramMemoryWf live ∧ TablesWf live ∧ Runs (step live) :=
  ⟨by unfold TimeFits; decide +kernel, by unfold MemoryWf; decide +kernel, programs_live, tables_live, ⟨_, rfl⟩⟩

/-- The largest DT, RT and phase that fit. -/
theorem witness_TimeFitsKept : TimeFits { live with dt := 2 ^ 64 - 1, rt := 2 ^ 48 - 1, rtPhase := 78124 } := by unfold TimeFits; decide +kernel

theorem witness_QueueAndClocksKept : goes .heartbeat live = true ∧ family .heartbeat ≠ .start := by decide +kernel

theorem witness_OnlyCommitTickPutsInForce : goes .heartbeat State.reset = true ∧ State.reset.stg.inForce = false ∧ Instr.heartbeat ≠ .commitTick := by decide +kernel

theorem witness_OnlyOpeningsOpenSessions : goes .runtimeSessionOpen live = true ∧ (∀ o, Instr.runtimeSessionOpen ≠ .sessionOpen o) ∧
    (3 : Fin 4) ≠ 2 ∧ live.ses[(3 : Fin 4)].isOpen = false :=
  ⟨by decide +kernel, nofun, by decide, by decide +kernel⟩

/-- PKG_ERASE leaves keys and MRAM alone, KEY_WRITE packages and MRAM. -/
theorem witness_KeysAndStoresChangeOnlyByTheirCommands :
    goes (.pkgErase .diag) live = true ∧ (∀ o b, Instr.pkgErase .diag ≠ .keyWrite o b) ∧ (∀ b, Instr.pkgErase .diag ≠ .heartwoodRecordWrite b) ∧ family (.pkgErase .diag) ≠ .power ∧
    goes (.keyWrite .diag .run) live = true ∧ (∀ o b, Instr.keyWrite .diag .run ≠ .pkgWrite o b) ∧ (∀ o, Instr.keyWrite .diag .run ≠ .pkgErase o) :=
  ⟨by decide +kernel, nofun, nofun, by decide +kernel, by decide +kernel, nofun, nofun⟩

/-- A command of each of the 21 families answers a next state. -/
theorem witness_Frames :
    (([(.load, .budgetAllocation { hb := 0, vlv := 0, field := 0, lf := 0, vbat := 0 }), (.wire, .wireQuery .diag), (.bridge, .brakeEnd 0), (.valve, .peakEnd 0), (.switch, .swiStuck 0), (.field, .barrierPowerReturn), (.access, .halt),
       (.can, .txdDominant 0), (.lin, .linBusDominant 0), (.sleep, .maxAwake 0), (.ring, .descriptorFetch), (.bridgeHost, .hostLinkTimeout), (.perf, .perfSample), (.staging, .commitTick),
       (.session, .runtimeSessionOpen), (.fault, .heartbeat), (.power, .crank ⟨0, 0⟩), (.update, .trialTimeout), (.start, .vcoreBrownout), (.pair, .mergeCopyDone 2), (.engine, .wait { engine := 0 })]
      : List (Family × Instr)).all fun x => decide (family x.2 = x.1) && goes x.2 live) = true := by decide +kernel

/-- One descriptor for each check of R40 that it fails first, and the operation that stands for it. -/
theorem witness_ChecksInOrder :
    (let a := dsc 0x1000 0 4; let f := lchSetForm live a; checkForm a f = false) ∧
    (let a := dsc 0x1000 0 0 [(3, 3)]; let f := lchSetForm live a; checkForm a f = true ∧ checkSession live a f = false) ∧
    (let a := dsc 0x1000 0x10 0; let f := lchSetForm live a; checkForm a f = true ∧ checkSession live a f = true ∧ (f.range && checkTask live a) = false) ∧
    (let a := dsc 0x1000 0x03 0; let f := lchSetForm live a; checkForm a f = true ∧ checkSession live a f = true ∧ (f.range && checkTask live a) = true ∧ (checkSafe live a && f.state) = false) ∧
    (let s := { live with ns := { live.ns with lin := live.ns.lin.set 0 { sched := some 0, diag := some (3, []) } } }
     let a := dsc 0x1902 0x708 0 [(16, 1)]; let f := linDiagReqForm s a
     checkForm a f = true ∧ checkSession s a f = true ∧ (f.range && checkTask s a) = true ∧ (checkSafe s a && f.state) = true ∧ f.res = false) ∧
    (let s := ask (dsc 0x1000 0 4) live
     s.pw.dieOn = true ∧ headOf s (.engine 0) = some (dsc 0x1000 0 4) ∧ (dsc 0x1000 0 4).opcode = 0x1000 ∧ mayStart s (.engine 0) (dsc 0x1000 0 4) = true ∧
     judge s (dsc 0x1000 0 4) (lchSetForm s (dsc 0x1000 0 4)) = some 0x08) := by decide +kernel

theorem witness_ChecksInOrder_op : descOp (.lchSet (.engine 0)) = some (.engine 0, 0x1000, lchSetForm) := rfl

/-- LCH_SET on a disabled channel, from engine 0. -/
theorem witness_NotAllowedNow :
    let d := dsc 0x1000 0x03 0
    let s := ask d live
    s.pw.dieOn = true ∧ headOf s (.engine 0) = some d ∧ d.opcode = 0x1000 ∧ mayStart s (.engine 0) d = true ∧ checkForm d (lchSetForm s d) = true ∧
    checkSession s d (lchSetForm s d) = true ∧ ((lchSetForm s d).range && checkTask s d) = true ∧ (checkSafe s d && (lchSetForm s d).state) = false := by decide +kernel

/-- A STAGE_WRITE of a host's ring with its block in host memory, and a state in which it stands first there. -/
def blockDesc : Desc := { dsc 0x0100 0x0F00 4 [(24, 2), (28, 4)] with origin := .ring 0 }
def fetched (b : Option BlockRead) : State :=
  { live with host := { live.host with linkUp := true, blocks := b.toList }, rings := live.rings.set 0 { active := true, pipe := [{ index := 0, desc := some blockDesc }] } }

/-- An unknown opcode alone at its origin; a STAGE_WRITE from a ring with a failed block read, and with one still to send. -/
theorem witness_UnknownOpcodesAndFailedReads :
    (0x1000 ∈ knownOps) ∧
    (let d := dsc 0x7F7F 0 0
     let s := ask d live
     s.pw.dieOn = true ∧ headOf s (.engine 0) = some d ∧ opKnown d.opcode = false ∧ mayStart s (.engine 0) d = true ∧ headOf (popHead (.engine 0) s) (.engine 0) = none) ∧
    (let s := fetched (some { origin := .ring 0, id := 0, addr := 0, len := 4, sent := 4, failed := true })
     Took s (.ring 0) 0x0100 stageWriteForm blockDesc ∧ blockThere (.ring 0) paramBlock s blockDesc = true ∧
     (let u := begun (.ring 0) blockDesc stageWriteForm s
      (blockBytes (.ring 0) (paramBlock u blockDesc).1 (paramBlock u blockDesc).2.1 (paramBlock u blockDesc).2.2 u).1 = none)) ∧
    (let s := fetched (some { origin := .ring 0, id := 0, addr := 0, len := 4 })
     Took s (.ring 0) 0x0100 stageWriteForm blockDesc ∧ (paramBlock s blockDesc).1 = true ∧ s.host.linkUp = true ∧ freeTag s = some 0 ∧
     (blockOf s (.ring 0)).isSome = true ∧ (blockOf s (.ring 0)).all (fun b => !b.failed && b.sent < (paramBlock s blockDesc).2.2) = true) := by decide +kernel

theorem witness_UnknownOpcodesAndFailedReads_op :
    blockOp (.stageWrite (.ring 0) .run) = some (.ring 0, .run, 0x0100, paramBlock, stageWriteForm) ∧
    blockOp (.xspiWrite (.ring 0) .read) = some (.ring 0, .read, 0x2802, xspiSource, xspiForm 2) := ⟨rfl, rfl⟩

/-- Two runs of one target, the first not ended. -/
theorem witness_CompletionOrder :
    let r : Run := { uid := 0, desc := dsc 0x1000 5 0 }
    let q : Run := { uid := 1, desc := dsc 0x1003 5 0, done := some { status := 0, result := 0 } }
    ({ live with started := [r, q] } : State).started = [] ++ r :: [q] ∧ r.done = none ∧ q ∈ [q] ∧ q.desc.target = r.desc.target := by
  exact ⟨rfl, rfl, List.mem_singleton.mpr rfl, by decide +kernel⟩

/-- A hosted device with its link up, a self-hosted one; the last index of a lap. -/
theorem witness_RecordPhase :
    (let s := { live with host := { live.host with linkUp := true } }; s.host.selfHosted = false ∧ s.host.linkUp = true) ∧
    (let s := { live with host := { live.host with selfHosted := true } }; s.host.selfHosted = true ∧ MemoryWf s ∧ s.rings[(63 : Fin 64)].shadow = 0) ∧
    (let r : Ring := {}; 15 < ringSize r ∧ ¬ 16 < ringSize r) := by unfold MemoryWf; decide +kernel

/-- Records with and without a shadow index apart from the record. -/
theorem witness_RecordsInSharedMemory :
    let s := { live with host := { live.host with selfHosted := true }, rings := live.rings.set 1 { base := 4096, shadow := 8192, idx := 2 ^ 32 - 1, role := true } }
    s.host.selfHosted = true ∧ MemoryWf s ∧ (let r := s.rings[(1 : Fin 64)]; r.shadow ≠ 0 ∧ entryAddr r r.idx + 31 < r.shadow) := by unfold MemoryWf; decide +kernel

/-- A ring with no credit, one that is not active, and one with one credit. -/
theorem witness_EventTakesCredit :
    let full : Ring := { role := true, active := true, idx := 15 }
    let last : Ring := { role := true, active := true, idx := 14 }
    full.sizeLog2 ≤ 16 ∧ credits full = 0 ∧ ({} : Ring).active = false ∧ last.active = true ∧ credits last = 1 ∧ last.role = true := by decide +kernel

/-- STG_SEQ is 7, the descriptor expects 8. -/
theorem witness_StaleCommit :
    let d := dsc 0x0201 0x0F00 0 [(24, 8)]
    let s := ask d live
    s.pw.dieOn = true ∧ headOf s (.engine 0) = some d ∧ d.opcode = 0x0201 ∧ mayStart s (.engine 0) d = true ∧ checkForm d (commitForm s d) = true ∧
    checkSession s d (commitForm s d) = true ∧ ((commitForm s d).range && checkTask s d) = true ∧ d.u 24 32 ≠ s.stg.seq := by decide +kernel

/-- The last word of table 0x02. -/
theorem witness_StagedBytes :
    let d := dsc 0x0100 0x0F00 4 [(16, 4096), (24, 2), (28, tableMax 2 - 4)]
    let s := ask d live
    tookBlock live 0x0100 stageWriteForm paramBlock d = true ∧
    (let u := begun (.engine 0) d stageWriteForm s
     ((blockBytes (.engine 0) (paramBlock u d).1 (paramBlock u d).2.1 (paramBlock u d).2.2 u).1.getD []).length = d.plen) := by decide +kernel

theorem witness_StagedBytes_wf (d : Desc) : TablesWf (ask d live) := tables_live

/-- A session with an open challenge, and one without; three failures and two. -/
theorem witness_SessionOpening :
    took live 0x0211 sessionOpenForm (dsc 0x0211 0x0F00 0 [(24, 3)]) = true ∧
    took { live with ses := live.ses.set 3 { challenge := some (5, 2 ^ 40) } } 0x0211 sessionOpenForm (dsc 0x0211 0x0F00 0 [(16, 1), (24, 3)]) = true ∧
    3 ≤ ({ fails := 2 } : Ses).fails + 1 ∧ ¬ 3 ≤ ({ fails := 1 } : Ses).fails + 1 := by decide +kernel

/-- PWM and OFF; a channel outside every gang and the leader of one. -/
theorem witness_LchSetEffect :
    took live 0x1000 lchSetForm (dsc 0x1000 0 0 [(24, 2), (26, 0xFFF)]) = true ∧ took live 0x1000 lchSetForm (dsc 0x1000 4 0) = true ∧
    7 ∉ membersOf live 4 ∧ 5 ∈ membersOf live 4 := by decide +kernel

/-- No room above the minima; a channel withdrawn and one not. -/
theorem witness_BudgetGrantsFit :
    let g := grantAll live [1] [0, 1] 0
    (0 : Int) ≤ 0 ∧ (g.any fun x => [1].contains x.1) = true ∧ (g.any fun x => !([1].contains x.1)) = true := by decide +kernel

/-- Up and down, at level 1 and 2, half way. -/
theorem witness_RampStaysBetween : 0 < 1 ∧ rampDuty 1 0 4095 (ms 1) 2 = 2047 ∧ rampDuty 1 4095 0 (ms 1) 2 = 2047 ∧ rampDuty 2 0 4095 (ms 1) 4 = 2047 := by decide +kernel

theorem witness_SharedMemoryFrame : goes (.stgDataWrite 5) live = true ∧ live.host.selfHosted = false ∧ mayWriteSram (.stgDataWrite 5) = false := by decide +kernel

/-- Buffers that end at the end of shared SRAM. -/
theorem witness_BuffersBound :
    live.host.selfHosted = false ∧
    took live 0x0002 placementQueryForm (dsc 0x0002 0x0F00 0 [(16, 0x7FFFE0), (24, 32)]) = true ∧
    took live 0x3800 hwReadForm (dsc 0x3800 0x0942 0 [(16, 0x7FFFC0), (24, 5), (28, 1)]) = true ∧
    took live 0x3C03 perfSnapForm (dsc 0x3C03 0x0F00 0 [(16, 0x7FFDC0)]) = true ∧
    took live 0x3C03 perfSnapForm (dsc 0x3C03 0x0E00 0 [(16, 0x7FFFA0)]) = true := by decide +kernel

theorem witness_QueryAndSilentFrames : isQuery (.lchQuery .diag) = true ∧ goes (.lchQuery .diag) live = true ∧ isSilent (.stgDataWrite 0) = true ∧ goes (.stgDataWrite 0) live = true := by decide +kernel

/-- An ADD that overflows with the trap off, into G4; an ADDI into SP at the stack limit. -/
theorem witness_AluInstructionsComplete :
    (match aluOf (run { eng0 with regs := eng0.regs.set 6 0x7FFFFFFF }) (.add { engine := 0 } 8 6 6) with
      | some f => decide (Fetched (run eng0) f.x f.k ∧ AluFree eng0 f.d f.res ∧ f.res.v = true)
      | none => false) = true ∧
    (match aluOf (run { eng0 with stkS := 0x20001004 }) (.addi { engine := 4 } 3 3 4) with
      | some f => decide (Fetched (run { eng0 with stkS := 0x20001004 }) f.x f.k ∧ AluFree { eng0 with stkS := 0x20001004 } f.d f.res)
      | none => false) = true ∧
    (3 : Fin 16).val / 2 ≠ (0 : Fin 16).val / 2 := by decide +kernel

/-- OV_TRAP with an overflow, DZ_TRAP with a division by 0, a result one word below the stack limit for SP. -/
theorem witness_AluInstructionsTrap :
    (let g := setSw swOvTrap true { eng0 with regs := eng0.regs.set 6 0x7FFFFFFF }
     match aluOf (run g) (.add { engine := 0 } 8 6 6) with
      | some f => decide (Fetched (run g) f.x f.k ∧ f.res.v = true ∧ swBit (eng (run g) 0) swOvTrap = true)
      | none => false) = true ∧
    (let g := setSw swDzTrap true eng0
     match aluOf (run g) (.div { engine := 0 } 8 6 15) with
      | some f => decide (Fetched (run g) f.x f.k ∧ f.res.dz = true ∧ swBit (eng (run g) 0) swDzTrap = true)
      | none => false) = true ∧
    (let g := { eng0 with stkS := 0x20001008 }
     match aluOf (run g) (.addi { engine := 0 } 3 3 4) with
      | some f => decide (Fetched (run g) f.x f.k ∧ f.res.v = false ∧ f.res.dz = false ∧ f.d = 3 ∧ f.res.val.toNat < (stkLim (eng (run g) 0)).toNat)
      | none => false) = true := by decide +kernel

/-- Operands of the division identities and the edges of each clause. -/
theorem witness_Arithmetic :
    ((1 : Word) ≠ 0) ∧ ((0x80000000 : Word) ≠ 0x80000000 ∨ (1 : Word) ≠ 0xFFFFFFFF) ∧ ((0x80000001 : Word) ≠ 0x80000000) ∧ 32 ≤ 63 ∧ 31 < 32 := by decide +kernel

/-- CMP with every condition into G0 and into A; BZ on A, BNZ on G7. -/
theorem witness_ComparisonRule :
    Fetched (run eng0) { engine := 0 } (cmpKind 4 4 5 .ntst) ∧ Fetched (run eng0) { engine := 0 } (cmpiKind 0 4 .eq 0x4000) ∧
    Fetched (run eng0) { engine := 0 } (condKind true 0 1) ∧ Fetched (run eng0) { engine := 0 } (condKind false 11 0x3FFFFF) ∧ isG 4 = true ∧ isG 11 = true ∧ isG 3 = false ∧ isG 12 = false ∧
    (branchTarget (eng (run eng0) 0) (0x3FFFFF : BitVec 22)).toNat % 4 = 0 ∧ rdReg eng0 4 ≠ 0 ∧ rdReg { eng0 with regs := eng0.regs.set 4 0 } 4 = 0 := by decide +kernel

/-- A supervisor stack that ends at the end of local RAM and one with just room for a frame. -/
theorem witness_EntryAndReturn :
    isShadow (run eng0) 0 = false ∧
    (let g := { eng0 with ssp := 0x20010000, stkS := 0x2000FFD0 }
     0x20000000 + 48 ≤ g.ssp.toNat ∧ g.ssp.toNat ≤ 0x20010000 ∧ g.ssp.toNat % 4 = 0 ∧ g.stkS.toNat + 48 ≤ g.ssp.toNat ∧ memWf g.ram = true) ∧
    (let g := { eng0 with ssp := 0x20000030 }
     0x20000000 + 48 ≤ g.ssp.toNat ∧ g.ssp.toNat ≤ 0x20010000 ∧ g.ssp.toNat % 4 = 0 ∧ g.stkS.toNat + 48 ≤ g.ssp.toNat) ∧ (pair (run eng0) 0).held = [] ∧ 11 < 256 ∧ 255 < 256 := by decide +kernel

/-- Level 2 alone with LC 3, and level 0 inside no other with LC 0. -/
theorem witness_LoopRepeats :
    (let g := setLc 2 3 (setLevel 2 true { eng0 with loops := eng0.loops.set 2 { start := 0x104, last := 0x108 } })
     levelOn g 2 = true ∧ (∀ m : Fin 3, 2 < m → levelOn g m = false) ∧ g.loops[(2 : Fin 3)].last = 0x108 ∧ 3 = max 1 (getLc g 2).toNat ∧ 0 < 2 ∧ 2 < 3 ∧
     (∀ m : Fin 3, m < 2 → levelOn g m = true → g.loops[m].last ≠ 0x108)) ∧
    (let g := setLevel 0 true { eng0 with loops := eng0.loops.set 0 { start := 0x104, last := 0x108 } }
     levelOn g 0 = true ∧ (∀ m : Fin 3, 0 < m → levelOn g m = false) ∧ g.loops[(0 : Fin 3)].last = 0x108 ∧ 1 = max 1 (getLc g 0).toNat) := by decide +kernel

/-- An engine in task mode whose first region lets it fetch. -/
def tasked : Eng := setSw swTask true { eng0 with mpu := eng0.mpu.set 0 { base := 0x10F00000, lim := 0x10F00003, attr := 0xF } }

theorem witness_PrivilegedInTaskMode :
    inTask (eng (run tasked) 0) = true ∧ Fetched (run tasked) { engine := 0 } retiKind ∧ Fetched (run tasked) { engine := 0 } waitKind ∧
    (spListed 0x37 = true ∧ (0x37 : BitVec 8) ≠ 0 ∧ Fetched (run tasked) { engine := 0 } (mtsKind 4 0x37)) ∧
    (spListed 0x02 = true ∧ spTask 0x02 = false ∧ Fetched (run tasked) { engine := 0 } (mfsKind 4 0x02)) := by decide +kernel

/-- A misaligned access, one outside the task's regions, one in a hole of the map, and one that nothing bars. -/
theorem witness_AccessTraps :
    (let g := { eng0 with regs := eng0.regs.set 4 0x20000101 }
     Fetched (run g) { engine := 0 } (ldKind 5 4 (.disp 0) .half true) ∧ Fetched (run g) { engine := 0 } (stKind 5 4 (.disp 0) .half) ∧
     modeOk 4 (.disp 0) = true ∧ modeBreaksStack (eng (run g) 0) 4 2 (.disp 0) = false ∧ (modeUpdates (.disp 0) && (5 : RegCode) == 4) = false ∧
     accessTrap (run g) (eng (run g) 0) (modeAddr (eng (run g) 0) 4 2 (.disp 0)).toNat 2 false = some 5 ∧
     accessTrap (run g) (eng (run g) 0) (modeAddr (eng (run g) 0) 4 2 (.disp 0)).toNat 2 true = some 5) ∧
    (0x101 % 2 ≠ 0) ∧ (inTask tasked = true ∧ permits tasked 0x1000 4 rightLoad = false) ∧
    (inTask eng0 = false ∧ areaOf live 0x00800000 = none ∧ areaOf live 0x007FFFFC ≠ none) := by decide +kernel

/-- The last word of local RAM and of shared SRAM, stored by a coupled pair's engine and by a split one's, with its write buffer full, and
loaded. -/
theorem witness_StoresAndLoads :
    (let g := { eng0 with regs := eng0.regs.set 4 0x2000FFFC }
     let a := (modeAddr g 4 4 (.disp 0)).toNat
     Fetched (run g) { engine := 0 } (stKind 5 4 (.disp 0) .word) ∧ modeBreaksStack g 4 4 (.disp 0) = false ∧
     inTask g = false ∧ memWf g.ram = true ∧ memWf (run g).sram = true ∧ a % 4 = 0 ∧ 0x20000000 ≤ a ∧ a < 0x20010000 ∧
     isCoupled (run g) 0 = true ∧ (pair (run g) 0).held = [] ∧ (pair (run g) 0).trail = []) ∧
    (let g := { eng0 with regs := eng0.regs.set 4 0x7FFFFC }
     let a := (modeAddr g 4 4 (.disp 0)).toNat
     let s := { run g with wbufs := live.wbufs.set 4 (List.replicate 4 { addr := 0x7FFFFC, size := 4, value := 9, wait := 0 }) }
     Fetched s { engine := 4 } (stKind 5 4 (.disp 0) .word) ∧ Fetched s { engine := 4 } (ldKind 5 4 (.disp 0) .word false) ∧
     a % 4 = 0 ∧ a < 0x800000 ∧ isCoupled s 4 = false ∧ (∀ w ∈ wbufOf s 4, w.addr < 0x800000) ∧ (Ecc.clean ≠ .uncorrectable) ∧ (5 : RegCode) ≠ 3) ∧
    (let g := { eng0 with regs := eng0.regs.set 4 0 }
     Fetched (run g) { engine := 0 } (stKind 5 4 (.disp 0) .word) ∧ (modeAddr g 4 4 (.disp 0)).toNat < 0x800000) := by decide +kernel

/-! ### Ill-formed commands -/

/-- One ill-formed command for each check of `Instr.wf`, which refuses it. -/
theorem test_wf_refuses :
    ([.registerWrite (.device (2 ^ 32)) [0] [0], .registerWrite (.config 4096) [0] [0], .registerWrite (.device 0) [] [], .registerWrite (.device 0) [0, 0] [0],
      .readClear (2 ^ 32) none, .hostRead (.device (2 ^ 32)) 4, .hostRead (.device 0) 0, .hostRead (.device 0) 4097,
      .frameReceived 0 { ide := false, fd := false, brs := false, rtr := false, esi := false, ident := 2048, dlc := 0, data := [] } 0,
      .frameReceived 0 { ide := true, fd := false, brs := false, rtr := false, esi := false, ident := 2 ^ 29, dlc := 0, data := [] } 0,
      .frameReceived 0 { ide := false, fd := true, brs := false, rtr := false, esi := false, ident := 0, dlc := 16, data := [] } 0,
      .diagnosticRequest 0 { ide := false, fd := false, brs := true, rtr := false, esi := false, ident := 0, dlc := 0, data := [] },
      .diagnosticRequest 0 { ide := false, fd := false, brs := false, rtr := false, esi := true, ident := 0, dlc := 0, data := [] },
      .wakeUpFrame 0 ({ ide := false, fd := true, brs := false, rtr := true, esi := false, ident := 0, dlc := 0, data := [] }, 0),
      .wakeLatch (.network 0 (some ({ ide := false, fd := false, brs := false, rtr := false, esi := false, ident := 0, dlc := 2, data := [0] }, 0))),
      .linRx 0 [] 0, .linRx 0 (List.replicate 9 0) 0, .tokenAnswer (.frame 0 (List.replicate 17 0)), .readCompletion 0 (.data (List.replicate 513 0)), .gwDrop 2048,
      .debounceComplete (.switch 0) (.switch [⟨5, 0, 0⟩, ⟨5, 0, 0⟩]), .debounceComplete (.field 0) (.field [⟨5, 0, 0⟩, ⟨4, 0, 0⟩]), .debounceComplete (.switch 0) (.field []), .ladderInvalid 0 [⟨5, 0, 0⟩, ⟨4, 0, 0⟩], .fioChange 0 [⟨5, 0, 0⟩, ⟨4, 0, 0⟩], .voutAcknowledge (2 ^ 16) 0, .voutAcknowledge 0 (2 ^ 16), .pmAlert (2 ^ 16),
      .digitalDieStart { xtalRuns := true, failedPairs := [], xspi0 := some { mib := 0, eraseLog2 := 12, pageLog2 := 8 }, xspi1 := none, vbat := 0, vcore := 0, counterOk := true },
      .digitalDieStart { xtalRuns := true, failedPairs := [], xspi0 := none, xspi1 := some { mib := 64, eraseLog2 := 8, pageLog2 := 12 }, vbat := 0, vcore := 0, counterOk := true }]
      : List Instr).all (fun c => !c.wf) = true := by decide +kernel

/-- A well-formed command of each kind that is checked. -/
theorem test_wf_accepts :
    ([.registerWrite (.device (2 ^ 32 - 4)) [0, 1] [0xF, 0], .registerWrite (.config 4095) [0] [0], .hostRead (.device 0) 4096, .linRx 0 (List.replicate 8 0) 0, .gwDrop 2047, .heartbeat,
      .frameReceived 0 { ide := true, fd := true, brs := true, rtr := false, esi := true, ident := 2 ^ 29 - 1, dlc := 15, data := List.replicate 64 0 } 0]
      : List Instr).all (fun c => c.wf) = true := by decide +kernel

/-! ### Worked examples of the spec -/

/-- 02, Worked example: credits 5; indices 30 and 31 carry PHASE 0, 32 to 34 PHASE 1; the doorbell write 22 after 12. -/
theorem test_rings_example :
    let r : Ring := { role := true, active := true, idx := 30, db := 20 }
    credits r = 5 ∧ [30, 31, 32, 33, 34].map (phaseBit r) = [0, 0, 1, 1, 1] ∧ [30, 31, 32, 33, 34].map (fun i => entryAddr r i / 32) = [14, 15, 0, 1, 2] := by decide +kernel

/-- 04, halogen headlamp: D_CP at 28, 25 and 23 V, the last one limited; its on-state currents run on two leaves. -/
theorem test_constant_power_example :
    let s := { live with stg := { live.stg with tables := live.stg.tables.set 1 [(560, 19), (562, 200), (572, 0xC0), (573, 0x5D)] } }
    cpDuty s 17 0xFFF 28000 = (3009, false) ∧ cpDuty s 17 0xFFF 25000 = (3774, false) ∧ cpDuty s 17 0xFFF 23000 = (4095, true) ∧
    beyondStep 17 { step := 1 } 2800 = true ∧ beyondStep 17 { step := 2 } 3400 = false := by decide +kernel

/-- 05, cab blower: 0.5 mm² with 105 °C insulation has RTH1 9.5, RTH2 6.0, TAU1 11 s, TAU2 140 s, trips at 105 °C. -/
theorem test_wire_example :
    let w : Wire := { size := 1, bf := 48, ambSrc := 2, ambMax := 70, ins := 1 }
    (tripC w, rth1 w, rth2 w, tau1 w, tau2 w) = (105, 95, 60, 11, 140) ∧
    (let c := wireStep (45 * kel) 144000000 { wire := w, theta1 := 36 * kel / 10, theta2 := 34 * kel / 10, tC := 52 * kel }
     36 * kel / 10 < c.theta1 ∧ 34 * kel / 10 < c.theta2 ∧ c.tC = 45 * kel + (c.theta1 + c.theta2 : Nat)) := by decide +kernel

/-- 11, mirror heating: PID 0x61 and checksum 0x07 of frame 0x21. -/
theorem test_lin_example : pidOf 0x21 = 0x61 ∧ linCks 0x21 true [0x64, 0x32, 0x00, 0x01] = 0x07 := by decide +kernel

/-- 12, body segment: the door controller's frame is the wake-up frame, one with byte 0 clear is not. -/
theorem test_wake_up_frame_example :
    let a : Arm := { deep := false, sw := true, ide := true, ident := 0x1CFF1200, mask := 0x1FFFFF00, dlc := 8, data := 1 }
    let f : CanFrame := { ide := true, fd := false, brs := false, rtr := false, esi := false, ident := 0x1CFF1217, dlc := 8, data := [1, 0, 0, 0, 0, 0, 0, 0] }
    isWuf a f = true ∧ isWuf a { f with data := List.replicate 8 0 } = false ∧ isWuf a { f with ident := 0x1CFF1317 } = false := by decide +kernel

/-- 13, token ring: slots of tokens A and B for seeds 1 and 2. -/
theorem test_token_example : slotOf 0x2C4107D9 1 = 8 ∧ slotOf 0x82135C4E 1 = 8 ∧ slotOf 0x82135C4E 2 = 8 ∧ slotOf 0x2C4107D9 2 = 13 := by decide +kernel

/-- 14, cab blower: the words of the example. -/
theorem test_instruction_words_example :
    [leaKind 2 1 (.disp 0x40), ldKind 5 1 (.disp 0x3F) .byte false, ldKind 7 2 (.indexed 5 1) .half false, ldiKind 4 0, loopiKind 16 2,
     ldKind 6 2 .postInc .half false, binKind 0x00 4 4 6, regKind (wordH 4 4 .shr 4) [4], cmpKind 8 7 4 .ltu].map (·.word) =
      [0x48848040, 0x4144803F, 0x41CA2540, 0x15000000, 0x8C040002, 0x41892000, 0x01118000, 0x1D108004, 0x261D0004] ∧
    [0x48848040, 0x4144803F, 0x41CA2540, 0x15000000, 0x8C040002, 0x41892000, 0x01118000, 0x1D108004, 0x261D0004].all mlzLegal = true := by decide +kernel

/-- 15, PAIR_3: programs 21 and 22 go to E7. -/
theorem test_split_example :
    let p := fun n load => { num := n, engine := 6, split := false, slot := 0, load := load : Prog }
    divide 256 [p 20 60000000, p 21 45000000, p 22 30000000, p 23 25000000] 0 0 = [21, 22] := by decide +kernel

/-- 10, CAN_1: with TDCF 4 the edge at 17 cycles is the measured delay, and with TDCO of 30 it gives SSP 47. -/
theorem test_tdc_example :
    let s := { live with stg := { live.stg with tables := live.stg.tables.set 8 [(48, 15), (60, 30), (61, 4)] } }
    (can (measure 1 0 { ide := true, fd := true, brs := true, rtr := false, esi := false, ident := 0, dlc := 8, data := [] } [3, 17, 90] s) 1).ssp = 47 := by decide +kernel

/-- 17, seat heater: source 97 of LS_2 is LS_SW_OVERTEMP's, own class 1, and its target 0x0209 is one channel. -/
theorem test_fault_example : lsSource 41 1 = 97 ∧ lsSource 41 17 = 113 ∧ lchTarget 41 = 0x0209 ∧ bankOf 41 = 5 := by decide +kernel

/-! ### One step of some families -/

/-- LCH_SET of the first class H channel: the channel runs at the requested duty, and its record waits for nothing. -/
theorem test_lch_set :
    (match Sys2Proof.Machine.execLchSet (.engine 0) (ask (dsc 0x1000 0 0 [(24, 2), (26, 0x800)]) live) with
      | .next t => decide ((lch t 0).mode = 2 ∧ (lch t 0).duty = 0x800 ∧ (lch t 0).run = 2 ∧ t.started = [])
      | _ => false) = true := by decide +kernel

/-- A doorbell write of the consumer index frees the entries up to it. -/
theorem test_doorbell :
    (match Sys2Proof.Machine.execDoorbellWrite 3 35 { live with rings := live.rings.set 3 { role := true, active := true, idx := 35, db := 20 } } with
      | .next t => decide (credits t.rings[(3 : Fin 64)] = 15)
      | _ => false) = true := by decide +kernel

/-- SUB of equal values gives 0 and no borrow; the source that is also the destination is read first. -/
theorem test_sub_same :
    (match Sys2Proof.Machine.execSub { engine := 0 } 6 6 6 (run eng0) with
      | .next t => decide (rdReg (eng t 0) 6 = 0 ∧ swBit (eng t 0) swC = false ∧ (eng t 0).pc = 0x10F00004)
      | _ => false) = true := by decide +kernel

/-- PUSHM of X and G7 stores X at the lower address and G7 above it, below the old SP. -/
theorem test_pushm :
    (match Sys2Proof.Machine.execPushm { engine := 0 } 0x402 (run eng0) with
      | .next t => decide ((eng t 0).ssp = 0x20000FF8 ∧ memLe (eng t 0).ram 0xFF8 4 = 2 ∧ memLe (eng t 0).ram 0xFFC 4 = 12)
      | _ => false) = true := by decide +kernel

/-- A command whose occasion is absent leaves the state as it is (log entry 6, DESIGN CHOICE). -/
theorem test_no_occasion : Sys2Proof.Machine.execCommitTick live = .next live := rfl

/-- The step after reset with nothing waiting counts one tick of RT. -/
theorem test_reset_step : (match step State.reset with | .next t => decide (t.rt = 1 ∧ t.dt = 0 ∧ t.pw.dieOn = false) | _ => false) = true := by decide +kernel

end Sys2Proof.Tests
end

section
/-! SUPPORT. Frames of the model's operations: for each operation the parts of the state that it may change. Each lemma
follows the operation's own text, from its outermost change inward, and cites the frames of the operations it calls. -/

namespace Sys2Proof.Safety

open Sys2Proof.Machine

/-! ### How frames compose -/

section
variable {a may : List Safety.Part} {s t u : State}

/-- The parts of the one list are all in the other. For two lists that are written out it holds by `rfl`. -/
abbrev Within (a may : List Safety.Part) : Prop := a.all may.contains = true

theorem Within.subset (h : Within a may) : a ⊆ may := fun p hp => by simpa using List.all_eq_true.mp h p hp

theorem KeepsBut.refl : KeepsBut may s s := Laws.keeps_refl may s

/-- A frame stays one when more parts are named. -/
theorem KeepsBut.mono (h : KeepsBut a s t) (ha : Within a may) : KeepsBut may s t := Laws.keeps_mono h fun _ hp => ha.subset hp

/-- The later of two changes first, as `g (f s)` is written. -/
theorem KeepsBut.comp (k : KeepsBut may t u) (h : KeepsBut may s t) : KeepsBut may s u := Laws.keeps_trans h k

/-- The same for a later change that names fewer parts. -/
theorem KeepsBut.after (k : KeepsBut a t u) (ha : Within a may) (h : KeepsBut may s t) : KeepsBut may s u := .comp (.mono k ha) h

theorem KeepsBut.ite {c : Prop} [Decidable c] (h : KeepsBut may s t) (k : KeepsBut may s u) : KeepsBut may s (if c then t else u) :=
  Laws.keeps_ite (fun _ => h) fun _ => k

theorem KeepsBut.foldl {α : Type} {f : State → α → State} {l : List α} (h : ∀ s x, KeepsBut may s (f s x)) : KeepsBut may s (l.foldl f s) :=
  Laws.keeps_foldl h l s

theorem KeepsBut.onlyIf {c : Bool} {f : State → State} (h : ∀ s, KeepsBut may s (f s)) : KeepsBut may s (Machine.onlyIf c f s) :=
  Laws.onlyIf_keeps s fun _ => h s

theorem KeepsBut.whenOn {f : State → State} (h : ∀ s, KeepsBut may s (f s)) : KeepsBut may s (Machine.whenOn f s) := .onlyIf h

theorem KeepsBut.whenClocked {f : State → State} (h : ∀ s, KeepsBut may s (f s)) : KeepsBut may s (Machine.whenClocked f s) := .onlyIf h

/-- A change of fields: each part is named, or the same. -/
theorem KeepsBut.of_parts (h : ∀ p, p ∈ may ∨ Same s t p) : KeepsBut may s t := fun p hp => (h p).resolve_left hp

/-- What a meaning answers is framed: every state it goes on to keeps every part but the named ones. -/
def OutKeeps (may : List Safety.Part) (s : State) (o : Out) : Prop := ∀ t, o = .next t → KeepsBut may s t

variable {o : Out}

theorem OutKeeps.next (h : KeepsBut may s t) : OutKeeps may s (.next t) := fun _ e => by
  injection e with e
  exact e ▸ h

theorem OutKeeps.mono (h : OutKeeps a s o) (ha : Within a may) : OutKeeps may s o := fun t e => .mono (h t e) ha

theorem OutKeeps.ite {c : Prop} [Decidable c] {o' : Out} (h : OutKeeps may s o) (k : OutKeeps may s o') : OutKeeps may s (if c then o else o') := by
  split <;> assumption

theorem KeepsBut.runOut {o : Origin} {op : Nat} {form : State → Desc → OpForm} {eff : Desc → Nat → State → State}
    (hr : Within [.records] may) (h : ∀ d uid s, KeepsBut may s (eff d uid s)) : KeepsBut may s (runOp o op form eff s) :=
  Laws.runOp_keeps o op form (hr.subset (List.mem_singleton_self _)) h s

theorem OutKeeps.runOut {o : Origin} {op : Nat} {form : State → Desc → OpForm} {eff : Desc → Nat → State → State}
    (hr : Within [.records] may) (h : ∀ d uid s, KeepsBut may s (eff d uid s)) : OutKeeps may s (Machine.runOut o op form eff s) :=
  fun _ e => Laws.runOut_keeps o op form (hr.subset (List.mem_singleton_self _)) h e

end

/-! ### Computations of an instruction -/

/-- Where a computation of an instruction succeeds, it has kept every part but the named ones. -/
def EngKeeps {α : Type} (may : List Safety.Part) (m : EngM α) : Prop := ∀ c x c', m c = .ok (x, c') → KeepsBut may c.s c'.s

section
variable {a may : List Safety.Part} {α β : Type} {m n : EngM α}

theorem EngKeeps.mono (h : EngKeeps a m) (ha : Within a may) : EngKeeps may m := fun c x c' e => .mono (h c x c' e) ha

/-- It goes on with a state that it gives. -/
theorem EngKeeps.ok {f : Cx → α × Cx} (h : ∀ c, KeepsBut may c.s (f c).2.s) : EngKeeps may fun c => .ok (f c) := fun c x c' e => by
  injection e with e
  simpa only [e] using h c

/-- It stops: no state is reached (R348). -/
theorem EngKeeps.stops {f : Cx → Stop} : EngKeeps (α := α) may fun c => .error (f c) := fun _ _ _ e => by injection e

theorem EngKeeps.pure {x : α} : EngKeeps may (Pure.pure x) := .ok fun _ => .refl

theorem EngKeeps.get : EngKeeps may (MonadState.get : EngM Cx) := .ok fun _ => .refl

theorem EngKeeps.modCx {f : State → State} (h : ∀ s, KeepsBut may s (f s)) : EngKeeps may (Machine.modCx f) := .ok fun c => h c.s

theorem EngKeeps.bind {f : α → EngM β} (h : EngKeeps may m) (k : ∀ x, EngKeeps may (f x)) : EngKeeps may (m >>= f) := by
  intro c y c'' e
  rw [Laws.bind_run] at e
  split at e
  · next x c' hm => exact .comp (k x c' y c'' e) (h c x c' hm)
  · cases e

/-- The computation's state is read, changed and put back. -/
theorem EngKeeps.getSet {f : Cx → Cx} {k : Cx → EngM β} (h : ∀ c, KeepsBut may c.s (f c).s) (hk : ∀ c, EngKeeps may (k c)) :
    EngKeeps may (MonadState.get >>= fun c => set (f c) >>= fun _ => k c) :=
  fun c y c'' e => .comp (hk c (f c) y c'' e) (h c)

theorem EngKeeps.ite {c : Prop} [Decidable c] (h : EngKeeps may m) (k : EngKeeps may n) : EngKeeps may (if c then m else n) := by
  split <;> assumption

end

end Sys2Proof.Safety

namespace Sys2Proof.Frames

open Sys2Proof.Machine Sys2Proof.Safety Sys2Proof.Laws

/-- What an instruction may change beside its own loads: its stores may reach registers, and its shadow follows. -/
abbrev instrParts : List Safety.Part := [.records, .stg, .flt, .pw, .hw, .upd, .eng, .pairs]

/-- What an instruction may change: its loads may read registers that a read clears or latches (R5). -/
abbrev loadParts : List Safety.Part := [.records, .stg, .flt, .pw, .hw, .upd, .ld, .hbs, .vs, .sw, .fs, .ns, .acc, .eng, .pairs]

/-! ### Changes of fields -/

/-- Fields that no part names. -/
theorem unnamed_keeps {free nextHigh nextNormal : Nat} {diagBusy : Bool} {host : HostSt} {perf : PerfSt} {engInts : Vector Nat 16}
    {heldEvents : List (Die × Report)} {s : State} :
    KeepsBut [] s { s with free := free, nextHigh := nextHigh, nextNormal := nextNormal, diagBusy := diagBusy, host := host, perf := perf,
                           engInts := engInts, heldEvents := heldEvents } :=
  .of_parts fun p => by cases p <;> simp [Same]

/-- Rings, descriptors and records on their way, with fields that no part names. -/
theorem recordFields_keeps {sram : Mem} {rings : Vector Ring 64} {nextHigh nextNormal : Nat} {started : List Run} {nextUid : Nat}
    {engPipe : Vector (List Desc) 16} {diagPipe : Option Desc} {diagBusy : Bool} {diagAnswer : Option (List Byte)} {out : List LinkOut}
    {transit : List Inbound} {host : HostSt} {s : State} :
    KeepsBut [.records] s { s with sram := sram, rings := rings, nextHigh := nextHigh, nextNormal := nextNormal, started := started,
                                   nextUid := nextUid, engPipe := engPipe, diagPipe := diagPipe, diagBusy := diagBusy,
                                   diagAnswer := diagAnswer, out := out, transit := transit, host := host } :=
  .of_parts fun p => by cases p <;> simp [Same]

theorem timeField_keeps {dt rt rtPhase : Nat} {s : State} : KeepsBut [.time] s { s with dt := dt, rt := rt, rtPhase := rtPhase } :=
  .of_parts fun p => by cases p <;> simp [Same]

theorem sesField_keeps {ses : Vector Ses 4} {s : State} : KeepsBut [.ses] s { s with ses := ses } :=
  .of_parts fun p => by cases p <;> simp [Same]

theorem mramField_keeps {mram : Mem} {s : State} : KeepsBut [.mram] s { s with mram := mram } :=
  .of_parts fun p => by cases p <;> simp [Same]

theorem hwField_keeps {hw : HeartSt} {s : State} : KeepsBut [.hw] s { s with hw := hw } :=
  .of_parts fun p => by cases p <;> simp [Same]

theorem pwField_keeps {pw : PowerSt} {s : State} : KeepsBut [.pw] s { s with pw := pw } :=
  .of_parts fun p => by cases p <;> simp [Same]

theorem ldField_keeps {ld : LoadSt} {s : State} : KeepsBut [.ld] s { s with ld := ld } :=
  .of_parts fun p => by cases p <;> simp [Same]

theorem hbsField_keeps {hbs : Vector Hb 16} {s : State} : KeepsBut [.hbs] s { s with hbs := hbs } :=
  .of_parts fun p => by cases p <;> simp [Same]

theorem vsField_keeps {vs : VsSt} {s : State} : KeepsBut [.vs] s { s with vs := vs } :=
  .of_parts fun p => by cases p <;> simp [Same]

theorem swField_keeps {sw : SwSt} {s : State} : KeepsBut [.sw] s { s with sw := sw } :=
  .of_parts fun p => by cases p <;> simp [Same]

theorem fsField_keeps {fs : FsSt} {s : State} : KeepsBut [.fs] s { s with fs := fs } :=
  .of_parts fun p => by cases p <;> simp [Same]

theorem nsField_keeps {ns : NsSt} {s : State} : KeepsBut [.ns] s { s with ns := ns } :=
  .of_parts fun p => by cases p <;> simp [Same]

theorem accField_keeps {acc : AccSt} {s : State} : KeepsBut [.acc] s { s with acc := acc } :=
  .of_parts fun p => by cases p <;> simp [Same]

theorem engField_keeps {eng : Vector Eng 16} {wbufs : Vector (List BufStore) 16} {s : State} :
    KeepsBut [.eng] s { s with eng := eng, wbufs := wbufs } :=
  .of_parts fun p => by cases p <;> simp [Same]

theorem pairsField_keeps {pairs : Vector PairSt 8} {s : State} : KeepsBut [.pairs] s { s with pairs := pairs } :=
  .of_parts fun p => by cases p <;> simp [Same]

theorem pkgsField_keeps {pkgs : Vector Slot256 256} {s : State} : KeepsBut [.pkgs] s { s with pkgs := pkgs } :=
  .of_parts fun p => by cases p <;> simp [Same]

theorem keysField_keeps {keys : Vector (Option Nat) 7} {s : State} : KeepsBut [.keys] s { s with keys := keys } :=
  .of_parts fun p => by cases p <;> simp [Same]

theorem linksField_keeps {linkDown safeHere : List Die} {s : State} : KeepsBut [.links] s { s with linkDown := linkDown, safeHere := safeHere } :=
  .of_parts fun p => by cases p <;> simp [Same]

theorem fsLinks_keeps {fs : FsSt} {linkDown safeHere : List Die} {s : State} :
    KeepsBut [.fs, .links] s { s with fs := fs, linkDown := linkDown, safeHere := safeHere } :=
  .of_parts fun p => by cases p <;> simp [Same]

theorem outputs_keeps {ld : LoadSt} {hbs : Vector Hb 16} {vs : VsSt} {fs : FsSt} {linkDown safeHere : List Die} {s : State} :
    KeepsBut [.ld, .hbs, .vs, .fs, .links] s { s with ld := ld, hbs := hbs, vs := vs, fs := fs, linkDown := linkDown, safeHere := safeHere } :=
  .of_parts fun p => by cases p <;> simp [Same]

theorem engPairs_keeps {eng : Vector Eng 16} {wbufs : Vector (List BufStore) 16} {pairs : Vector PairSt 8} {s : State} :
    KeepsBut [.eng, .pairs] s { s with eng := eng, wbufs := wbufs, pairs := pairs } :=
  .of_parts fun p => by cases p <;> simp [Same]

theorem lossFields_keeps {ld : LoadSt} {hbs : Vector Hb 16} {sw : SwSt} {ns : NsSt} {s : State} :
    KeepsBut [.ld, .hbs, .sw, .ns] s { s with ld := ld, hbs := hbs, sw := sw, ns := ns } :=
  .of_parts fun p => by cases p <;> simp [Same]

theorem timePw_keeps {dt rt rtPhase : Nat} {pw : PowerSt} {s : State} :
    KeepsBut [.time, .pw] s { s with dt := dt, rt := rt, rtPhase := rtPhase, pw := pw } :=
  .of_parts fun p => by cases p <;> simp [Same]

theorem fltPw_keeps {flt : FaultSt} {pw : PowerSt} {s : State} : KeepsBut [.flt, .pw] s { s with flt := flt, pw := pw } :=
  .of_parts fun p => by cases p <;> simp [Same]

theorem powerOnFields_keeps {dt rt rtPhase : Nat} {ses : Vector Ses 4} {flt : FaultSt} {pw : PowerSt} {s : State} :
    KeepsBut [.time, .ses, .flt, .pw] s { s with dt := dt, rt := rt, rtPhase := rtPhase, ses := ses, flt := flt, pw := pw } :=
  .of_parts fun p => by cases p <;> simp [Same]

theorem supplyLossFields_keeps {ses : Vector Ses 4} {flt : FaultSt} {pw : PowerSt} {heldEvents : List (Die × Report)} {s : State} :
    KeepsBut [.ses, .flt, .pw] s { s with ses := ses, flt := flt, pw := pw, heldEvents := heldEvents } :=
  .of_parts fun p => by cases p <;> simp [Same]

theorem dieOffFields_keeps {sram : Mem} {rings : Vector Ring 64} {nextHigh nextNormal : Nat} {started : List Run}
    {engPipe : Vector (List Desc) 16} {diagPipe : Option Desc} {diagBusy : Bool} {diagAnswer : Option (List Byte)}
    {transit : List Inbound} {heldEvents : List (Die × Report)} {host : HostSt} {stg : StageSt} {ses : Vector Ses 4} {flt : FaultSt}
    {perf : PerfSt} {engInts : Vector Nat 16} {pw : PowerSt} {hw : HeartSt} {upd : UpdSt} {s : State} :
    KeepsBut [.records, .ses, .stg, .flt, .pw, .hw, .upd] s
      { s with sram := sram, rings := rings, nextHigh := nextHigh, nextNormal := nextNormal, started := started, engPipe := engPipe,
               diagPipe := diagPipe, diagBusy := diagBusy, diagAnswer := diagAnswer, transit := transit, heldEvents := heldEvents,
               host := host, stg := stg, ses := ses, flt := flt, perf := perf, engInts := engInts, pw := pw, hw := hw, upd := upd } :=
  .of_parts fun p => by cases p <;> simp [Same]

/-! ### Ops.lean -/

theorem noteVbat_keeps {v : Nat} {s : State} : KeepsBut [.pw] s (noteVbat v s) := modPw_keeps _ _

theorem aerReport_keeps {bit : Nat} {o : LinkOut} {s : State} : KeepsBut [.records] s (aerReport bit o s) :=
  .after (toHost_keeps _ _) rfl <| .mono unnamed_keeps rfl

theorem hostAccess_keeps {addr n : Nat} {s : State} : KeepsBut [] s (hostAccess addr n s) := .ite .refl <| fabAccess_keeps _ _ _ _ _

theorem hwPutAt_keeps {type : Nat} {payload : List Byte} {reports : List Report} {s : State} {session : Option Nat} {injected : Bool}
    {stamp : Option (Nat × Bool)} :
    KeepsBut [.hw] s (hwPut type payload reports s session injected stamp) := hwField_keeps

theorem retireTurns_keeps {s : State} : KeepsBut [.records] s (retireTurns s) := .foldl fun _ _ => .ite .refl <| retireUnknown_keeps _ _ _

/-! ### Switch.lean -/

theorem modSw_keeps {f : SwSt → SwSt} {s : State} : KeepsBut [.sw] s (modSw f s) := swField_keeps

theorem setSwi_keeps {n : Nat} {f : Swi → Swi} {s : State} : KeepsBut [.sw] s (setSwi n f s) := swField_keeps

theorem cleanDone_keeps {n : Nat} {s : State} : KeepsBut [.records, .sw] s (cleanDone n s) := by
  unfold cleanDone
  dsimp only
  split
  · exact .after (finish_keeps _ _ _ _) rfl <| .mono setSwi_keeps rfl
  · exact .refl

theorem startClean_keeps {n : Nat} {uid : Option Nat} {s : State} : KeepsBut [.records, .sw] s (startClean n uid s) :=
  .after setSwi_keeps rfl cleanDone_keeps

theorem serveClean_keeps {s : State} : KeepsBut [.records, .sw] s (serveClean s) :=
  .ite .refl <| by
    split
    · exact startClean_keeps
    · exact .refl

theorem endClean_keeps {n : Nat} {s : State} : KeepsBut [.records, .sw] s (endClean n s) :=
  .ite .refl <| .after serveClean_keeps rfl <| .after setSwi_keeps rfl cleanDone_keeps

theorem execCleaningPulseEnd_keeps {n : Fin 48} {s : State} : OutKeeps [.records, .sw] s (execCleaningPulseEnd n s) :=
  .next <|
  .whenOn fun _ => by
      split
      · exact .ite endClean_keeps .refl
      · exact .refl

theorem swiReport_keeps {n t : Nat} {parked : Bool} {s : State} : KeepsBut [.records, .sw] s (swiReport n t parked s) :=
  .after (emitOnAt_keeps _ _ _ _ _ _ _ _ _) rfl <| .mono setSwi_keeps rfl

theorem swiSettle_keeps {n now : Nat} {s : State} : KeepsBut [.records, .sw] s (swiSettle n now s) := by
  unfold swiSettle
  dsimp only
  split
  · exact .refl
  · exact .ite .refl <|
      .comp (.ite (.ite (.ite startClean_keeps <| .mono setSwi_keeps rfl) .refl) <| .after endClean_keeps rfl <| .mono setSwi_keeps rfl) <|
      .after setSwi_keeps rfl <| .comp (.ite swiReport_keeps .refl) <| .mono setSwi_keeps rfl

theorem readSwitch_keeps {n : Nat} {x : SwiReading} {s : State} : KeepsBut [.records, .sw] s (readSwitch n x s) :=
  .ite .refl <| .after setSwi_keeps rfl swiSettle_keeps

theorem execSwiStuck_keeps {n : Fin 48} {s : State} : OutKeeps [.records, .flt, .sw] s (execSwiStuck n s) :=
  .next <| .whenOn fun _ => .ite (.after (raise_keeps _ _ _) rfl <| .after (emitOn_keeps _ _ _ _ _ _ _) rfl <| .mono setSwi_keeps rfl) .refl

theorem ladderJudge_keeps {n : Nat} {s : State} : KeepsBut [.flt, .sw] s (ladderJudge n s) :=
  .ite (.after (raise_keeps _ _ _) rfl <| .mono setSwi_keeps rfl) .refl

theorem execIsSupplyLow_keeps {vbat : Nat} {s : State} : OutKeeps [.flt, .pw, .sw] s (execIsSupplyLow vbat s) :=
  .next <| .whenOn fun _ => .onlyIf fun _ => .after (raise_keeps _ _ _) rfl <| .after modSw_keeps rfl <| .mono noteVbat_keeps rfl

theorem execIsSupplyReturn_keeps {m : HeldV} {s : State} : OutKeeps [.pw, .sw] s (execIsSupplyReturn m s) :=
  .next <| .whenOn fun _ => .onlyIf fun _ => .after modSw_keeps rfl <| .mono noteVbat_keeps rfl

theorem execWetThermal_keeps {t : Int} {s : State} : OutKeeps [.records, .flt, .sw] s (execWetThermal t s) :=
  .next <|
  .whenOn fun _ =>
    .ite (.after (raise_keeps _ _ _) rfl <| .comp (.foldl fun _ _ => .mono endClean_keeps rfl) <| .mono modSw_keeps rfl) <|
    .ite (.comp (.foldl fun _ _ => .mono serveClean_keeps rfl) <| .mono modSw_keeps rfl) .refl

theorem execSwiQuery_keeps {o : Origin} {s : State} : OutKeeps [.records] s (execSwiQuery o s) :=
  .runOut rfl fun _ _ _ => finish_keeps _ _ _ _

theorem execSwiSnapshot_keeps {o : Origin} {s : State} : OutKeeps [.records] s (execSwiSnapshot o s) :=
  .runOut rfl fun _ _ _ => finish_keeps _ _ _ _

theorem execSwiClean_keeps {o : Origin} {s : State} : OutKeeps [.records, .sw] s (execSwiClean o s) :=
  .runOut rfl fun _ _ _ => startClean_keeps

theorem armPolls_keeps {deep : Bool} {s : State} : KeepsBut [.sw] s (armPolls deep s) := modSw_keeps

theorem execPoll_keeps {g : Fin 8} {m : PollReading} {s : State} : OutKeeps [.sw] s (execPoll g m s) :=
  .next <| by
    split
    · exact .refl
    · exact .ite modSw_keeps .refl

theorem pollLatch_keeps {g : Fin 8} {i : Nat} {s : State} : KeepsBut [.sw] s (pollLatch g i s) := by
  unfold pollLatch
  split
  · exact .after setSwi_keeps rfl modSw_keeps
  · exact .refl

theorem swDieOff_keeps {park : Bool} {s : State} : KeepsBut [.sw] s (swDieOff park s) := modSw_keeps

theorem swLinkLost_keeps {s : State} : KeepsBut [.sw] s (swLinkLost s) := modSw_keeps

theorem dropClean_keeps {n : Nat} {s : State} : KeepsBut [.records, .sw] s (dropClean n s) := by
  unfold dropClean
  split
  · exact .after (finishFree_keeps _ _ _) rfl <| .after endClean_keeps rfl <| .mono setSwi_keeps rfl
  · exact endClean_keeps

theorem swCommit_keeps {first : Bool} {old new : Mem} {s : State} : KeepsBut [.records, .sw] s (swCommit first old new s) :=
  .comp (.foldl fun _ _ => .ite (.ite .refl <| .mono setSwi_keeps rfl) <| .after dropClean_keeps rfl <| .mono setSwi_keeps rfl) <|
  .mono modSw_keeps rfl

/-! ### Field.lean -/

theorem modFs_keeps {f : FsSt → FsSt} {s : State} : KeepsBut [.fs] s (modFs f s) := fsField_keeps

theorem setFio_keeps {n : Nat} {f : Fio → Fio} {s : State} : KeepsBut [.fs] s (setFio n f s) := fsField_keeps

theorem fsRaise_keeps {src target : Nat} {s : State} : KeepsBut [.flt] s (fsRaise src target s) :=
  .ite (raise_keeps _ _ _) <| modFlt_keeps _ _

theorem fsEventAt_keeps {ring code target d1 d2 time : Nat} {s : State} : KeepsBut [.records] s (fsEventAt ring code target d1 d2 time s) :=
  .ite (emitOnAt_keeps _ _ _ _ _ _ _ _ _) <| .mono unnamed_keeps rfl

theorem fioEvent_keeps {n code d1 d2 : Nat} {s : State} : KeepsBut [.records] s (fioEvent n code d1 d2 s) := fsEventAt_keeps

theorem fsEvent_keeps {code d1 d2 : Nat} {s : State} : KeepsBut [.records] s (fsEvent code d1 d2 s) := fsEventAt_keeps

theorem applyFio_keeps {n : Nat} {s : State} : KeepsBut [.fs] s (applyFio n s) := .ite .refl setFio_keeps

theorem applyFios_keeps {s : State} : KeepsBut [.fs] s (applyFios s) := .foldl fun _ _ => applyFio_keeps

theorem fioEnter_keeps {n : Nat} {s : State} : KeepsBut [.fs] s (fioEnter n s) := .after applyFio_keeps rfl setFio_keeps

theorem fioSafe_keeps {n : Nat} {s : State} : KeepsBut [.fs] s (fioSafe n s) := .ite (.after fioEnter_keeps rfl setFio_keeps) .refl

theorem fioUnsafe_keeps {n : Nat} {s : State} : KeepsBut [.fs] s (fioUnsafe n s) :=
  .comp (.ite .refl <| .after applyFio_keeps rfl setFio_keeps) setFio_keeps

theorem noteFioCur_keeps {n i : Nat} {s : State} : KeepsBut [.fs] s (noteFioCur n i s) := setFio_keeps

theorem noteFl_keeps {v : Nat} {s : State} : KeepsBut [.fs] s (noteFl v s) := modFs_keeps

theorem execFioSet_keeps {o : Origin} {rb : Bool} {s : State} : OutKeeps [.records, .fs] s (execFioSet o rb s) :=
  .runOut rfl fun _ _ _ => .after (finish_keeps _ _ _ _) rfl <| .after applyFio_keeps rfl <| .mono setFio_keeps rfl

theorem execFioQuery_keeps {o : Origin} {rb : Bool} {i : Nat} {s : State} : OutKeeps [.records, .fs] s (execFioQuery o rb i s) :=
  .runOut rfl fun _ _ _ => .after (finish_keeps _ _ _ _) rfl <| .after noteFioCur_keeps rfl <| .mono setFio_keeps rfl

theorem execFioSnapshot_keeps {o : Origin} {s : State} : OutKeeps [.records] s (execFioSnapshot o s) :=
  .runOut rfl fun _ _ _ => finish_keeps _ _ _ _

theorem execFioClear_keeps {o : Origin} {s : State} : OutKeeps [.records, .fs] s (execFioClear o s) :=
  .runOut rfl fun _ _ _ => .after (finish_keeps _ _ _ _) rfl <| .after applyFio_keeps rfl <| .mono setFio_keeps rfl

theorem execFsQuery_keeps {o : Origin} {v gap : Nat} {s : State} : OutKeeps [.records, .fs] s (execFsQuery o v gap s) :=
  .runOut rfl fun _ _ _ => .after (finish_keeps _ _ _ _) rfl <| .after modFs_keeps rfl <| .mono noteFl_keeps rfl

theorem fsUnpowered_keeps {s : State} : KeepsBut [.fs, .links] s (fsUnpowered s) :=
  .after (fsLinks_keeps) rfl <| .after applyFios_keeps rfl <| .mono modFs_keeps rfl

theorem supplyCond_keeps {k v : Nat} {s : State} : KeepsBut [.records, .flt, .fs] s (supplyCond k v s) :=
  .after fsRaise_keeps rfl <| .after fsEvent_keeps rfl <| .after applyFios_keeps rfl <| .after modFs_keeps rfl <| .mono noteFl_keeps rfl

theorem execFsSupplyLow_keeps {x : HeldV} {s : State} : OutKeeps [.records, .flt, .fs, .links] s (execFsSupplyLow x s) :=
  .next <| .onlyIf fun _ => .comp (.ite (.mono fsUnpowered_keeps rfl) .refl) <| .ite (.mono noteFl_keeps rfl) <| .mono supplyCond_keeps rfl

theorem execFsSupplyHigh_keeps {x : HeldV} {s : State} : OutKeeps [.records, .flt, .fs] s (execFsSupplyHigh x s) :=
  .next <| .onlyIf fun _ => supplyCond_keeps

theorem execFsSupplyNormal_keeps {x : HeldV} {s : State} : OutKeeps [.records, .fs] s (execFsSupplyNormal x s) :=
  .next <| .onlyIf fun _ => .after fsEvent_keeps rfl <| .after applyFios_keeps rfl <| .after modFs_keeps rfl <| .mono noteFl_keeps rfl

theorem barrierLost_keeps {v : Nat} {s : State} : KeepsBut [.flt, .fs, .links] s (barrierLost v s) :=
  .ite .refl <|
  .ite (.after fsRaise_keeps rfl <| .after modFs_keeps rfl <| .mono noteFl_keeps rfl) <|
  .after fsUnpowered_keeps rfl <| .mono noteFl_keeps rfl

theorem barrierBack_keeps {s : State} : KeepsBut [.fs] s (barrierBack s) := modFs_keeps

theorem fsStart_keeps {s : State} : KeepsBut [.fs] s (fsStart s) := .after applyFios_keeps rfl <| .after modFs_keeps rfl barrierBack_keeps

theorem execBarrierPowerFail_keeps {v : Nat} {s : State} : OutKeeps [.flt, .fs, .links] s (execBarrierPowerFail v s) :=
  .next barrierLost_keeps

theorem execBarrierPowerReturn_keeps {s : State} : OutKeeps [.fs] s (execBarrierPowerReturn s) :=
  .next <| .whenClocked fun _ => barrierBack_keeps

theorem fioChange_keeps {n : Nat} {level initial stamped : Bool} {bounces i time : Nat} {s : State} :
    KeepsBut [.records] s (fioChange n level initial stamped bounces i time s) := fsEventAt_keeps

theorem edgeIn_keeps {e : Edge} {s : State} : KeepsBut [.flt, .fs] s (edgeIn e s) :=
  .ite (.mono modFs_keeps rfl) <| .comp (.ite (.mono fsRaise_keeps rfl) .refl) <| .mono modFs_keeps rfl

theorem fioSettle_keeps {n now : Nat} {s : State} : KeepsBut [.records, .flt, .fs] s (fioSettle n now s) := by
  unfold fioSettle
  dsimp only
  split
  · exact .refl
  · exact .ite .refl <| .comp (.ite (.mono edgeIn_keeps rfl) <| .ite (.mono fioChange_keeps rfl) .refl) <| .mono setFio_keeps rfl

theorem readField_keeps {n : Nat} {x : FioReading} {s : State} : KeepsBut [.records, .flt, .fs] s (readField n x s) :=
  .ite .refl <| .after noteFioCur_keeps rfl <| .after setFio_keeps rfl fioSettle_keeps

theorem fioTrace_keeps {n : Nat} {l : List FioReading} {s : State} : KeepsBut [.records, .flt, .fs] s (fioTrace n l s) :=
  .after fioSettle_keeps rfl <| .foldl fun _ _ => readField_keeps

theorem debounceField_keeps {n : Fin 32} {l : List FioReading} {s : State} : KeepsBut [.records, .flt, .fs] s (debounceField n l s) :=
  .ite .refl fioTrace_keeps

theorem execFioWire_keeps {n : Fin 32} {i since : Nat} {s : State} : OutKeeps [.records, .flt, .fs] s (execFioWire n i since s) :=
  .next <|
  .onlyIf fun _ =>
    .comp (.ite (.after fsRaise_keeps rfl <| .after fioEvent_keeps rfl <| .mono setFio_keeps rfl) <|
      .ite (.after fioEvent_keeps rfl <| .mono setFio_keeps rfl) .refl) <|
    .mono noteFioCur_keeps rfl

theorem execFioChange_keeps {n : Fin 32} {l : List FioReading} {s : State} : OutKeeps [.records, .flt, .fs] s (execFioChange n l s) :=
  .next <| .onlyIf fun _ => fioTrace_keeps

theorem execEdgeQueueDelivery_keeps {s : State} : OutKeeps [.records, .fs] s (execEdgeQueueDelivery s) :=
  .next <|
  .onlyIf fun _ => by
      split
      · exact .refl
      · exact .comp (.ite (.after fsEvent_keeps rfl <| .mono modFs_keeps rfl) .refl) <| .after fioChange_keeps rfl <| .mono modFs_keeps rfl

theorem execFioProt_keeps {n : Fin 32} {hot : Bool} {i since : Nat} {s : State} :
    OutKeeps [.records, .flt, .fs] s (execFioProt n hot i since s) :=
  .next <|
  .onlyIf fun _ =>
    .comp (.ite (.mono fsRaise_keeps rfl) .refl) <|
    .after fsRaise_keeps rfl <|
    .after fioEvent_keeps rfl <| .after applyFio_keeps rfl <| .after setFio_keeps rfl <| .mono noteFioCur_keeps rfl

theorem execFioRestart_keeps {n : Fin 32} {t : Int} {s : State} : OutKeeps [.fs] s (execFioRestart n t s) :=
  .next <| by
    split
    · exact .onlyIf fun _ => .after applyFio_keeps rfl setFio_keeps
    · exact .refl

theorem execFioCountReset_keeps {n : Fin 32} {s : State} : OutKeeps [.fs] s (execFioCountReset n s) := .next <| .onlyIf fun _ => setFio_keeps

theorem execFioDiag_keeps {n : Fin 32} {x : FioFinding} {i since : Nat} {s : State} :
    OutKeeps [.records, .flt, .fs] s (execFioDiag n x i since s) :=
  .next <|
  .onlyIf fun _ =>
    .ite .refl <|
    .comp (.ite .refl <| .mono fsRaise_keeps rfl) <|
    .comp (.ite .refl <| .mono fioEvent_keeps rfl) <| .after noteFioCur_keeps rfl <| .mono setFio_keeps rfl

theorem execSilenceTimeout_keeps {gap : Nat} {s : State} : OutKeeps [.fs] s (execSilenceTimeout gap s) :=
  .next <| by
    split
    · exact .onlyIf fun _ => .comp (.foldl fun _ _ => fioEnter_keeps) modFs_keeps
    · exact .refl

theorem execFsSilence_keeps {len last : Nat} {s : State} : OutKeeps [.records, .flt, .fs] s (execFsSilence len last s) :=
  .next <| .onlyIf fun _ => .after (raise_keeps _ _ _) rfl <| .after fsEvent_keeps rfl <| .mono modFs_keeps rfl

theorem fsLinkBack_keeps {s : State} : KeepsBut [.fs] s (fsLinkBack s) := .foldl fun _ _ => .ite fioSafe_keeps <| .ite fioUnsafe_keeps .refl

theorem fsSafeEntries_keeps {s : State} : KeepsBut [.fs] s (fsSafeEntries s) := .after applyFios_keeps rfl modFs_keeps

theorem fsCommit_keeps {first : Bool} {old new safe : Mem} {s : State} : KeepsBut [.fs] s (fsCommit first old new safe s) :=
  .after applyFios_keeps rfl modFs_keeps

theorem fsPark_keeps {s : State} : KeepsBut [.fs] s (fsPark s) := by
  unfold fsPark
  exact .after modFs_keeps rfl <| .after applyFios_keeps rfl modFs_keeps

/-! ### Rings.lean -/

theorem publishIdx_keeps {n : Fin 64} {s : State} : KeepsBut [.records] s (publishIdx n s) := .ite .refl <| ringWrite_keeps _ _ _ _

theorem stallDrop_keeps {n : Fin 64} {s : State} : KeepsBut [.records] s (stallDrop n s) := by
  unfold stallDrop
  dsimp only
  split
  · exact .refl
  · exact .after (setRing_keeps _ _ _) rfl <| .after (putRecord_keeps _ _ _ _) rfl <| .after publishIdx_keeps rfl <| setRing_keeps _ _ _

theorem stallDropsInto_keeps (c : Fin 64) : ∀ (k : Nat) (l : List (Fin 64)) (s : State), KeepsBut [.records] s (stallDropsInto c k l s)
  | 0, [], _ => .refl
  | 0, _ :: _, _ => .refl
  | _ + 1, [], _ => .refl
  | k + 1, _ :: ns, _ => .ite (.after (stallDropsInto_keeps c k ns _) rfl <| stallDrop_keeps) <| stallDropsInto_keeps c (k + 1) ns _

theorem doorbellWrite_keeps {n : Fin 64} {v : Nat} {s : State} : KeepsBut [.records, .flt] s (doorbellWrite n v s) :=
  .ite (.after (raise_keeps _ _ _) rfl <| .mono (setRing_keeps _ _ _) rfl) <|
  .ite .refl <|
  .after (watchStalls_keeps _) rfl <|
  .comp (.ite (.after (flushDrops_keeps _ _) rfl <| .mono (stallDropsInto_keeps _ _ _ _) rfl) .refl) <| .mono (setRing_keeps _ _ _) rfl

theorem startRing_keeps {n : Fin 64} {s : State} : KeepsBut [.records, .flt] s (startRing n s) :=
  .ite (.after (watchStalls_keeps _) rfl <| .mono (setRing_keeps _ _ _) rfl) <|
  .after (raise_keeps _ _ _) rfl <| .mono (setRing_keeps _ _ _) rfl

theorem holdData_keeps {at' : List Nat} {s : State} : KeepsBut [] s (holdData at' s) := unnamed_keeps

theorem dropBlock_keeps {o : Origin} {s : State} : KeepsBut [] s (dropBlock o s) := .after holdData_keeps rfl unnamed_keeps

theorem cancelPipe_keeps (n : Fin 64) : ∀ (k : Nat) (s : State), KeepsBut [.records] s (cancelPipe n k s)
  | 0, _ => .refl
  | k + 1, s => by
    unfold cancelPipe
    split
    · exact .after (cancelPipe_keeps n k _) rfl <|
        .after (finishFree_keeps _ _ _) rfl <| .after (startRun_keeps _ _) rfl <| .after (popHead_keeps _ _) rfl <| .mono dropBlock_keeps rfl
    · exact .refl

theorem stopRing_keeps {n : Fin 64} {s : State} : KeepsBut [.records] s (stopRing n s) :=
  .ite .refl <|
  .ite (.ite (setRing_keeps _ _ _) <| setRing_keeps _ _ _) <| .ite .refl <| .after (cancelPipe_keeps _ _ _) rfl <| setRing_keeps _ _ _

theorem ringCfgWrite_keeps {n : Fin 64} {v : Nat} {s : State} : KeepsBut [.records, .flt] s (ringCfgWrite n v s) :=
  .ite (.mono (setRing_keeps _ _ _) rfl) <|
  .ite (.ite (.mono stopRing_keeps rfl) <| .mono (setRing_keeps _ _ _) rfl) <|
  .comp (.ite startRing_keeps .refl) <| .mono (setRing_keeps _ _ _) rfl

theorem ringSetup_keeps {n : Fin 64} {f : Machine.Ring → Machine.Ring} {s : State} : KeepsBut [.records] s (ringSetup n f s) :=
  .ite (setRing_keeps _ _ _) <| setRing_keeps _ _ _

theorem ringSetupWrite_keeps {n : Fin 64} {g : RingReg} {v : Nat} {s : State} : KeepsBut [.records, .flt] s (ringSetupWrite n g v s) := by
  unfold ringSetupWrite
  split
  · exact .mono ringSetup_keeps rfl
  · exact .mono ringSetup_keeps rfl
  · exact .mono ringSetup_keeps rfl
  · exact .mono ringSetup_keeps rfl
  · exact .mono ringSetup_keeps rfl
  · exact ringCfgWrite_keeps

theorem sendRead_keeps {t : Fin 128} {rd : Reader} {addr bytes : Nat} {s : State} : KeepsBut [.records] s (sendRead t rd addr bytes s) :=
  recordFields_keeps

theorem fetchFrom_keeps {n : Fin 64} {k : Nat} {s : State} : KeepsBut [.records] s (fetchFrom n k s) :=
  .after (watchStalls_keeps _) rfl <|
  .comp (.ite (.after (retireUnknown_keeps _ _ _) rfl <| .after (fabAccess_keeps _ _ _ _ _) rfl <| setRing_keeps _ _ _) <| by
      split
      · exact .refl
      · exact .after sendRead_keeps rfl <| setRing_keeps _ _ _) <|
  .after publishIdx_keeps rfl <| .after (setRing_keeps _ _ _) rfl recordFields_keeps

theorem fetchNext_keeps {s : State} : KeepsBut [.records] s (fetchNext s) :=
  .ite .refl <| by
    split
    · exact .after fetchFrom_keeps rfl <| .mono unnamed_keeps rfl
    · split
      · exact .after fetchFrom_keeps rfl <| .mono unnamed_keeps rfl
      · exact .refl

theorem deliverFetch_keeps {n : Fin 64} {first k : Nat} {bytes : List Byte} {s : State} :
    KeepsBut [.records] s (deliverFetch n first k bytes s) :=
  .comp (.ite (cancelPipe_keeps _ _ _) <| retireUnknown_keeps _ _ _) <| setRing_keeps _ _ _

theorem failFetch_keeps {n : Fin 64} {first k : Nat} {s : State} : KeepsBut [.records] s (failFetch n first k s) :=
  .comp (by
      unfold failFetch
      dsimp only
      split
      · exact .refl
      · exact .comp (.ite (cancelPipe_keeps _ _ _) <| retireUnknown_keeps _ _ _) <|
          .after (watchStalls_keeps _) rfl <|
          .after (flushDrops_keeps _ _) rfl <| .after (putRecord_keeps _ _ _ _) rfl <| setRing_keeps _ _ _) <|
  setRing_keeps _ _ _

theorem execDoorbellWrite_keeps {n : Fin 64} {v : Word} {s : State} : OutKeeps [.records, .flt] s (execDoorbellWrite n v s) :=
  .next <| .whenOn fun _ => .after doorbellWrite_keeps rfl <| .mono hostAccess_keeps rfl

theorem execRingStart_keeps {n : Fin 64} {v : Word} {s : State} : OutKeeps [.records, .flt] s (execRingStart n v s) :=
  .next <| .whenOn fun _ => .onlyIf fun _ => .after ringCfgWrite_keeps rfl <| .mono hostAccess_keeps rfl

theorem execRingStop_keeps {n : Fin 64} {v : Word} {s : State} : OutKeeps [.records, .flt] s (execRingStop n v s) :=
  .next <| .whenOn fun _ => .onlyIf fun _ => .after ringCfgWrite_keeps rfl <| .mono hostAccess_keeps rfl

theorem execRingStopped_keeps {n : Fin 64} {s : State} : OutKeeps [.records] s (execRingStopped n s) :=
  .next <| .onlyIf fun _ => setRing_keeps _ _ _

theorem execRingSetupWrite_keeps {n : Fin 64} {r : RingReg} {v : Word} {s : State} :
    OutKeeps [.records, .flt] s (execRingSetupWrite n r v s) :=
  .next <| .whenOn fun _ => .after ringSetupWrite_keeps rfl <| .mono hostAccess_keeps rfl

theorem execDescriptorFetch_keeps {s : State} : OutKeeps [.records] s (execDescriptorFetch s) := .next <| .whenOn fun _ => fetchNext_keeps

theorem execIrqTimerExpiry_keeps {n : Fin 64} {s : State} : OutKeeps [.records] s (execIrqTimerExpiry n s) :=
  .next <| .onlyIf fun _ => signalRing_keeps _ _

theorem execStallTimeout_keeps {n : Fin 64} {s : State} : OutKeeps [.records] s (execStallTimeout n s) :=
  .next <| .onlyIf fun _ => .ite (setRing_keeps _ _ _) stallDrop_keeps

theorem execNop_keeps {o : Origin} {s : State} : OutKeeps [.records] s (execNop o s) :=
  .runOut rfl fun _ _ _ => finish_keeps _ _ _ _

theorem execEcho_keeps {o : Origin} {s : State} : OutKeeps [.records] s (execEcho o s) :=
  .runOut rfl fun _ _ _ => finish_keeps _ _ _ _

theorem execPlacementQuery_keeps {o : Origin} {s : State} : OutKeeps [.records] s (execPlacementQuery o s) :=
  .runOut rfl fun _ _ _ => .ite (finishFree_keeps _ _ _) <| .after (finish_keeps _ _ _ _) rfl <| toBuffer_keeps _ _ _ _

/-! ### HostBridge.lean -/

theorem reportReadFail_keeps {t : Nat} {rd : Reader} {addr bytes : Nat} {why : ReadFail} {s : State} :
    KeepsBut [.records] s (reportReadFail t rd addr bytes why s) := .after (sendVector_keeps _ _) rfl <| emit_keeps _ _ _ _ _ _

theorem setTag_keeps {t : Fin 128} {x : TagSt} {s : State} : KeepsBut [] s (setTag t x s) := unnamed_keeps

theorem firstTimeout_keeps {s : State} : KeepsBut [.flt] s (firstTimeout s) :=
  .ite .refl <| .after (raise_keeps _ _ _) rfl <| .mono unnamed_keeps rfl

theorem modBlock_keeps {id : Nat} {f : BlockRead → BlockRead} {s : State} : KeepsBut [] s (modBlock id f s) := unnamed_keeps

theorem deliverBlock_keeps {id off : Nat} {bs : List Byte} {s : State} : KeepsBut [] s (deliverBlock id off bs s) :=
  .ite modBlock_keeps holdData_keeps

theorem blockBytes_keeps {o : Origin} {host : Bool} {addr len : Nat} {s : State} : KeepsBut [] s (blockBytes o host addr len s).2 := by
  unfold blockBytes
  split
  · exact .refl
  · split
    · exact fabAccess_keeps _ _ _ _ _
    · split
      · split
        · exact dropBlock_keeps
        · exact unnamed_keeps
      · exact .refl

theorem setLines_keeps {e : Nat} {l : List Line} {s : State} : KeepsBut [] s (setLines e l s) := unnamed_keeps

theorem countUnused_keeps {l : Line} {s : State} : KeepsBut [.flt] s (countUnused l s) :=
  .ite .refl <| .after unnamed_keeps rfl <| .ite .refl <| .after (raise_keeps _ _ _) rfl <| .mono unnamed_keeps rfl

theorem addLine_keeps {e addr : Nat} {bs : List Byte} {s : State} : KeepsBut [.flt] s (addLine e addr bs s) :=
  .after setLines_keeps rfl <|
  .ite
    (by
       split
       · exact countUnused_keeps
       · exact .refl) <|
  .refl

theorem setAsked_keeps {e : Nat} {l : List WinRead} {s : State} : KeepsBut [] s (setAsked e l s) := unnamed_keeps

theorem dropAsked_keeps {e keep : Nat} {s : State} : KeepsBut [] s (dropAsked e keep s) := .after holdData_keeps rfl setAsked_keeps

theorem deliverLoad_keeps {e id addr : Nat} {line : Bool} {bs : List Byte} {s : State} :
    KeepsBut [.flt] s (deliverLoad e id addr line bs s) :=
  .ite (.after addLine_keeps rfl <| .mono setAsked_keeps rfl) <| .ite (.mono setAsked_keeps rfl) <| .mono holdData_keeps rfl

theorem unconfirmed_keeps {e cause addr : Nat} {s : State} : KeepsBut [.records, .flt] s (unconfirmed e cause addr s) :=
  .after (raise_keeps _ _ _) rfl <| .mono (emit_keeps _ _ _ _ _ _) rfl

theorem sendConfirm_keeps {t : Fin 128} {e addr : Nat} {s : State} : KeepsBut [.records] s (sendConfirm t e addr s) := recordFields_keeps

theorem sendConfirms_keeps : ∀ (n : Nat) (s : State), KeepsBut [.records] s (sendConfirms n s)
  | 0, _ => .refl
  | n + 1, s => by
    unfold sendConfirms
    split
    · exact .ite (.after (sendConfirms_keeps n _) rfl <| .after sendConfirm_keeps rfl <| .mono unnamed_keeps rfl) <| .refl
    · exact .refl

theorem serveConfirms_keeps {s : State} : KeepsBut [.records] s (serveConfirms s) := sendConfirms_keeps _ _

theorem requesterFails_keeps {rd : Reader} {addr : Nat} {why : ReadFail} {s : State} :
    KeepsBut [.records, .flt] s (requesterFails rd addr why s) := by
  unfold requesterFails
  split
  · split
    · exact .mono failFetch_keeps rfl
    · exact .refl
  · exact .mono modBlock_keeps rfl
  · exact .mono setAsked_keeps rfl
  · exact .mono setAsked_keeps rfl
  · exact unconfirmed_keeps

theorem readFails_keeps {t : Nat} {rd : Reader} {addr bytes : Nat} {why : ReadFail} {s : State} :
    KeepsBut [.records, .flt] s (readFails t rd addr bytes why s) := .after requesterFails_keeps rfl <| .mono reportReadFail_keeps rfl

theorem deliver_keeps {rd : Reader} {addr : Nat} {bs : List Byte} {s : State} : KeepsBut [.records, .flt] s (deliver rd addr bs s) := by
  unfold deliver
  split
  · exact .comp (by
          dsimp only
          split
          · exact .mono deliverFetch_keeps rfl
          · exact .refl) <| by
        split
        · exact .ite (.mono holdData_keeps rfl) .refl
        · exact .refl
  · exact .mono deliverBlock_keeps rfl
  · exact .mono deliverLoad_keeps rfl
  · exact .mono deliverLoad_keeps rfl
  · exact .refl

theorem readCompletion_keeps {t : Fin 128} {r : ReadResult} {s : State} : KeepsBut [.records, .flt] s (readCompletion t r s) := by
  unfold readCompletion
  split
  · dsimp only
    split
    · exact .ite (.after serveConfirms_keeps rfl <| .after deliver_keeps rfl <| .after setTag_keeps rfl <| .mono unnamed_keeps rfl) .refl
    · exact .ite .refl <| .after serveConfirms_keeps rfl <| .after readFails_keeps rfl <| .after setTag_keeps rfl <| .mono unnamed_keeps rfl
  · exact .after aerReport_keeps rfl <| .mono unnamed_keeps rfl

theorem blockSend_keeps {o : Origin} {op : Nat} {form : State → Desc → OpForm} {place : BlockPlace} {s : State} :
    KeepsBut [.records] s (blockSend o op form place s) := by
  unfold blockSend
  split
  · exact .ite .refl <| .after sendRead_keeps rfl recordFields_keeps
  · exact .refl

theorem clearBlock_keeps {o : Origin} {before s : State} : KeepsBut [] s (clearBlock o before s) := .ite .refl dropBlock_keeps

/-- What an operation does once its block has come, or with status 0x13 where it could not be read (R393). -/
theorem blockArrived_keeps {may : List Safety.Part} {o : Origin} {uid : Nat} {place : Bool × Nat × Nat} {eff : List Byte → State → State} {s : State}
    (hr : Within [.records] may) (h : ∀ bs s, KeepsBut may s (eff bs s)) :
    KeepsBut may s (match blockBytes o place.1 place.2.1 place.2.2 s with
      | (some bs, s) => eff bs s
      | (none, s) => finishFree uid 0x13 s) := by
  have read : KeepsBut may s (blockBytes o place.1 place.2.1 place.2.2 s).2 := .mono blockBytes_keeps rfl
  rcases h' : blockBytes o place.1 place.2.1 place.2.2 s with ⟨_ | bs, t⟩ <;> rw [h'] at read
  · exact .comp (.mono (finishFree_keeps _ _ _) hr) read
  · exact .comp (h bs t) read

/-- An operation with a block touches descriptors and records, and what its effect touches (R37, R393, R394). -/
theorem runBlockAt_keeps {may : List Safety.Part} {o : Origin} {op : Nat} {b : BlockStep} {place : BlockPlace} {form : State → Desc → OpForm}
    {eff : Desc → Nat → List Byte → State → State} {s : State} (hr : Within [.records] may)
    (h : ∀ d uid bs s, KeepsBut may s (eff d uid bs s)) : OutKeeps may s (runBlockAt o op b place form eff s) := by
  refine .next <| .whenOn fun s => ?_
  extract_lets s₁
  refine .comp (t := s₁) ?_ <| .mono (retireUnknown_keeps _ _ _) hr
  cases b with
  | read => exact .mono blockSend_keeps hr
  | run =>
    exact .onlyIf fun s => .comp (.mono clearBlock_keeps rfl) <| .runOut hr fun d uid _ => blockArrived_keeps hr (h d uid)

theorem runBlock_keeps {may : List Safety.Part} {o : Origin} {op : Nat} {b : BlockStep} {form : State → Desc → OpForm}
    {eff : Desc → Nat → List Byte → State → State} {s : State} (hr : Within [.records] may)
    (h : ∀ d uid bs s, KeepsBut may s (eff d uid bs s)) : OutKeeps may s (runBlock o op b form eff s) := runBlockAt_keeps hr h

theorem discardReads_keeps {s : State} : KeepsBut [.flt] s (discardReads s) :=
  .comp (.foldl fun _ _ => countUnused_keeps) <| .mono unnamed_keeps rfl

theorem sendPending_keeps {s : State} : KeepsBut [.records] s (sendPending s) :=
  .foldl fun _ _ => .ite (.after (toHost_keeps _ _) rfl <| .mono unnamed_keeps rfl) .refl

theorem stopHostRings_keeps {s : State} : KeepsBut [.records] s (stopHostRings s) :=
  .after (rings_keeps _ _) rfl <| .foldl fun _ _ => .ite stopRing_keeps .refl

theorem returnTags_keeps {s : State} : KeepsBut [.records, .flt] s (returnTags s) :=
  .comp (.foldl fun _ _ => unconfirmed_keeps) <|
  .after unnamed_keeps rfl <|
  .foldl fun _ _ => by
      split
      · exact .after readFails_keeps rfl <| .after setTag_keeps rfl <| .mono unnamed_keeps rfl
      · exact .refl

theorem linkLoss_keeps {s : State} : KeepsBut [.records, .flt, .hw] s (linkLoss s) :=
  .after hwPutAt_keeps rfl <|
  .after (raise_keeps _ _ _) rfl <| .after stopHostRings_keeps rfl <| .after returnTags_keeps rfl <| .mono unnamed_keeps rfl

theorem execReadCompletion_keeps {tag : Fin 128} {r : ReadResult} {s : State} : OutKeeps [.records, .flt] s (execReadCompletion tag r s) :=
  .next <| .whenOn fun _ => readCompletion_keeps

theorem execTagTimeout_keeps {tag : Fin 128} {s : State} : OutKeeps [.records, .flt] s (execTagTimeout tag s) :=
  .next <|
  .whenOn fun _ => by
      split
      · exact .ite (.after serveConfirms_keeps rfl <| .after firstTimeout_keeps rfl <| .after readFails_keeps rfl <| .after setTag_keeps rfl <|
              .mono unnamed_keeps rfl) <|
          .refl
      · exact .refl

theorem execTagQuarantineEnd_keeps {tag : Fin 128} {s : State} : OutKeeps [.records] s (execTagQuarantineEnd tag s) :=
  .next <|
  .whenOn fun _ => by
      split
      · exact .ite (.after serveConfirms_keeps rfl <| .mono setTag_keeps rfl) .refl
      · exact .refl

theorem execDelayedReadDiscard_keeps {s : State} : OutKeeps [.flt] s (execDelayedReadDiscard s) :=
  .next <| .whenOn fun _ => discardReads_keeps

theorem execHostLinkLoss_keeps {s : State} : OutKeeps [.records, .flt, .hw] s (execHostLinkLoss s) :=
  .next <| .whenOn fun _ => .onlyIf fun _ => linkLoss_keeps

theorem execHostLinkUp_keeps {speed : Fin 3} {width : Fin 2} {s : State} : OutKeeps [.records] s (execHostLinkUp speed width s) :=
  .next <| .whenOn fun _ => .onlyIf fun _ => .after (emit_keeps _ _ _ _ _ _) rfl <| .mono unnamed_keeps rfl

theorem execHostLinkTimeout_keeps {s : State} : OutKeeps [.flt] s (execHostLinkTimeout s) :=
  .next <| .whenOn fun _ => .onlyIf fun _ => .after (raise_keeps _ _ _) rfl <| .mono unnamed_keeps rfl

theorem execMsixUnmask_keeps {u : Unmask} {s : State} : OutKeeps [.records] s (execMsixUnmask u s) :=
  .next <| .whenOn fun _ => .after sendPending_keeps rfl <| .mono unnamed_keeps rfl

theorem execHbQuery_keeps {o : Origin} {s : State} : OutKeeps [.records] s (execHbQuery o s) :=
  .runOut rfl fun _ _ _ => finish_keeps _ _ _ _

theorem xspiStart_keeps {kind : Nat} {src : List Byte} {d : Desc} {uid : Nat} {s : State} : KeepsBut [] s (xspiStart kind src d uid s) :=
  unnamed_keeps

theorem xspiMem_keeps {cs : Fin 2} {f : Mem → Mem} {s : State} : KeepsBut [] s (xspiMem cs f s) := unnamed_keeps

theorem freeBytes_keeps : ∀ (n : Nat) (s : State), KeepsBut [] s (freeBytes n s).2
  | 0, _ => .refl
  | n + 1, _ => .after (freeBytes_keeps n _) rfl unnamed_keeps

theorem xspiEnd_keeps {op : XspiOp} {r : XspiResult} {s : State} : KeepsBut [.records, .flt] s (xspiEnd op r s) :=
  .comp (by
      unfold xspiEnd
      dsimp only
      split
      · exact .after (finish_keeps _ _ _ _) rfl <| .mono (toBuffer_keeps _ _ _ _) rfl
      · exact .after (finish_keeps _ _ _ _) rfl <| .mono xspiMem_keeps rfl
      · exact .after (raise_keeps _ _ _) rfl <|
          .after (finish_keeps _ _ _ _) rfl <| .after xspiMem_keeps rfl <| .mono (freeBytes_keeps _ _) rfl
      · exact .after (finish_keeps _ _ _ _) rfl <| .mono xspiMem_keeps rfl) <|
  .mono unnamed_keeps rfl

theorem execXspiRead_keeps {o : Origin} {s : State} : OutKeeps [.records] s (execXspiRead o s) :=
  .runOut rfl fun _ _ _ => .mono xspiStart_keeps rfl

theorem execXspiWrite_keeps {o : Origin} {b : BlockStep} {s : State} : OutKeeps [.records] s (execXspiWrite o b s) :=
  runBlockAt_keeps rfl fun _ _ _ _ => .mono xspiStart_keeps rfl

theorem execXspiErase_keeps {o : Origin} {s : State} : OutKeeps [.records] s (execXspiErase o s) :=
  .runOut rfl fun _ _ _ => .mono xspiStart_keeps rfl

theorem execXspiQuery_keeps {o : Origin} {s : State} : OutKeeps [.records] s (execXspiQuery o s) :=
  .runOut rfl fun _ _ _ => finish_keeps _ _ _ _

theorem execXspiNoAnswer_keeps {cs : Fin 2} {s : State} : OutKeeps [.records, .flt] s (execXspiNoAnswer cs s) :=
  .next <|
  .whenOn fun _ =>
    .onlyIf fun _ =>
      .after (raise_keeps _ _ _) rfl <| .comp (.foldl fun _ _ => .mono (finishFree_keeps _ _ _) rfl) <| .mono unnamed_keeps rfl

theorem execXspiOperationEnd_keeps {cs : Fin 2} {r : XspiResult} {s : State} : OutKeeps [.records, .flt] s (execXspiOperationEnd cs r s) :=
  .next <|
  .whenOn fun _ => by
      split
      · exact .ite xspiEnd_keeps .refl
      · exact .refl

/-! ### NetOps.lean -/

theorem modNs_keeps {f : NsSt → NsSt} {s : State} : KeepsBut [.ns] s (modNs f s) := nsField_keeps

theorem setCan_keeps {n : Nat} {f : Can → Can} {s : State} : KeepsBut [.ns] s (setCan n f s) := nsField_keeps

theorem setLin_keeps {n : Nat} {f : Lin → Lin} {s : State} : KeepsBut [.ns] s (setLin n f s) := nsField_keeps

theorem setSeg_keeps {b : Nat} {f : Seg → Seg} {s : State} : KeepsBut [.ns] s (setSeg b f s) := nsField_keeps

theorem txEnds_keeps {b : TxBuf} {status result cancelOut : Nat} {s : State} : KeepsBut [.records] s (txEnds b status result cancelOut s) :=
  .comp (.foldl fun _ _ => finish_keeps _ _ _ _) <| by
    split
    · exact finish_keeps _ _ _ _
    · exact recordFields_keeps
    · exact .refl

theorem modAcc_keeps {f : AccSt → AccSt} {s : State} : KeepsBut [.acc] s (modAcc f s) := accField_keeps

theorem releaseEndDone_keeps {s : State} : KeepsBut [.records, .acc] s (releaseEndDone s) := by
  unfold releaseEndDone
  split
  · exact .ite (.after (finish_keeps _ _ _ _) rfl <| .mono modAcc_keeps rfl) .refl
  · exact .refl

theorem relSent_keeps {s : State} : KeepsBut [.records, .acc] s (relSent s) := .after releaseEndDone_keeps rfl <| .mono modAcc_keeps rfl

theorem dropBuf_keeps {n order : Nat} {s : State} : KeepsBut [.ns] s (dropBuf n order s) := setCan_keeps

theorem txAllFail_keeps {n src : Nat} {s : State} : KeepsBut [.records, .ns] s (txAllFail n src s) :=
  .comp (.foldl fun _ _ => .mono txEnds_keeps rfl) <| .mono setCan_keeps rfl

theorem setCounts_keeps {n tec errs : Nat} {s : State} : KeepsBut [.records, .flt, .ns] s (setCounts n tec errs s) :=
  .comp (.ite .refl <|
    .comp (.ite (.ite (.mono (raise_keeps _ _ _) rfl) .refl) <|
      .ite (.after txAllFail_keeps rfl <| .after (raise_keeps _ _ _) rfl <| .mono setCan_keeps rfl) .refl) <|
    .mono (emit_keeps _ _ _ _ _ _) rfl) <|
  .mono setCan_keeps rfl

theorem setRoute_keeps {r : Nat} {f : RouteCnt → RouteCnt} {s : State} : KeepsBut [.ns] s (setRoute r f s) := nsField_keeps

theorem routeForwarded_keeps {r : Nat} {s : State} : KeepsBut [.ns] s (routeForwarded r s) := setRoute_keeps

theorem routeSuperseded_keeps {r : Nat} {s : State} : KeepsBut [.ns] s (routeSuperseded r s) := setRoute_keeps

theorem routeDrop_keeps {r reason : Nat} {s : State} : KeepsBut [.flt, .ns] s (routeDrop r reason s) :=
  .comp (.ite (.mono (raise_keeps _ _ _) rfl) <| .ite (.mono (raise_keeps _ _ _) rfl) .refl) <| .mono setRoute_keeps rfl

theorem gwDropCan_keeps {n reason : Nat} {bad : CanFrame → Bool} {s : State} : KeepsBut [.flt, .ns] s (gwDropCan n reason bad s) :=
  .comp (.foldl fun _ _ => routeDrop_keeps) <| .after modNs_keeps rfl <| .mono setCan_keeps rfl

theorem gwDropLin_keeps {n reason : Nat} {s : State} : KeepsBut [.flt, .ns] s (gwDropLin n reason s) :=
  .comp (.foldl fun _ _ => routeDrop_keeps) <| .mono setLin_keeps rfl

theorem gwDropFor_keeps {b reason : Nat} {s : State} : KeepsBut [.flt, .ns] s (gwDropFor b reason s) := .ite gwDropCan_keeps gwDropLin_keeps

theorem segState_keeps {b : Nat} {new : SegSt} {cause : Nat} {s : State} : KeepsBut [.records, .ns] s (segState b new cause s) :=
  .after (emit_keeps _ _ _ _ _ _) rfl <| .mono setSeg_keeps rfl

theorem endSleep_keeps {b status result : Nat} {s : State} : KeepsBut [.records, .ns] s (endSleep b status result s) := by
  unfold endSleep
  split
  · exact .after (finish_keeps _ _ _ _) rfl <| .mono setSeg_keeps rfl
  · exact .refl

theorem withdrawGrant_keeps {cause : Nat} {s : State} : KeepsBut [.pw] s (withdrawGrant cause s) := by
  unfold withdrawGrant
  split
  · exact .ite pwField_keeps .refl
  · exact .refl

theorem segWake_keeps {b cause : Nat} {ann : Bool} {s : State} : KeepsBut [.records, .pw, .ns] s (segWake b cause ann s) :=
  .after segState_keeps rfl <|
  .after setSeg_keeps rfl <| .comp (.ite (.mono setSeg_keeps rfl) .refl) <| .after withdrawGrant_keeps rfl <| .mono endSleep_keeps rfl

theorem netWakeSrc_keeps {b cause : Nat} {replayed : Bool} {word data time : Nat} {tsRt : Bool} {s : State} :
    KeepsBut [.records] s (netWakeSrc b cause replayed word data time tsRt s) := emitAt_keeps _ _ _ _ _ _ _ _

theorem setPub_keeps {n fid : Nat} {f : Pub → Pub} {s : State} : KeepsBut [.ns] s (setPub n fid f s) := setLin_keeps

theorem pubSupersede_keeps {n fid : Nat} {s : State} : KeepsBut [.ns] s (pubSupersede n fid s) :=
  .comp (.foldl fun _ _ => routeSuperseded_keeps) setPub_keeps

theorem pubWrite_keeps {n fid off : Nat} {bytes : List Byte} {route : Option Nat} {s : State} :
    KeepsBut [.ns] s (pubWrite n fid off bytes route s) := .after setPub_keeps rfl pubSupersede_keeps

theorem pubLatch_keeps {n fid : Nat} {s : State} : KeepsBut [.ns] s (pubLatch n fid s) :=
  .comp (.foldl fun _ _ => routeForwarded_keeps) <| .after setPub_keeps rfl pubSupersede_keeps

theorem routeActs_keeps {m : Mem} {r ident : Nat} {data : List Byte} {s : State} : KeepsBut [.flt, .ns] s (routeActs m r ident data s) :=
  .comp (.ite routeDrop_keeps <|
    .ite routeDrop_keeps <| .ite routeDrop_keeps <| .ite (.mono pubWrite_keeps rfl) <| .ite routeDrop_keeps <| .mono modNs_keeps rfl) <|
  .mono setRoute_keeps rfl

theorem routeFrom_keeps {m : Mem} {fromLin : Bool} {bus ident : Nat} {ide : Bool} {data : List Byte} {s : State} :
    KeepsBut [.flt, .ns] s (routeFrom m fromLin bus ident ide data s) := .ite .refl <| .foldl fun _ _ => .ite routeActs_keeps .refl

/-! ### Can.lean -/

theorem modQueue_keeps {n q : Nat} {f : Queue → Queue} {s : State} : KeepsBut [.ns] s (modQueue n q f s) := setCan_keeps

theorem dropFrame_keeps {n q ring : Nat} {s : State} : KeepsBut [.records, .flt, .ns] s (dropFrame n q ring s) :=
  .comp (.ite (.mono (raise_keeps _ _ _) rfl) .refl) <|
  .comp (by
      split
      · exact .mono (setRing_keeps _ _ _) rfl
      · exact .refl) <|
  .mono modQueue_keeps rfl

theorem filterFrame_keeps {n : Nat} {f : CanFrame} {sof : Nat} {own : Bool} {s : State} :
    KeepsBut [.records, .flt, .ns] s (filterFrame n f sof own s) := by
  unfold filterFrame
  dsimp only
  cases matchPair (canSetAt s n sof).1 f with
  | none => exact .mono setCan_keeps rfl
  | some _ => exact .comp (.ite dropFrame_keeps <| .mono setCan_keeps rfl) <| .mono modQueue_keeps rfl

theorem goodReceive_keeps {n : Nat} {s : State} : KeepsBut [.records, .flt, .ns] s (goodReceive n s) :=
  .ite .refl <| .ite (.after setCounts_keeps rfl <| .mono unnamed_keeps rfl) <| .ite .refl setCounts_keeps

theorem busActive_keeps {n : Nat} {s : State} : KeepsBut [.ns] s (busActive n s) := .ite setSeg_keeps .refl

theorem receiveError_keeps {n lec add : Nat} {s : State} : KeepsBut [.records, .flt, .ns] s (receiveError n lec add s) :=
  .comp (.ite setCounts_keeps .refl) <| .mono setCan_keeps rfl

theorem takeFrame_keeps {n : Nat} {f : CanFrame} {sof : Nat} {s : State} : KeepsBut [.records, .flt, .pw, .ns] s (takeFrame n f sof s) := by
  unfold takeFrame
  extract_lets s₁ s₂
  refine .comp (t := s₂) ?_ <| .comp (.ite .refl <| .mono routeFrom_keeps rfl) <| .after filterFrame_keeps rfl <| .mono goodReceive_keeps rfl
  split
  · exact .comp (.ite (.mono segWake_keeps rfl) .refl) <| .mono setSeg_keeps rfl
  · exact .ite (.mono segWake_keeps rfl) .refl
  · exact .refl

theorem execFrameReceived_keeps {n : Fin 8} {f : CanFrame} {sof : Nat} {s : State} :
    OutKeeps [.records, .flt, .pw, .ns] s (execFrameReceived n f sof s) :=
  .next <|
  .whenOn fun _ => .onlyIf fun _ => .comp (.ite .refl <| .ite (.mono receiveError_keeps rfl) takeFrame_keeps) <| .mono busActive_keeps rfl

theorem execFrameRecordWrite_keeps {n : Fin 8} {s : State} : OutKeeps [.records, .flt, .ns] s (execFrameRecordWrite n s) :=
  .next <|
  .whenOn fun _ => by
      split
      · exact .refl
      · exact .comp (by
              dsimp only
              split
              · exact dropFrame_keeps
              · exact .ite (.after (watchStalls_keeps _) rfl <| .after modQueue_keeps rfl <| .foldl fun _ _ => .after (toPrograms_keeps _ _) rfl <|
                      .mono (putRecord_keeps _ _ _ _) rfl) <|
                  dropFrame_keeps) <|
          .mono setCan_keeps rfl

theorem nextOrder_keeps {s : State} : KeepsBut [.ns] s (nextOrder s).2 := modNs_keeps

theorem addBuf_keeps {n : Nat} {f : Nat → TxBuf} {s : State} : KeepsBut [.ns] s (addBuf n f s) := .after setCan_keeps rfl nextOrder_keeps

theorem canTxPlace_keeps {d : Desc} {uid : Nat} {data : List Byte} {s : State} : KeepsBut [.ns] s (canTxPlace d uid data s) := addBuf_keeps

theorem execCanTx_keeps {o : Origin} {b : BlockStep} {s : State} : OutKeeps [.records, .ns] s (execCanTx o b s) :=
  runBlock_keeps rfl fun _ _ _ _ => .mono canTxPlace_keeps rfl

theorem ownBufs_keeps {n : Nat} {s : State} : KeepsBut [.ns] s (ownBufs n s) :=
  .comp (.ite addBuf_keeps .refl) <| by
    split
    · exact .ite addBuf_keeps .refl
    · exact .refl

theorem execArbitrationStart_keeps {n : Fin 8} {s : State} : OutKeeps [.ns] s (execArbitrationStart n s) :=
  .next <|
  .whenOn fun _ =>
    .ite .refl <|
    .comp (by
        dsimp only
        split
        · exact .refl
        · exact setCan_keeps) <|
    ownBufs_keeps

theorem measure_keeps {n sof : Nat} {f : CanFrame} {edges : List Nat} {s : State} : KeepsBut [.flt, .ns] s (measure n sof f edges s) :=
  .ite .refl <| by
    split
    · exact .mono setCan_keeps rfl
    · exact .after (raise_keeps _ _ _) rfl <| .mono setCan_keeps rfl

theorem sidGood_keeps {n : Nat} {f : CanFrame} {s : State} : KeepsBut [.ns] s (sidGood n f s) := setCan_keeps

theorem sidBad_keeps {n : Nat} {f : CanFrame} {s : State} : KeepsBut [.records, .flt, .ns] s (sidBad n f s) :=
  .comp (by
      unfold sidBad
      dsimp only
      split
      · exact .ite (.after (raise_keeps _ _ _) rfl <| .after (emit_keeps _ _ _ _ _ _) rfl <| .mono setCan_keeps rfl) .refl
      · exact .refl) <|
  .mono setCan_keeps rfl

theorem transmitCounts_keeps {n tec : Nat} {s : State} : KeepsBut [.records, .flt, .ns] s (transmitCounts n tec s) :=
  .ite setCounts_keeps .refl

theorem execFrameTransmitted_keeps {n : Fin 8} {edges : List Nat} {s : State} :
    OutKeeps [.records, .flt, .ns, .acc] s (execFrameTransmitted n edges s) := by
  refine .next <| .whenOn fun s => ?_
  split
  · exact .refl
  refine .ite .refl ?_
  extract_lets s₁ s₂ s₃ s₄
  refine .comp (t := s₄) ?_ <|
    .comp (.ite (.mono filterFrame_keeps rfl) .refl) <|
    .after transmitCounts_keeps rfl <| .after sidGood_keeps rfl <| .after measure_keeps rfl <| .after setCan_keeps rfl <| .mono dropBuf_keeps rfl
  split
  · exact .mono routeForwarded_keeps rfl
  · exact .mono setSeg_keeps rfl
  · exact .mono relSent_keeps rfl
  · exact .mono txEnds_keeps rfl

theorem attemptOver_keeps {n : Nat} {b : TxBuf} {outcome : Nat} {s : State} : KeepsBut [.records, .flt, .ns] s (attemptOver n b outcome s) :=
  .comp (by
      unfold attemptOver
      dsimp only
      split
      · exact .after txEnds_keeps rfl <| .mono dropBuf_keeps rfl
      · split
        · split
          · exact .after routeDrop_keeps rfl <| .mono dropBuf_keeps rfl
          · exact .refl
        · exact .ite (.after txEnds_keeps rfl <| .mono dropBuf_keeps rfl) <| .ite (.after txEnds_keeps rfl <| .mono dropBuf_keeps rfl) .refl) <|
  .mono setCan_keeps rfl

theorem txError_keeps {n : Nat} {exempt : Bool} {s : State} : KeepsBut [.records, .flt, .ns] s (txError n exempt s) :=
  .ite .refl transmitCounts_keeps

theorem execTransmitAttemptFailed_keeps {n : Fin 8} {why : AttemptFail} {edges : Option (List Nat)} {s : State} :
    OutKeeps [.records, .flt, .ns] s (execTransmitAttemptFailed n why edges s) :=
  .next <|
  .whenOn fun _ => by
      split
      · exact .refl
      · exact .comp (by
              dsimp only
              split
              · exact attemptOver_keeps
              · exact .after txError_keeps rfl <| .after attemptOver_keeps rfl <| .comp (.ite sidBad_keeps .refl) <| .mono setCan_keeps rfl) <| by
            split
            · exact .mono measure_keeps rfl
            · exact .refl

theorem execCancelErrorFlag_keeps {n : Fin 8} {s : State} : OutKeeps [.records, .flt, .ns] s (execCancelErrorFlag n s) :=
  .next <|
  .whenOn fun _ => by
      split
      · exact .refl
      · split
        · exact .ite (.after txError_keeps rfl attemptOver_keeps) .refl
        · exact .refl

theorem registerStop_keeps {n : Nat} {b : TxBuf} {timeout : Bool} {cancel : Option Nat} {s : State} :
    KeepsBut [.records, .ns] s (registerStop n b timeout cancel s) := by
  unfold registerStop
  split
  · exact .ite (.mono setCan_keeps rfl) <| .after txEnds_keeps rfl <| .mono dropBuf_keeps rfl
  · exact .after txEnds_keeps rfl <| .mono dropBuf_keeps rfl

theorem execCanTxCancel_keeps {o : Origin} {s : State} : OutKeeps [.records, .ns] s (execCanTxCancel o s) :=
  .runOut rfl fun _ _ _ => by
      split
      · exact .mono (finish_keeps _ _ _ _) rfl
      · exact registerStop_keeps

theorem execTxTimeout_keeps {n : Fin 8} {s : State} : OutKeeps [.records, .ns] s (execTxTimeout n s) :=
  .next <| .whenOn fun _ => .foldl fun _ _ => registerStop_keeps

theorem execReceiveError_keeps {n : Fin 8} {why : RxError} {eight : Bool} {s : State} :
    OutKeeps [.records, .flt, .ns] s (execReceiveError n why eight s) :=
  .next <|
  .whenOn fun _ =>
    .onlyIf fun _ =>
      .comp (.ite .refl <| by
          split
          · exact receiveError_keeps
          · exact .ite (.mono setCan_keeps rfl) receiveError_keeps) <|
      .mono busActive_keeps rfl

theorem execBusoffHoldExpiry_keeps {n : Fin 8} {s : State} : OutKeeps [.ns] s (execBusoffHoldExpiry n s) :=
  .next <| .whenOn fun _ => .onlyIf fun _ => setCan_keeps

theorem execBusoffRecoveryComplete_keeps {x : SeqCount} {s : State} : OutKeeps [.records, .flt, .ns] s (execBusoffRecoveryComplete x s) :=
  .next <|
  .whenOn fun _ => .onlyIf fun _ => .comp (.ite .refl <| .after setCounts_keeps rfl <| .mono setCan_keeps rfl) <| .mono setCan_keeps rfl

theorem execCanRecover_keeps {o : Origin} {s : State} : OutKeeps [.records, .ns] s (execCanRecover o s) :=
  .runOut rfl fun _ _ _ => .after (finish_keeps _ _ _ _) rfl <| .mono setCan_keeps rfl

theorem execTxdDominant_keeps {n : Fin 8} {s : State} : OutKeeps [.flt] s (execTxdDominant n s) :=
  .next <| .whenOn fun _ => .onlyIf fun _ => raise_keeps _ _ _

theorem execBusIntegrated_keeps {n : Fin 8} {s : State} : OutKeeps [.ns] s (execBusIntegrated n s) :=
  .next <| .whenOn fun _ => .onlyIf fun _ => setCan_keeps

theorem execCanQuery_keeps {o : Origin} {s : State} : OutKeeps [.records] s (execCanQuery o s) :=
  .runOut rfl fun _ _ _ => finish_keeps _ _ _ _

theorem execCanQueueQuery_keeps {o : Origin} {s : State} : OutKeeps [.records] s (execCanQueueQuery o s) :=
  .runOut rfl fun _ _ _ => finish_keeps _ _ _ _

theorem execDiagnosticRequest_keeps {n : Fin 8} {f : CanFrame} {s : State} : OutKeeps [.records] s (execDiagnosticRequest n f s) :=
  .next <| .whenOn fun _ => .ite .refl recordFields_keeps

/-! ### Lin.lean -/

theorem linEvent_keeps {n code d1 d2 : Nat} {s : State} : KeepsBut [.records] s (linEvent n code d1 d2 s) := emit_keeps _ _ _ _ _ _

theorem switchSched_keeps {n : Nat} {new : Option Nat} {coll : Bool} {s : State} : KeepsBut [.records, .ns] s (switchSched n new coll s) :=
  .after linEvent_keeps rfl <| .mono setLin_keeps rfl

theorem takeScheds_keeps (n : Nat) : ∀ (atEnd : Bool) (l : List (Nat × Nat × Bool)) (s : State), KeepsBut [.records, .ns] s (takeScheds n atEnd l s)
  | _, [], _ => .refl
  | atEnd, (_, sch, _) :: rest, _ => .ite (takeScheds_keeps n atEnd rest _) <|
    .after (takeScheds_keeps n (sch == 0xFF) rest _) rfl <| .after (finish_keeps _ _ _ _) rfl <| .after switchSched_keeps rfl <|
    .mono setLin_keeps rfl

theorem restartSched_keeps {n : Nat} {s : State} : KeepsBut [.records, .ns] s (restartSched n s) :=
  .comp (by
      unfold restartSched
      dsimp only
      split
      · exact .after switchSched_keeps rfl <| .mono setLin_keeps rfl
      · exact .refl) <|
  .mono setLin_keeps rfl

theorem endSlot_keeps {n : Nat} {s : State} : KeepsBut [.records, .ns] s (endSlot n s) := by
  unfold endSlot
  extract_lets l good s₁ last s₂ l₂
  refine .comp (t := s₂) ?_ <| .comp (.ite .refl <| takeScheds_keeps _ _ _ _) <| .mono setLin_keeps rfl
  split
  · split
    · exact .after switchSched_keeps rfl <| .mono setLin_keeps rfl
    · exact .mono setLin_keeps rfl
  · split
    · exact .refl
    refine .ite .refl ?_
    split
    · exact .after setLin_keeps rfl <| .after switchSched_keeps rfl <| .mono setLin_keeps rfl
    · exact .mono setLin_keeps rfl

theorem linSends_keeps {n : Nat} {cur : LinSlot} {out : List Byte} {s : State} : KeepsBut [.ns] s (linSends n cur out s) := setLin_keeps

theorem linFrame_keeps {n i kind f : Nat} {s : State} : KeepsBut [.records, .ns] s (linFrame n i kind f s) :=
  .ite
    (by
       split
       · exact .after (finish_keeps _ _ _ _) rfl <| .after setLin_keeps rfl <| .mono linSends_keeps rfl
       · exact .refl) <|
  .ite (.mono setLin_keeps rfl) <| .comp (.ite (.mono setPub_keeps rfl) .refl) <| .after linSends_keeps rfl <| .mono pubLatch_keeps rfl

theorem startSlot_keeps {n : Nat} {s : State} : KeepsBut [.records, .ns] s (startSlot n s) := by
  unfold startSlot
  extract_lets start s₁ pos
  refine .comp (t := s₁) ?_ endSlot_keeps
  split
  · exact .refl
  extract_lets i kind fid s₂
  refine .comp (t := s₂) ?_ <| .mono setLin_keeps rfl
  cases hf : fid
  · exact .refl
  · exact linFrame_keeps

theorem startSleepCmd_keeps {n : Nat} {s : State} : KeepsBut [.records, .ns] s (startSleepCmd n s) :=
  .comp (.foldl fun _ _ => .mono (finishFree_keeps _ _ _) rfl) <| .after linSends_keeps rfl <| .after setLin_keeps rfl endSlot_keeps

theorem execLinSlotStart_keeps {n : Fin 8} {s : State} : OutKeeps [.records, .ns] s (execLinSlotStart n s) :=
  .next <| .whenOn fun _ => .onlyIf fun _ => .ite startSlot_keeps <| .ite startSleepCmd_keeps .refl

theorem execLinRx_keeps {n : Fin 8} {data : List Byte} {cks : Byte} {s : State} : OutKeeps [.records, .flt, .ns] s (execLinRx n data cks s) :=
  .next <|
  .whenOn fun _ => by
      split
      · exact .refl
      · exact .ite .refl <|
          .after routeFrom_keeps rfl <| .after (emitAt_keeps _ _ _ _ _ _ _ _) rfl <| .after setPub_keeps rfl <| .mono setLin_keeps rfl

theorem execLinErr_keeps {n : Fin 8} {code : Fin 7} {got : Nat} {header : Bool} {s : State} :
    OutKeeps [.records, .flt, .ns] s (execLinErr n code got header s) :=
  .next <|
  .whenOn fun _ => by
      split
      · exact .refl
      · exact .ite .refl <|
          .comp (.ite (.mono (raise_keeps _ _ _) rfl) <| .ite (.mono (raise_keeps _ _ _) rfl) <| .ite (.mono (raise_keeps _ _ _) rfl) .refl) <|
          .after (emit_keeps _ _ _ _ _ _) rfl <| .after setLin_keeps rfl <| .mono setPub_keeps rfl

theorem execLinBusDominant_keeps {n : Fin 8} {s : State} : OutKeeps [.flt, .ns] s (execLinBusDominant n s) :=
  .next <|
  .ite (.mono setSeg_keeps rfl) <|
  .whenOn fun _ =>
    .onlyIf fun _ =>
      .ite (.ite (.mono setSeg_keeps rfl) .refl) <| .after (raise_keeps _ _ _) rfl <| .after setSeg_keeps rfl <| .mono setLin_keeps rfl

theorem execLinBusRecessive_keeps {n : Fin 8} {s : State} : OutKeeps [.ns] s (execLinBusRecessive n s) :=
  .next <| .whenOn fun _ => .onlyIf fun _ => .after busActive_keeps rfl setLin_keeps

theorem execLinWrite_keeps {o : Origin} {s : State} : OutKeeps [.records, .ns] s (execLinWrite o s) :=
  .runOut rfl fun _ _ _ => .after (finish_keeps _ _ _ _) rfl <| .mono pubWrite_keeps rfl

theorem execLinSched_keeps {o : Origin} {s : State} : OutKeeps [.records, .ns] s (execLinSched o s) :=
  .runOut rfl fun _ _ _ => .comp (.ite (takeScheds_keeps _ _ _ _) .refl) <| .mono setLin_keeps rfl

theorem execLinDiagReq_keeps {o : Origin} {s : State} : OutKeeps [.records, .ns] s (execLinDiagReq o s) :=
  .runOut rfl fun _ _ _ => .mono setLin_keeps rfl

theorem execLinQuery_keeps {o : Origin} {s : State} : OutKeeps [.records] s (execLinQuery o s) :=
  .runOut rfl fun _ _ _ => finish_keeps _ _ _ _

theorem execGwIsolate_keeps {o : Origin} {s : State} : OutKeeps [.records, .flt, .ns] s (execGwIsolate o s) :=
  .runOut rfl fun _ _ _ => .after (finish_keeps _ _ _ _) rfl <| .comp (.ite (.mono gwDropFor_keeps rfl) .refl) <| .mono setSeg_keeps rfl

theorem execGwRouteQuery_keeps {o : Origin} {s : State} : OutKeeps [.records] s (execGwRouteQuery o s) :=
  .runOut rfl fun _ _ _ => finish_keeps _ _ _ _

theorem execGatewayBufferAssign_keeps {n : Fin 8} {s : State} : OutKeeps [.ns] s (execGatewayBufferAssign n s) :=
  .next <|
  .whenOn fun _ => by
      split
      · exact .refl
      · exact .ite .refl <| .after addBuf_keeps rfl modNs_keeps

theorem execGatewayMaxAge_keeps {s : State} : OutKeeps [.flt, .ns] s (execGatewayMaxAge s) :=
  .next <| .whenOn fun _ => .comp (.foldl fun _ _ => routeDrop_keeps) <| .mono modNs_keeps rfl

theorem execGwDrop_keeps {r : Nat} {s : State} : OutKeeps [.records, .ns] s (execGwDrop r s) :=
  .next <|
  .whenOn fun _ => by
      dsimp only
      split
      · exact .ite (.after (emit_keeps _ _ _ _ _ _) rfl <| .mono setRoute_keeps rfl) .refl
      · exact .refl

/-! ### Sleep.lean -/

theorem segStarts_keeps {b : Nat} {low : Bool} {s : State} : KeepsBut [.records, .ns] s (segStarts b low s) :=
  .ite (.ite (.mono setCan_keeps rfl) .refl) <| .comp (.ite switchSched_keeps <| .mono setLin_keeps rfl) <| .mono setLin_keeps rfl

theorem execNetSleep_keeps {o : Origin} {s : State} : OutKeeps [.records, .flt, .ns] s (execNetSleep o s) := by
  refine .runOut rfl fun d uid s => ?_
  extract_lets b s₁ s₂ s₃ run idle gone s₄ s₅ n s₆
  refine .comp (t := s₃) ?_ <| .after segState_keeps rfl <| .after setSeg_keeps rfl <| .ite (.mono setCan_keeps rfl) .refl
  refine .ite (.after gwDropFor_keeps rfl <| .comp (.foldl fun _ _ => .mono txEnds_keeps rfl) <| .mono setCan_keeps rfl) ?_
  subst s₆
  split
  · exact .after (finishFree_keeps _ _ _) rfl <| .mono setLin_keeps rfl
  · exact .refl

theorem execNetWake_keeps {o : Origin} {s : State} : OutKeeps [.records, .pw, .ns] s (execNetWake o s) :=
  .runOut rfl fun _ _ _ => .ite (.mono (finish_keeps _ _ _ _) rfl) <| .comp (.ite .refl segWake_keeps) <| .mono setSeg_keeps rfl

theorem execNetListen_keeps {o : Origin} {s : State} : OutKeeps [.records, .ns] s (execNetListen o s) :=
  .runOut rfl fun _ _ _ => .after (finish_keeps _ _ _ _) rfl <| .comp (.ite (.mono setCan_keeps rfl) .refl) <| .mono setSeg_keeps rfl

theorem execNetQuery_keeps {o : Origin} {s : State} : OutKeeps [.records] s (execNetQuery o s) :=
  .runOut rfl fun _ _ _ => finish_keeps _ _ _ _

theorem execDrainEnd_keeps {b : Fin 16} {s : State} : OutKeeps [.records, .ns] s (execDrainEnd b s) :=
  .next <| .whenOn fun _ => .ite .refl <| .after segState_keeps rfl <| .after setSeg_keeps rfl <| .ite .refl <| .mono setLin_keeps rfl

theorem execSegmentCommit_keeps {b : Fin 16} {s : State} : OutKeeps [.records, .ns] s (execSegmentCommit b s) :=
  .next <| .whenOn fun _ => .onlyIf fun _ => .after endSleep_keeps rfl <| .after segState_keeps rfl <| .mono setSeg_keeps rfl

theorem execAgreeTimeout_keeps {b : Fin 16} {s : State} : OutKeeps [.records, .flt, .ns] s (execAgreeTimeout b s) :=
  .next <|
  .whenOn fun _ => by
      split
      · exact .ite (.after (raise_keeps _ _ _) rfl <| .after (finishFree_keeps _ _ _) rfl <| .mono setSeg_keeps rfl) .refl
      · exact .refl

theorem wakeSeen_keeps {b cause word data : Nat} {s : State} : KeepsBut [.records, .pw, .ns] s (wakeSeen b cause word data s) :=
  .after (modPw_keeps _ _) rfl <| .after netWakeSrc_keeps rfl segWake_keeps

theorem decoderActive_keeps {n : Nat} {s : State} : KeepsBut [.ns] s (decoderActive n s) := setSeg_keeps

theorem startDecoder_keeps {n : Nat} {s : State} : KeepsBut [.ns] s (startDecoder n s) :=
  .after decoderActive_keeps rfl <| .ite .refl setSeg_keeps

theorem execWakeUpPattern_keeps {n : Fin 8} {s : State} : OutKeeps [.records, .pw, .ns] s (execWakeUpPattern n s) :=
  .next <| .ite (.mono startDecoder_keeps rfl) <| .whenOn fun _ => .onlyIf fun _ => .ite (.mono startDecoder_keeps rfl) wakeSeen_keeps

theorem execWakeUpFrame_keeps {n : Fin 8} {w : CanFrame × Nat} {s : State} : OutKeeps [.records, .pw, .ns] s (execWakeUpFrame n w s) :=
  .next <| .whenOn fun _ => .onlyIf fun _ => wakeSeen_keeps

theorem execDecoderErrorCount_keeps {x : DecodedFrame} {s : State} : OutKeeps [.records, .flt, .pw, .ns] s (execDecoderErrorCount x s) :=
  .next <|
  .ite .refl <|
  .comp (.ite (.mono setSeg_keeps rfl) <|
    .whenOn fun _ =>
      .onlyIf fun _ =>
        .ite (.mono setSeg_keeps rfl) <| .after (raise_keeps _ _ _) rfl <| .after wakeSeen_keeps rfl <| .mono setSeg_keeps rfl) <|
  .mono decoderActive_keeps rfl

theorem execDecoderSilence_keeps {n : Fin 8} {s : State} : OutKeeps [.ns] s (execDecoderSilence n s) := .next <| .onlyIf fun _ => setSeg_keeps

theorem execLinWake_keeps {n : Fin 8} {s : State} : OutKeeps [.records, .pw, .ns] s (execLinWake n s) :=
  .next <| .whenOn fun _ => .ite wakeSeen_keeps <| .ite segWake_keeps .refl

theorem execSegmentAwake_keeps {b : Fin 16} {s : State} : OutKeeps [.records, .flt, .ns] s (execSegmentAwake b s) :=
  .next <|
  .whenOn fun _ =>
    .ite .refl <|
    .comp (.ite (.mono (raise_keeps _ _ _) rfl) .refl) <|
    .comp (.foldl fun _ _ => .mono (finish_keeps _ _ _ _) rfl) <|
    .after segStarts_keeps rfl <| .after segState_keeps rfl <| .mono setSeg_keeps rfl

theorem annOver_keeps {n : Nat} {s : State} : KeepsBut [.ns] s (annOver n s) := .after setCan_keeps rfl setSeg_keeps

theorem execNetAnnounce_keeps {n : Fin 8} {s : State} : OutKeeps [.records, .ns] s (execNetAnnounce n s) :=
  .next <|
  .whenOn fun _ => by
      split
      · exact .after (emit_keeps _ _ _ _ _ _) rfl <| .mono annOver_keeps rfl
      · exact .ite (.after (emit_keeps _ _ _ _ _ _) rfl <| .mono annOver_keeps rfl) .refl
      · exact .refl

theorem execMaxAwake_keeps {b : Fin 16} {s : State} : OutKeeps [.records, .flt, .hw, .ns] s (execMaxAwake b s) :=
  .next <|
  .whenOn fun _ => by
      dsimp only
      split
      · exact .ite .refl <|
          .after (raise_keeps _ _ _) rfl <|
          .after hwPutAt_keeps rfl <|
          .after gwDropFor_keeps rfl <|
          .comp (.ite (.mono setCan_keeps rfl) .refl) <| .after endSleep_keeps rfl <| .after segState_keeps rfl <| .mono setSeg_keeps rfl
      · exact .refl

theorem linRemoved_keeps {n : Nat} {s : State} : KeepsBut [.records, .ns] s (linRemoved n s) :=
  .comp (by
      unfold linRemoved
      dsimp only
      split
      · exact .mono (finishFree_keeps _ _ _) rfl
      · exact .refl) <|
  .comp (.foldl fun _ _ => .mono (finishFree_keeps _ _ _) rfl) <| .mono setLin_keeps rfl

theorem dropScheds_keeps {n : Nat} {s : State} : KeepsBut [.records, .ns] s (dropScheds n s) :=
  .comp (.foldl fun _ _ => .mono (finishFree_keeps _ _ _) rfl) <| .mono setLin_keeps rfl

theorem nsCommit_keeps {first : Bool} {tick : Nat} {old new : Vector Mem 16} {oldPairs : Vector (List Pair) 8} {s : State} :
    KeepsBut [.records, .flt, .ns] s (nsCommit first tick old new oldPairs s) :=
  .comp (.ite .refl <|
    .foldl fun _ _ =>
      .comp (.ite .refl <| .comp (.ite .refl <| .mono switchSched_keeps rfl) <| .mono restartSched_keeps rfl) <|
      .comp (.foldl fun _ _ => .comp (.foldl fun _ _ => .mono routeSuperseded_keeps rfl) <| .mono setPub_keeps rfl) <|
      .mono dropScheds_keeps rfl) <|
  .comp (.foldl fun _ _ =>
      .ite .refl <|
      .comp (.foldl fun _ _ => .mono txEnds_keeps rfl) <|
      .after gwDropCan_keeps rfl <| .comp (.ite (.mono setSeg_keeps rfl) .refl) <| .mono setCan_keeps rfl) <|
  .comp (.foldl fun _ _ =>
      .comp (.ite (.after segStarts_keeps rfl <| .after segState_keeps rfl <| .mono setSeg_keeps rfl) <|
        .ite (.after setSeg_keeps rfl <| .comp (.ite (.mono linRemoved_keeps rfl) .refl) <| .comp (.foldl fun _ _ =>
            .mono (finishFree_keeps _ _ _) rfl) <| .mono endSleep_keeps rfl) <|
        .refl) <|
      .mono setSeg_keeps rfl) <|
  .mono modNs_keeps rfl

theorem nsLinkLost_keeps {src : Nat} {s : State} : KeepsBut [.records, .ns] s (nsLinkLost src s) := by
  unfold nsLinkLost
  exact .after modNs_keeps rfl <| .foldl fun _ _ => txAllFail_keeps

theorem nsLinkBack_keeps {s : State} : KeepsBut [.records, .ns] s (nsLinkBack s) := by
  unfold nsLinkBack
  exact .after modNs_keeps rfl <| .foldl fun _ _ => restartSched_keeps

theorem nsSleepCommit_keeps {deep : Bool} {s : State} : KeepsBut [.ns] s (nsSleepCommit deep s) := .foldl fun _ _ => setSeg_keeps

theorem netLatch_keeps {b : Fin 16} {wuf : Option (CanFrame × Nat)} {replayed : Bool} {s : State} :
    KeepsBut [.ns] s (netLatch b wuf replayed s) := setSeg_keeps

theorem nsDieOff_keeps {park : Bool} {s : State} : KeepsBut [.ns] s (nsDieOff park s) := .ite nsField_keeps nsField_keeps

theorem netReplay_keeps {s : State} : KeepsBut [.records, .flt, .pw, .ns] s (netReplay s) :=
  .foldl fun _ _ => by
      split
      · exact .after segWake_keeps rfl <|
          .after netWakeSrc_keeps rfl <| .comp (.ite (.mono (raise_keeps _ _ _) rfl) .refl) <| .mono setSeg_keeps rfl
      · exact .refl

theorem nsStart_keeps {s : State} : KeepsBut [.ns] s (nsStart s) := modNs_keeps

/-! ### Access.lean -/

theorem accEvent_keeps {code target d1 d2 : Nat} {s : State} : KeepsBut [.records] s (accEvent code target d1 d2 s) := emit_keeps _ _ _ _ _ _

theorem setOp_keeps {f : AirOp → AirOp} {s : State} : KeepsBut [.acc] s (setOp f s) := modAcc_keeps

theorem sendDown_keeps {bytes : List Byte} {down resp ans : Nat} {next : AirPhase} {s : State} :
    KeepsBut [.acc] s (sendDown bytes down resp ans next s) := .after setOp_keeps rfl modAcc_keeps

theorem airEnd_keeps {s : State} : KeepsBut [.acc] s (airEnd s) := modAcc_keeps

theorem endRelSession_keeps {cause door : Nat} {s : State} : KeepsBut [.records, .acc] s (endRelSession cause door s) := by
  unfold endRelSession
  split
  · exact .after accEvent_keeps rfl <| .mono modAcc_keeps rfl
  · exact .refl

theorem relWithdraw_keeps {s : State} : KeepsBut [.flt, .ns, .acc] s (relWithdraw s) :=
  .ite .refl <| .comp (.ite (.mono (raise_keeps _ _ _) rfl) .refl) <| .after modAcc_keeps rfl <| .foldl fun _ _ => .mono setCan_keeps rfl

theorem beginRelease_keeps {basis : Nat} {s : State} : KeepsBut [.records, .flt, .ns, .acc] s (beginRelease basis s) :=
  .after accEvent_keeps rfl <|
  .after releaseEndDone_keeps rfl <| .after modAcc_keeps rfl <| .after relWithdraw_keeps rfl <| .ite .refl <| .mono endRelSession_keeps rfl

theorem nextCoil_keeps {s : State} : KeepsBut [.records, .flt, .ns, .acc] s (nextCoil s) := by
  unfold nextCoil
  split
  · exact .refl
  · exact .comp (by
          dsimp only
          split
          · exact .mono setOp_keeps rfl
          · exact .comp (.ite (.after (finish_keeps _ _ _ _) rfl beginRelease_keeps) <|
                .ite (.mono (finish_keeps _ _ _ _) rfl) <| .mono (finish_keeps _ _ _ _) rfl) <|
              .mono airEnd_keeps rfl) <|
      .mono modAcc_keeps rfl

theorem nextHead_keeps {s : State} : KeepsBut [.records, .flt, .ns, .acc] s (nextHead s) := by
  unfold nextHead
  split
  · exact .refl
  · split
    · exact .mono setOp_keeps rfl
    · exact .ite nextCoil_keeps <| .ite (.mono setOp_keeps rfl) <| .after nextCoil_keeps rfl <| .mono (raise_keeps _ _ _) rfl

theorem airFails_keeps {raised noAnswer : Bool} {s : State} : KeepsBut [.records, .flt, .acc] s (airFails raised noAnswer s) := by
  unfold airFails
  split
  · exact .refl
  extract_lets s₁
  refine .comp (t := s₁) ?_ <| .ite (.mono (raise_keeps _ _ _) rfl) .refl
  split
  · exact .mono setOp_keeps rfl
  · exact .mono setOp_keeps rfl
  · exact .ite (.after (finishFree_keeps _ _ _) rfl <| .mono airEnd_keeps rfl) <| .after (finish_keeps _ _ _ _) rfl <| .mono airEnd_keeps rfl

theorem execFieldStart_keeps {i : Nat} {s : State} : OutKeeps [.records, .flt, .ns, .acc] s (execFieldStart i s) :=
  .next <|
  .whenOn fun _ => by
      split
      · exact .refl
      · exact .ite .refl <|
          .comp (.ite (.after setOp_keeps rfl <| .mono modAcc_keeps rfl) <|
            .after nextCoil_keeps rfl <|
            .after setOp_keeps rfl <| .after (raise_keeps _ _ _) rfl <| .after accEvent_keeps rfl <| .mono modAcc_keeps rfl) <|
          .mono modAcc_keeps rfl

theorem execWup_keeps {seed : Byte} {s : State} : OutKeeps [.acc] s (execWup seed s) :=
  .next <|
  .whenOn fun _ => by
      split
      · exact .refl
      · exact .ite .refl <| .after setOp_keeps rfl modAcc_keeps

theorem execHalt_keeps {s : State} : OutKeeps [.records, .flt, .ns, .acc] s (execHalt s) :=
  .next <|
  .whenOn fun _ => by
      split
      · exact .refl
      · exact .ite .refl <|
          .comp (by
              dsimp only
              split
              · exact .after nextHead_keeps rfl <| .mono setOp_keeps rfl
              · exact .after nextHead_keeps rfl <| .mono setOp_keeps rfl
              · exact .after (finish_keeps _ _ _ _) rfl <| .mono airEnd_keeps rfl) <|
          .mono modAcc_keeps rfl

theorem execAuthA_keeps {rnd : BitVec 64} {s : State} : OutKeeps [.acc] s (execAuthA rnd s) :=
  .next <|
  .whenOn fun _ => by
      split
      · exact .refl
      · exact .ite .refl <| .after sendDown_keeps rfl setOp_keeps

theorem execAuthB_keeps {s : State} : OutKeeps [.acc] s (execAuthB s) :=
  .next <|
  .whenOn fun _ => by
      split
      · exact .refl
      · exact .ite .refl sendDown_keeps

theorem execRead_keeps {s : State} : OutKeeps [.acc] s (execRead s) :=
  .next <|
  .whenOn fun _ => by
      split
      · exact .refl
      · exact .ite .refl <| .after sendDown_keeps rfl setOp_keeps

theorem execWrite_keeps {s : State} : OutKeeps [.acc] s (execWrite s) :=
  .next <|
  .whenOn fun _ => by
      split
      · exact .refl
      · exact .ite .refl <| .after sendDown_keeps rfl setOp_keeps

theorem slotAnswer_keeps {o : AirOp} {k start : Nat} {a : TokenAnswer} {s : State} :
    KeepsBut [.records, .flt, .ns, .acc] s (slotAnswer o k start a s) := by
  unfold slotAnswer
  dsimp only
  split
  · exact .ite (.ite (.mono setOp_keeps rfl) <| .after nextHead_keeps rfl <| .mono setOp_keeps rfl) .refl
  · exact .ite (.ite (.after setOp_keeps rfl <| .mono setOp_keeps rfl) <| .after nextHead_keeps rfl <| .after setOp_keeps rfl <|
          .mono setOp_keeps rfl) <|
      .refl
  · exact .ite .refl <| by
        split
        · exact .ite (.after setOp_keeps rfl <| .mono setOp_keeps rfl) <|
            .after nextHead_keeps rfl <| .after setOp_keeps rfl <| .mono setOp_keeps rfl
        · exact .comp (.ite (.after setOp_keeps rfl <| .mono setOp_keeps rfl) <|
              .after nextHead_keeps rfl <| .after setOp_keeps rfl <| .mono setOp_keeps rfl) <|
            .ite (.mono (raise_keeps _ _ _) rfl) .refl

theorem tokenFound_keeps {o : AirOp} {s : State} : KeepsBut [.records, .flt, .ns, .acc] s (tokenFound o s) :=
  .after (finish_keeps _ _ _ _) rfl <| .comp (.ite beginRelease_keeps .refl) <| .mono airEnd_keeps rfl

theorem answerLate_keeps {s : State} : KeepsBut [.records, .flt, .acc] s (answerLate s) := by
  unfold answerLate
  split
  · exact .refl
  · exact .comp (by
          dsimp only
          split
          · exact airFails_keeps
          · exact airFails_keeps
          · exact .mono setOp_keeps rfl) <|
      .mono (raise_keeps _ _ _) rfl

theorem exchange_keeps {may : List Safety.Part} {o : AirOp} {len : Nat} {a : TokenAnswer} {ok : List Byte → State → State} {s : State}
    (hm : Within [.records, .flt, .acc] may) (h : ∀ p s, KeepsBut may s (ok p s)) : KeepsBut may s (exchange o len a ok s) := by
  have fails {lost odd s} : KeepsBut may s (airFails lost odd s) := .mono airFails_keeps hm
  have late {s} : KeepsBut may s (answerLate s) := .mono (a := [.records, .flt, .acc]) (.mono answerLate_keeps rfl) hm
  have set {f s} : KeepsBut may s (setOp f s) := .mono (a := [.records, .flt, .acc]) (.mono setOp_keeps rfl) hm
  unfold exchange
  split
  · exact .ite fails .refl
  · exact .ite (.comp fails set) .refl
  · refine .ite .refl <| .ite (.comp late set) ?_
    split
    · exact .comp fails set
    · exact .comp (h _ _) set

theorem execTokenAnswer_keeps {a : TokenAnswer} {s : State} : OutKeeps [.records, .flt, .ns, .acc] s (execTokenAnswer a s) :=
  .next <|
  .whenOn fun _ => by
      split
      · exact .refl
      · split
        · exact slotAnswer_keeps
        · exact exchange_keeps rfl fun _ _ => .ite (.mono setOp_keeps rfl) <| .mono airFails_keeps rfl
        · exact exchange_keeps rfl fun _ _ => .ite (.ite tokenFound_keeps <| .mono setOp_keeps rfl) <| .mono airFails_keeps rfl
        · exact exchange_keeps rfl fun _ _ => .ite (.after (finish_keeps _ _ _ _) rfl <| .mono airEnd_keeps rfl) <| .mono airFails_keeps rfl
        · exact .refl

theorem startSearch_keeps {kind : AirKind} {d : Desc} {uid : Nat} {s : State} : KeepsBut [.acc] s (startSearch kind d uid s) := modAcc_keeps

theorem execTokenSearch_keeps {o : Origin} {s : State} : OutKeeps [.records, .acc] s (execTokenSearch o s) :=
  .runOut rfl fun _ _ _ => .mono startSearch_keeps rfl

theorem execReleaseStart_keeps {o : Origin} {s : State} : OutKeeps [.records, .acc] s (execReleaseStart o s) :=
  .runOut rfl fun _ _ _ => .mono startSearch_keeps rfl

theorem endRelease_keeps {uid : Option Nat} {s : State} : KeepsBut [.records, .acc] s (endRelease uid s) := by
  unfold endRelease
  split
  · exact .refl
  · exact .after modAcc_keeps rfl <| .mono accEvent_keeps rfl

theorem execReleaseEnd_keeps {o : Origin} {s : State} : OutKeeps [.records, .acc] s (execReleaseEnd o s) :=
  .runOut rfl fun _ _ _ => endRelease_keeps

theorem startToken_keeps {kind : AirKind} {d : Desc} {uid : Nat} {s : State} : KeepsBut [.acc] s (startToken kind d uid s) := modAcc_keeps

theorem execTokenRead_keeps {o : Origin} {s : State} : OutKeeps [.records, .acc] s (execTokenRead o s) :=
  .runOut rfl fun _ _ _ => .mono startToken_keeps rfl

theorem execTokenWrite_keeps {o : Origin} {s : State} : OutKeeps [.records, .acc] s (execTokenWrite o s) :=
  .runOut rfl fun _ _ _ => .mono startToken_keeps rfl

theorem execKeyWrite_keeps {o : Origin} {b : BlockStep} {s : State} :
    OutKeeps [.records, .flt, .hw, .keys, .acc] s (execKeyWrite o b s) :=
  runBlock_keeps rfl fun _ _ _ _ => by
      dsimp only
      split
      · exact .after (finishFree_keeps _ _ _) rfl <| .mono (raise_keeps _ _ _) rfl
      · exact .ite (.mono (finishFree_keeps _ _ _) rfl) <|
          .after (finishRecorded_keeps _ _ _ _ _ _ _) rfl <| .comp (.ite (.mono modAcc_keeps rfl) .refl) <| .mono keysField_keeps rfl

theorem execKeyQuery_keeps {o : Origin} {s : State} : OutKeeps [.records] s (execKeyQuery o s) :=
  .runOut rfl fun _ _ _ => finish_keeps _ _ _ _

theorem relPut_keeps {st basis : Nat} {s : State} : KeepsBut [.ns, .acc] s (relPut st basis s) :=
  .after addBuf_keeps rfl <| .mono modAcc_keeps rfl

theorem execReleaseFrame_keeps {s : State} : OutKeeps [.records, .flt, .ns, .acc] s (execReleaseFrame s) :=
  .next <|
  .whenOn fun _ => by
      split
      · exact .ite (.after relPut_keeps rfl <| .after modAcc_keeps rfl <| .mono relWithdraw_keeps rfl) .refl
      · exact .ite (.comp (.ite (.mono releaseEndDone_keeps rfl) <| .after relPut_keeps rfl <| .mono modAcc_keeps rfl) <|
              .after modAcc_keeps rfl <| .mono relWithdraw_keeps rfl) <|
          .refl

theorem execReleaseSessionTimeout_keeps {s : State} : OutKeeps [.records, .acc] s (execReleaseSessionTimeout s) :=
  .next <| .whenOn fun _ => .onlyIf fun _ => endRelSession_keeps

theorem doorOpened_keeps {n : Nat} {before after : Swi} {s : State} : KeepsBut [.records, .acc] s (doorOpened n before after s) :=
  .ite (.ite endRelSession_keeps endRelSession_keeps) .refl

theorem withDoor_keeps {may : List Safety.Part} {n : Nat} {f : State → State} {s : State} (hm : Within [.records, .acc] may)
    (h : ∀ s, KeepsBut may s (f s)) : KeepsBut may s (withDoor n f s) := .comp (.mono doorOpened_keeps hm) (h s)

theorem swiTrace_keeps {n : Nat} {l : List SwiReading} {s : State} : KeepsBut [.records, .sw, .acc] s (swiTrace n l s) :=
  .comp (withDoor_keeps rfl fun _ => .mono swiSettle_keeps rfl) <| .foldl fun _ _ => withDoor_keeps rfl fun _ => .mono readSwitch_keeps rfl

theorem execDebounceComplete_keeps {n : DebIn} {t : DebTrace} {s : State} :
    OutKeeps [.records, .flt, .sw, .fs, .acc] s (execDebounceComplete n t s) :=
  .next <| by
    split
    · exact .whenOn fun _ => .mono swiTrace_keeps rfl
    · exact .whenClocked fun _ => .mono debounceField_keeps rfl
    · exact .refl

theorem execLadderInvalid_keeps {n : Fin 48} {l : List SwiReading} {s : State} :
    OutKeeps [.records, .flt, .sw, .acc] s (execLadderInvalid n l s) :=
  .next <| .whenOn fun _ => .after ladderJudge_keeps rfl <| .mono swiTrace_keeps rfl

theorem lfSafe_keeps {src n : Nat} {s : State} : KeepsBut [.records, .acc] s (lfSafe src n s) := by
  unfold lfSafe
  split
  · exact .ite (.after (finish_keeps _ _ _ _) rfl <| .mono airEnd_keeps rfl) .refl
  · exact .refl

theorem relSafe_keeps {s : State} : KeepsBut [.records, .acc] s (relSafe s) := .ite .refl endRelease_keeps

theorem asDieOff_keeps {s : State} : KeepsBut [.acc] s (asDieOff s) := accField_keeps

theorem asSupplyLoss_keeps {s : State} : KeepsBut [.acc] s (asSupplyLoss s) := accField_keeps

theorem asStart_keeps {ok : Bool} {s : State} : KeepsBut [.flt, .acc] s (asStart ok s) :=
  .ite .refl <| .after (raise_keeps _ _ _) rfl <| .mono modAcc_keeps rfl

theorem asReportLost_keeps {s : State} : KeepsBut [.records, .acc] s (asReportLost s) :=
  .ite .refl <| .after (emit_keeps _ _ _ _ _ _) rfl <| .mono modAcc_keeps rfl

/-! ### LoadOps.lean -/

theorem modLd_keeps {f : LoadSt → LoadSt} {s : State} : KeepsBut [.ld] s (modLd f s) := ldField_keeps

theorem setLch_keeps {n : Nat} {f : Lch → Lch} {s : State} : KeepsBut [.ld] s (setLch n f s) := ldField_keeps

theorem setBank_keeps {b : Nat} {f : Bank → Bank} {s : State} : KeepsBut [.ld] s (setBank b f s) := ldField_keeps

theorem lchEvent_keeps {n code d1 d2 : Nat} {s : State} : KeepsBut [.records] s (lchEvent n code d1 d2 s) := emitOn_keeps _ _ _ _ _ _ _

theorem noteLimit_keeps {n : Nat} {was : Bool} {s : State} : KeepsBut [.records] s (noteLimit n was s) := .ite .refl lchEvent_keeps

theorem noteSat_keeps {n : Nat} {was : Bool} {s : State} : KeepsBut [.records] s (noteSat n was s) := .ite .refl lchEvent_keeps

theorem syncGang_keeps {n : Nat} {s : State} : KeepsBut [.ld] s (syncGang n s) := .foldl fun _ _ => .ite .refl setLch_keeps

theorem newPeriod_keeps {n : Nat} {s : State} : KeepsBut [.records, .ld] s (newPeriod n s) :=
  .after syncGang_keeps rfl <| .after noteSat_keeps rfl <| .after noteLimit_keeps rfl <| .mono setLch_keeps rfl

theorem forceLeaves_keeps {n : Nat} {s : State} : KeepsBut [.ld] s (forceLeaves n s) := .foldl fun _ _ => setLch_keeps

theorem resumeDwell_keeps {n : Nat} {s : State} : KeepsBut [.ld] s (resumeDwell n s) := .foldl fun _ _ => setLch_keeps

theorem noteCurrent_keeps {n iMa : Nat} {s : State} : KeepsBut [.ld] s (noteCurrent n iMa s) := setLch_keeps

theorem turnOff_keeps {n : Nat} {s : State} : KeepsBut [.records, .ld] s (turnOff n s) :=
  .after syncGang_keeps rfl <| .after noteSat_keeps rfl <| .after noteLimit_keeps rfl <| .mono setLch_keeps rfl

theorem turnOn_keeps {n m d : Nat} {s : State} : KeepsBut [.records, .ld] s (turnOn n m d s) :=
  .after forceLeaves_keeps rfl <| .after newPeriod_keeps rfl <| .mono setLch_keeps rfl

theorem endWaits_keeps {l : List NextReq} {status : Nat} {src : Option Nat} {s : State} : KeepsBut [.records] s (endWaits l status src s) :=
  .foldl fun _ _ => by
      split
      · exact finish_keeps _ _ _ _
      · exact finishFree_keeps _ _ _
      · exact .refl

theorem tookState_keeps {n : Nat} {l : List NextReq} {m d : Nat} {wasOff : Bool} {s : State} :
    KeepsBut [.records, .ld] s (tookState n l m d wasOff s) :=
  .after setLch_keeps rfl <|
  .foldl fun _ _ => by
      split
      · exact .ite (.mono (finish_keeps _ _ _ _) rfl) <| .mono (finishFree_keeps _ _ _) rfl
      · exact .refl

theorem applyLch_keeps {n : Nat} {s : State} : KeepsBut [.records, .ld] s (applyLch n s) :=
  .ite (.comp (.ite (.after endWaits_keeps rfl <| .mono setLch_keeps rfl) .refl) <| .ite .refl turnOff_keeps) <|
  .ite (.after tookState_keeps rfl <| .after turnOn_keeps rfl <| .mono setLch_keeps rfl) <| .ite .refl <| .mono setLch_keeps rfl

theorem takeWaits_keeps {n : Nat} {s : State} : KeepsBut [.records, .ld] s (takeWaits n s) := by
  unfold takeWaits
  dsimp only
  split
  · exact newPeriod_keeps
  · exact .after tookState_keeps rfl <| .after newPeriod_keeps rfl <| .mono setLch_keeps rfl

theorem asked_keeps {n uid : Nat} {timedMs : Option Nat} {wasOff : Bool} {s : State} :
    KeepsBut [.records, .ld] s (asked n uid timedMs wasOff s) := by
  unfold asked
  dsimp only
  split
  · exact .mono setLch_keeps rfl
  · exact .ite (.mono (finish_keeps _ _ _ _) rfl) <| .mono setLch_keeps rfl

theorem endTimed_keeps {n status : Nat} {src : Option Nat} {s : State} : KeepsBut [.records, .ld] s (endTimed n status src s) := by
  unfold endTimed
  split
  · exact .refl
  · exact .comp (by
          dsimp only
          split
          · exact .mono (finish_keeps _ _ _ _) rfl
          · exact .mono (finishFree_keeps _ _ _) rfl) <|
      .mono setLch_keeps rfl

theorem lchSafe_keeps {src n : Nat} {s : State} : KeepsBut [.records, .ld] s (lchSafe src n s) :=
  .ite .refl <|
  .comp (.ite (.after resumeDwell_keeps rfl newPeriod_keeps) <| .mono syncGang_keeps rfl) <|
  .comp (.ite (.mono setLch_keeps rfl) .refl) <|
  .after applyLch_keeps rfl <| .after setLch_keeps rfl <| .after endWaits_keeps rfl <| .after setLch_keeps rfl endTimed_keeps

theorem lchUnsafe_keeps {n : Nat} {s : State} : KeepsBut [.records, .ld] s (lchUnsafe n s) :=
  .ite .refl <| .after syncGang_keeps rfl <| .after applyLch_keeps rfl <| .mono setLch_keeps rfl

theorem protOff_keeps {m cause cur : Nat} {s : State} : KeepsBut [.records, .flt, .ld] s (protOff m cause cur s) :=
  .comp (.ite (.after endTimed_keeps rfl <| .after (raise_keeps _ _ _) rfl <| .mono lchEvent_keeps rfl) .refl) <|
  .after endWaits_keeps rfl <|
  .after applyLch_keeps rfl <|
  .comp (.ite (.mono setLch_keeps rfl) .refl) <| .after setLch_keeps rfl <| .after (raise_keeps _ _ _) rfl <| .mono lchEvent_keeps rfl

theorem tryRestart_keeps {n : Nat} {s : State} : KeepsBut [.records, .ld] s (tryRestart n s) :=
  .ite .refl <|
  .ite .refl <|
  .ite (.after syncGang_keeps rfl <| .after applyLch_keeps rfl <| .mono setLch_keeps rfl) <|
  .after lchEvent_keeps rfl <| .after syncGang_keeps rfl <| .after applyLch_keeps rfl <| .mono setLch_keeps rfl

theorem freezeBank_keeps {b : Nat} {s : State} : KeepsBut [.ld] s (freezeBank b s) := .comp (.foldl fun _ _ => setLch_keeps) setBank_keeps

/-! ### Bridge.lean -/

theorem setHb_keeps {h : Nat} {f : Hb → Hb} {s : State} : KeepsBut [.hbs] s (setHb h f s) := hbsField_keeps

theorem hbEvent_keeps {h code d1 d2 : Nat} {s : State} : KeepsBut [.records] s (hbEvent h code d1 d2 s) := emitOn_keeps _ _ _ _ _ _ _

theorem mirrorPos_keeps {h : Nat} {s : State} : KeepsBut [.hbs] s (mirrorPos h s) := setHb_keeps

theorem driveEnds_keeps {h : Nat} {s : State} : KeepsBut [.hbs] s (driveEnds h s) := setHb_keeps

theorem toCoast_keeps {h : Nat} {s : State} : KeepsBut [.hbs] s (toCoast h s) := .after setHb_keeps rfl driveEnds_keeps

theorem finishOp_keeps {h : Nat} {o : BrOp} {s : State} : KeepsBut [.records] s (finishOp h o s) :=
  .comp (by
      unfold finishOp
      dsimp only
      split
      · exact finish_keeps _ _ _ _
      · exact .refl) <| by
    split
    · exact finish_keeps _ _ _ _
    · exact .refl

theorem dropOp_keeps {h : Nat} {f : BrOp → BrOp} {s : State} : KeepsBut [.records, .hbs] s (dropOp h f s) := by
  unfold dropOp
  split
  · exact .after finishOp_keeps rfl <| .mono setHb_keeps rfl
  · exact .refl

theorem coastEnd_keeps {h : Nat} {s : State} : KeepsBut [.records, .hbs] s (coastEnd h s) :=
  .after dropOp_keeps rfl <| .after mirrorPos_keeps rfl <| .mono toCoast_keeps rfl

theorem endsWith_keeps {h status reason src : Nat} {s : State} : KeepsBut [.hbs] s (endsWith h status reason src s) := setHb_keeps

theorem endNow_keeps {h status reason src : Nat} {s : State} : KeepsBut [.records, .hbs] s (endNow h status reason src s) :=
  .after coastEnd_keeps rfl <| .mono endsWith_keeps rfl

theorem brakeFor_keeps {h len : Nat} {next : AfterBrake} {s : State} : KeepsBut [.hbs] s (brakeFor h len next s) :=
  .after setHb_keeps rfl driveEnds_keeps

theorem brakeHold_keeps {h : Nat} {s : State} : KeepsBut [.hbs] s (brakeHold h s) := .after setHb_keeps rfl brakeFor_keeps

theorem brakeEnd_keeps {h len status reason src : Nat} {s : State} : KeepsBut [.hbs] s (brakeEnd h len status reason src s) :=
  .after brakeFor_keeps rfl endsWith_keeps

theorem inEffect_keeps {h : Nat} {s : State} : KeepsBut [.records, .hbs] s (inEffect h s) := by
  unfold inEffect
  split
  · exact .ite (.after finishOp_keeps rfl <| .mono setHb_keeps rfl) .refl
  · exact .refl

theorem takeDuty_keeps {h : Nat} {s : State} : KeepsBut [.records, .hbs] s (takeDuty h s) :=
  .after inEffect_keeps rfl <| .mono setHb_keeps rfl

theorem startDrive_keeps {h dir : Nat} {s : State} : KeepsBut [.records, .hbs] s (startDrive h dir s) :=
  .after takeDuty_keeps rfl <| .mono setHb_keeps rfl

theorem driveDir_keeps {h dir : Nat} {s : State} : KeepsBut [.records, .hbs] s (driveDir h dir s) := by
  unfold driveDir
  extract_lets b s₁
  refine .ite (.comp (t := s₁) ?_ <| .mono setHb_keeps rfl) <| .ite startDrive_keeps ?_
  · split
    · exact .ite takeDuty_keeps <| .mono setHb_keeps rfl
    · exact .refl
  · split
    · exact .mono setHb_keeps rfl
    · exact .mono brakeFor_keeps rfl

theorem replaced_keeps {h : Nat} {s : State} : KeepsBut [.records, .hbs] s (replaced h s) := dropOp_keeps

theorem startOp_keeps {h : Nat} {o : BrOp} {s : State} : KeepsBut [.records, .hbs] s (startOp h o s) := .after setHb_keeps rfl replaced_keeps

theorem withBridge_keeps {may : List Safety.Part} {d : Desc} {f : BrCfg → State → State} {s : State} (h : ∀ c s, KeepsBut may s (f c s)) :
    KeepsBut may s (withBridge d f s) := by
  unfold withBridge
  split
  · exact h _ s
  · exact .refl

theorem brDone_keeps {d : Desc} {uid : Nat} {c : BrCfg} {s : State} : KeepsBut [.records] s (brDone d uid c s) := finish_keeps _ _ _ _

theorem execBrDrive_keeps {o : Origin} {s : State} : OutKeeps [.records, .hbs] s (execBrDrive o s) :=
  .runOut rfl fun _ _ _ =>
    withBridge_keeps fun _ _ => by
        dsimp only
        split
        · exact .after brDone_keeps rfl <| .after coastEnd_keeps rfl replaced_keeps
        · exact .after brDone_keeps rfl <| .after brakeHold_keeps rfl startOp_keeps
        · exact .after driveDir_keeps rfl startOp_keeps

theorem execBrMove_keeps {o : Origin} {s : State} : OutKeeps [.records, .hbs] s (execBrMove o s) :=
  .runOut rfl fun _ _ _ =>
    withBridge_keeps fun _ _ =>
      .ite (.after brDone_keeps rfl <| .comp (.ite (.after brakeEnd_keeps rfl <| .mono setHb_keeps rfl) .refl) replaced_keeps) <|
      .after driveDir_keeps rfl startOp_keeps

theorem execBrPulse_keeps {o : Origin} {s : State} : OutKeeps [.records, .hbs] s (execBrPulse o s) :=
  .runOut rfl fun _ _ _ => withBridge_keeps fun _ _ => .after driveDir_keeps rfl startOp_keeps

theorem execWiperSet_keeps {o : Origin} {s : State} : OutKeeps [.records, .hbs] s (execWiperSet o s) :=
  .runOut rfl fun _ _ _ =>
    withBridge_keeps fun _ _ => by
        dsimp only
        split
        · exact .after setHb_keeps rfl <| .mono finishOp_keeps rfl
        · exact .after driveDir_keeps rfl startOp_keeps

theorem execBrQuery_keeps {o : Origin} {s : State} : OutKeeps [.records] s (execBrQuery o s) :=
  .runOut rfl fun _ _ _ => finish_keeps _ _ _ _

theorem execBrPosSet_keeps {o : Origin} {s : State} : OutKeeps [.records, .hbs] s (execBrPosSet o s) :=
  .runOut rfl fun _ _ _ => withBridge_keeps fun _ _ => .after brDone_keeps rfl <| .after mirrorPos_keeps rfl <| .mono setHb_keeps rfl

theorem endSet_keeps {h status : Nat} {s : State} : KeepsBut [.records, .hbs] s (endSet h status s) := by
  unfold endSet
  split
  · exact .after (finish_keeps _ _ _ _) rfl <| .mono setHb_keeps rfl
  · exact .refl

theorem applyHb_keeps {h : Nat} {s : State} : KeepsBut [.records, .hbs] s (applyHb h s) :=
  .ite .refl <| .comp (.ite endSet_keeps .refl) <| .mono setHb_keeps rfl

theorem dutyIn_keeps {h : Nat} {s : State} : KeepsBut [.records, .hbs] s (dutyIn h s) := .ite takeDuty_keeps applyHb_keeps

theorem dutyTick_keeps {s : State} : KeepsBut [.records, .hbs] s (dutyTick s) := .foldl fun _ _ => dutyIn_keeps

theorem execHbSet_keeps {o : Origin} {s : State} : OutKeeps [.records, .hbs] s (execHbSet o s) :=
  .runOut rfl fun _ _ _ =>
    .comp (.ite (.mono setHb_keeps rfl) <| .after (finish_keeps _ _ _ _) rfl applyHb_keeps) <| .after setHb_keeps rfl endSet_keeps

theorem hbTrip_keeps {leg cause cur : Nat} {s : State} : KeepsBut [.records, .flt, .hbs] s (hbTrip leg cause cur s) :=
  .comp (.ite (.mono endNow_keeps rfl) <| .after applyHb_keeps rfl <| .mono endSet_keeps rfl) <|
  .after setHb_keeps rfl <| .comp (.ite .refl <| .mono setHb_keeps rfl) <| .after (raise_keeps _ _ _) rfl <| .mono hbEvent_keeps rfl

theorem execPeakTimeTrip_keeps {h : Fin 16} {s : State} : OutKeeps [.records, .flt, .hbs] s (execPeakTimeTrip h s) :=
  .next <| .whenClocked fun _ => .ite hbTrip_keeps .refl

theorem execHbShortCircuit_keeps {h : Fin 16} {i : Nat} {s : State} : OutKeeps [.records, .flt, .hbs] s (execHbShortCircuit h i s) :=
  .next <| .whenClocked fun _ => .ite (.after setHb_keeps rfl <| .after hbTrip_keeps rfl <| .mono setHb_keeps rfl) .refl

theorem execHbOvertemp_keeps {h : Fin 16} {t : Int} {s : State} : OutKeeps [.records, .flt, .hbs] s (execHbOvertemp h t s) :=
  .next <| .whenClocked fun _ => .ite (.after hbTrip_keeps rfl <| .mono setHb_keeps rfl) .refl

theorem dieHotHbs_keeps {b : Nat} {s : State} : KeepsBut [.records, .flt, .hbs] s (dieHotHbs b s) :=
  .foldl fun _ _ => .ite (.after setHb_keeps rfl hbTrip_keeps) .refl

theorem execHbHeldClear_keeps {h : Fin 16} {s : State} : OutKeeps [.hbs] s (execHbHeldClear h s) :=
  .next <|
  .whenClocked fun _ => by
      split
      · exact .ite (.after setHb_keeps rfl setHb_keeps) .refl
      · exact .refl

theorem noteHb_keeps {h : Nat} {x : HbSample} {s : State} : KeepsBut [.hbs] s (noteHb h x s) := setHb_keeps

theorem pinchReact_keeps {h iRip : Nat} {s : State} : KeepsBut [.records, .flt, .hbs] s (pinchReact h iRip s) :=
  .after brakeFor_keeps rfl <| .after setHb_keeps rfl <| .after (raise_keeps _ _ _) rfl <| .mono hbEvent_keeps rfl

theorem pinchJudge_keeps {h i v : Nat} {s : State} : KeepsBut [.records, .flt, .hbs] s (pinchJudge h i v s) :=
  .ite .refl <| .comp (.ite pinchReact_keeps .refl) <| .mono setHb_keeps rfl

theorem rippleArrive_keeps {h : Nat} {s : State} : KeepsBut [.hbs] s (rippleArrive h s) := by
  unfold rippleArrive
  dsimp only
  split
  · exact .ite (.ite (.after brakeFor_keeps rfl setHb_keeps) setHb_keeps) <| .ite brakeEnd_keeps .refl
  · exact .refl

theorem execRipple_keeps {h : Fin 16} {i v period : Nat} {s : State} : OutKeeps [.records, .flt, .hbs] s (execRipple h i v period s) :=
  .next <|
  .whenClocked fun _ => by
      dsimp only
      split
      · exact .refl
      · exact .ite .refl <|
          .ite (.after mirrorPos_keeps rfl <| .mono setHb_keeps rfl) <|
          .comp (.ite (.after rippleArrive_keeps rfl pinchJudge_keeps) .refl) <| .mono setHb_keeps rfl

theorem execPinchArm_keeps {h : Fin 16} {s : State} : OutKeeps [.hbs] s (execPinchArm h s) :=
  .next <| .whenClocked fun _ => .ite setHb_keeps .refl

theorem execBackEmfCountEnd_keeps {h : Fin 16} {s : State} : OutKeeps [.hbs] s (execBackEmfCountEnd h s) :=
  .next <| .whenClocked fun _ => .ite (.after mirrorPos_keeps rfl setHb_keeps) .refl

theorem execStall_keeps {h : Fin 16} {s : State} : OutKeeps [.flt, .hbs] s (execStall h s) :=
  .next <|
  .whenClocked fun _ => by
      dsimp only
      split
      · exact .refl
      · exact .ite .refl <|
          .ite (.after brakeEnd_keeps rfl <| .mono setHb_keeps rfl) <|
          .after brakeEnd_keeps rfl <| .after (raise_keeps _ _ _) rfl <| .mono setHb_keeps rfl

theorem wiperEvent_keeps {h : Nat} {s : State} : KeepsBut [.records] s (wiperEvent h s) := by
  unfold wiperEvent
  split
  · exact hbEvent_keeps
  · exact .refl

theorem execBrakeEnd_keeps {h : Fin 16} {s : State} : OutKeeps [.records, .hbs] s (execBrakeEnd h s) :=
  .next <|
  .whenClocked fun _ => by
      dsimp only
      split
      · exact .refl
      · exact .ite .refl <| by
            split
            · exact startDrive_keeps
            · exact .after startDrive_keeps rfl <| .mono setHb_keeps rfl
            · exact .after wiperEvent_keeps rfl <| .mono toCoast_keeps rfl
            · exact .after coastEnd_keeps rfl <| .mono wiperEvent_keeps rfl
            · exact coastEnd_keeps

theorem reachPark_keeps {h : Nat} {o : BrOp} {s : State} : KeepsBut [.records, .hbs] s (reachPark h o s) :=
  .comp (by
      unfold reachPark
      dsimp only
      split
      · exact .refl
      · exact .after inEffect_keeps rfl <| .mono brakeFor_keeps rfl
      · exact .after brakeFor_keeps rfl <| .mono endsWith_keeps rfl) <|
  .mono setHb_keeps rfl

theorem parkSettle_keeps {h now : Nat} {s : State} : KeepsBut [.records, .hbs] s (parkSettle h now s) := by
  unfold parkSettle
  extract_lets b active s₁
  refine .ite .refl <| .comp (t := s₁) ?_ <| .mono setHb_keeps rfl
  split
  · exact .refl
  · exact .ite reachPark_keeps .refl

theorem parkRead_keeps {h : Nat} {x : SwiReading} {s : State} : KeepsBut [.records, .hbs] s (parkRead h x s) := by
  unfold parkRead
  split
  · exact .refl
  · exact .ite .refl <| .after setHb_keeps rfl parkSettle_keeps

theorem execWiperParked_keeps {x : ParkReading} {s : State} : OutKeeps [.records, .hbs] s (execWiperParked x s) :=
  .next <| .whenClocked fun _ => .after parkSettle_keeps rfl <| .foldl fun _ _ => parkRead_keeps

theorem execWiperInterval_keeps {h : Fin 16} {s : State} : OutKeeps [.records, .hbs] s (execWiperInterval h s) :=
  .next <|
  .whenClocked fun _ => by
      dsimp only
      split
      · exact .ite driveDir_keeps .refl
      · exact .refl

theorem execParkTimeout_keeps {h : Fin 16} {s : State} : OutKeeps [.records, .flt, .hbs] s (execParkTimeout h s) :=
  .next <|
  .whenClocked fun _ => by
      dsimp only
      split
      · exact .ite (.after endNow_keeps rfl <| .mono (raise_keeps _ _ _) rfl) .refl
      · exact .refl

theorem execDriveTimeout_keeps {h : Fin 16} {s : State} : OutKeeps [.records, .hbs] s (execDriveTimeout h s) :=
  .next <|
  .whenClocked fun _ => by
      split
      · split
        · exact .ite endNow_keeps .refl
        · exact .refl
      · exact .refl

theorem execPulseEnd_keeps {h : Fin 16} {s : State} : OutKeeps [.hbs] s (execPulseEnd h s) :=
  .next <|
  .whenClocked fun _ => by
      split
      · split
        · exact .ite brakeEnd_keeps .refl
        · exact .refl
      · exact .refl

theorem hbDiagResult_keeps {h res : Nat} {onState : Bool} {s : State} : KeepsBut [.records, .flt, .hbs] s (hbDiagResult h res onState s) :=
  .comp (.ite (.mono (raise_keeps _ _ _) rfl) <| .ite (.mono (raise_keeps _ _ _) rfl) .refl) <|
  .ite .refl <| .after hbEvent_keeps rfl <| .mono setHb_keeps rfl

theorem execHbOffStateDiagnosis_keeps {h : Fin 16} {v1 v2 v3 : Nat} {s : State} :
    OutKeeps [.records, .flt, .hbs] s (execHbOffStateDiagnosis h v1 v2 v3 s) :=
  .next <| .whenOn fun _ => .ite (.after hbDiagResult_keeps rfl <| .mono setHb_keeps rfl) .refl

theorem execHbDiagRun_keeps {o : Origin} {v1 v2 v3 : Nat} {s : State} :
    OutKeeps [.records, .flt, .hbs] s (execHbDiagRun o v1 v2 v3 s) :=
  .runOut rfl fun _ _ _ => .after (finish_keeps _ _ _ _) rfl <| .after hbDiagResult_keeps rfl <| .mono setHb_keeps rfl

theorem execHbOnStateOpenLoad_keeps {h : Fin 16} {s : State} : OutKeeps [.records, .flt, .hbs] s (execHbOnStateOpenLoad h s) :=
  .next <|
  .whenOn fun _ => by
      split
      · exact .ite (.after hbDiagResult_keeps rfl <| .mono setHb_keeps rfl) .refl
      · exact .refl

theorem hbSafe_keeps {src h : Nat} {s : State} : KeepsBut [.records, .hbs] s (hbSafe src h s) := by
  unfold hbSafe
  split
  · exact .after applyHb_keeps rfl <| .after setHb_keeps rfl endSet_keeps
  · exact .comp (by
          dsimp only
          split
          · exact .refl
          · exact .ite .refl <| .ite endNow_keeps <| .after brakeHold_keeps rfl <| .after setHb_keeps rfl dropOp_keeps
          · exact .ite .refl <| .ite endNow_keeps <| .after driveDir_keeps rfl <| .after setHb_keeps rfl dropOp_keeps
          · exact endNow_keeps) <|
      .mono setHb_keeps rfl

theorem hbUnsafe_keeps {h : Nat} {s : State} : KeepsBut [.records, .hbs] s (hbUnsafe h s) :=
  .ite .refl <| .comp (.ite endNow_keeps applyHb_keeps) <| .mono setHb_keeps rfl

theorem hbStart_keeps {lost : Bool} {s : State} : KeepsBut [.flt, .hbs] s (hbStart lost s) :=
  .comp (.ite (.foldl fun _ _ => .mono (raise_keeps _ _ _) rfl) .refl) <| .mono hbsField_keeps rfl

/-! ### Load.lean -/

theorem request_keeps {n m d : Nat} {s : State} : KeepsBut [.records, .ld] s (request n m d s) :=
  .after applyLch_keeps rfl <| .after setLch_keeps rfl endTimed_keeps

theorem execLchSet_keeps {o : Origin} {s : State} : OutKeeps [.records, .ld] s (execLchSet o s) :=
  .runOut rfl fun _ _ _ => .after asked_keeps rfl request_keeps

theorem execLchTimed_keeps {o : Origin} {s : State} : OutKeeps [.records, .ld] s (execLchTimed o s) :=
  .runOut rfl fun _ _ _ => .after asked_keeps rfl request_keeps

theorem execLchSetMask_keeps {o : Origin} {s : State} : OutKeeps [.records, .ld] s (execLchSetMask o s) :=
  .runOut rfl fun _ _ _ => .after (finish_keeps _ _ _ _) rfl <| .foldl fun _ _ => request_keeps

theorem execLchQuery_keeps {o : Origin} {s : State} : OutKeeps [.records] s (execLchQuery o s) :=
  .runOut rfl fun _ _ _ => finish_keeps _ _ _ _

theorem execHeatQuery_keeps {o : Origin} {s : State} : OutKeeps [.records] s (execHeatQuery o s) :=
  .runOut rfl fun _ _ _ => finish_keeps _ _ _ _

theorem execTimedEnd_keeps {n : Fin 64} {s : State} : OutKeeps [.records, .ld] s (execTimedEnd n s) :=
  .next <|
  .whenOn fun _ => by
      split
      · exact .refl
      · exact .ite .refl <|
          .after (finish_keeps _ _ _ _) rfl <| .after lchEvent_keeps rfl <| .after applyLch_keeps rfl <| .mono setLch_keeps rfl

theorem execLeafStepUp_keeps {n : Fin 64} {i : Nat} {s : State} : OutKeeps [.ld] s (execLeafStepUp n i s) :=
  .next <| .whenClocked fun _ => .ite setLch_keeps .refl

theorem execLeafStepDown_keeps {n : Fin 64} {s : State} : OutKeeps [.ld] s (execLeafStepDown n s) :=
  .next <|
  .whenClocked fun _ => by
      dsimp only
      split
      · exact .ite setLch_keeps .refl
      · exact .refl

theorem execPwmPeriodStart_keeps {n : Fin 64} {i vs : Nat} {s : State} : OutKeeps [.records, .ld] s (execPwmPeriodStart n i vs s) :=
  .next <|
  .whenClocked fun _ =>
    .ite (.ite (.mono noteCurrent_keeps rfl) .refl) <|
    .ite .refl <|
    .after takeWaits_keeps rfl <|
    .after setLch_keeps rfl <| .comp (.ite (.mono setBank_keeps rfl) .refl) <| .ite (.mono setLch_keeps rfl) <| .mono noteCurrent_keeps rfl

theorem execInrushEnd_keeps {n : Fin 64} {s : State} : OutKeeps [.ld] s (execInrushEnd n s) :=
  .next <|
  .whenClocked fun _ => by
      split
      · exact .ite (.after resumeDwell_keeps rfl <| .after syncGang_keeps rfl setLch_keeps) .refl
      · exact .refl

theorem execPreheatEnd_keeps {n : Fin 64} {s : State} : OutKeeps [.ld] s (execPreheatEnd n s) :=
  .next <|
  .whenClocked fun _ => by
      split
      · exact .ite (.after resumeDwell_keeps rfl <| .after syncGang_keeps rfl <| .after setLch_keeps rfl setLch_keeps) .refl
      · exact .refl

theorem applyGrant_keeps {x : Nat × Nat} {s : State} : KeepsBut [.records, .ld] s (applyGrant x s) :=
  .after syncGang_keeps rfl <| .after noteLimit_keeps rfl <| .after setLch_keeps rfl <| .mono setLch_keeps rfl

theorem execBudgetAllocation_keeps {o : OtherLoss} {s : State} : OutKeeps [.records, .flt, .ld] s (execBudgetAllocation o s) :=
  .next <|
  .whenOn fun _ =>
    .ite .refl <|
    .comp (.ite (.mono (raise_keeps _ _ _) rfl) .refl) <| .comp (.foldl fun _ _ => .mono applyGrant_keeps rfl) <| .mono ldField_keeps rfl

theorem balanceGang_keeps {n : Nat} {s : State} : KeepsBut [.ld] s (balanceGang n s) :=
  .ite (.foldl fun _ _ => .after setLch_keeps rfl <| .mono unnamed_keeps rfl) .refl

theorem execGangImbalance_keeps {n : Fin 64} {s : State} : OutKeeps [.flt, .ld] s (execGangImbalance n s) :=
  .next <|
  .whenClocked fun _ => by
      dsimp only
      split
      · exact .ite (.after (raise_keeps _ _ _) rfl <| .mono setLch_keeps rfl) .refl
      · exact .refl

theorem execBankSenseImplausible_keeps {b : Fin 8} {sense : Int} {die : Nat} {s : State} :
    OutKeeps [.flt, .ld] s (execBankSenseImplausible b sense die s) :=
  .next <| .whenClocked fun _ => .ite (.after (raise_keeps _ _ _) rfl <| .mono setBank_keeps rfl) .refl

theorem execBankSensePlausible_keeps {b : Fin 8} {sense : Int} {die : Nat} {s : State} :
    OutKeeps [.ld] s (execBankSensePlausible b sense die s) := .next <| .whenClocked fun _ => .onlyIf fun _ => setBank_keeps

theorem execCpFreezeEnd_keeps {b : Fin 8} {s : State} : OutKeeps [.ld] s (execCpFreezeEnd b s) :=
  .next <| .whenClocked fun _ => .ite setBank_keeps .refl

/-! ### Report.lean -/

theorem writeReport_keeps {s : State} : KeepsBut [.stg] s (writeReport s) := modStg_keeps _ _

theorem rewriteReport_keeps {s : State} : KeepsBut [.stg] s (rewriteReport s) := by
  unfold rewriteReport
  split
  · exact .refl
  · exact modStg_keeps _ _

theorem commitEnds_keeps {c : CommitRun} {status result : Nat} {f : CheckFail} {s : State} :
    KeepsBut [.records, .stg, .hw] s (commitEnds c status result f s) :=
  .comp (by
      unfold commitEnds
      dsimp only
      split
      · exact .after (finishGated_keeps _ _ _ _) rfl <| .mono hwPutAt_keeps rfl
      · exact .mono hwPutAt_keeps rfl) <|
  .mono (modStg_keeps _ _) rfl

theorem commitLinkLost_keeps {src : Nat} {s : State} : KeepsBut [.records, .stg, .hw] s (commitLinkLost src s) := by
  unfold commitLinkLost
  split
  · exact .ite .refl commitEnds_keeps
  · exact .refl

/-! ### PairOps.lean -/

theorem setEng_keeps {e : Nat} {f : Eng → Eng} {s : State} : KeepsBut [.eng] s (setEng e f s) := engField_keeps

theorem setPair_keeps {k : Nat} {f : PairSt → PairSt} {s : State} : KeepsBut [.pairs] s (setPair k f s) := pairsField_keeps

theorem coupleEng_keeps {k : Nat} {s : State} : KeepsBut [.eng] s (coupleEng k s) := setEng_keeps

theorem mirrorShadow_keeps {e : Nat} {s : State} : KeepsBut [.eng, .pairs] s (mirrorShadow e s) :=
  .ite .refl <| .ite (.mono coupleEng_keeps rfl) <| .mono setPair_keeps rfl

theorem engRecord_keeps {kind who cause lane bit pc retired : Nat} {s : State} {reports : List Report} :
    KeepsBut [.hw] s (engRecord kind who cause lane bit pc retired s reports) := hwPutAt_keeps

theorem resumeRuntime_keeps {e : Fin 16} {s : State} : KeepsBut [.eng] s (resumeRuntime e s) :=
  .after setEng_keeps rfl <| .mono unnamed_keeps rfl

theorem endHandlers_keeps {gone : Nat → Bool} {s : State} : KeepsBut [.eng, .pairs] s (endHandlers gone s) :=
  .comp (.foldl fun _ _ => mirrorShadow_keeps) <| .comp (.foldl fun _ _ => .mono resumeRuntime_keeps rfl) <| .mono engField_keeps rfl

theorem stopProgs_keeps {f : Prog → Bool} {s : State} : KeepsBut [.stg, .eng, .pairs] s (stopProgs f s) :=
  .after endHandlers_keeps rfl <| .mono (modStg_keeps _ _) rfl

theorem stopPair_keeps {k : Nat} {s : State} : KeepsBut [.stg, .eng, .pairs] s (stopPair k s) := stopProgs_keeps

theorem restartPair_keeps {k : Nat} {s : State} : KeepsBut [.stg, .eng, .pairs] s (restartPair k s) :=
  .comp (.ite .refl <| .mono coupleEng_keeps rfl) <|
  .after setEng_keeps rfl <| .after setEng_keeps rfl <| .after setPair_keeps rfl <| .mono (modStg_keeps _ _) rfl

theorem pairTestFailed_keeps {k : Nat} {s : State} : KeepsBut [.flt, .pairs] s (pairTestFailed k s) :=
  .after (raise_keeps _ _ _) rfl <| .mono setPair_keeps rfl

theorem pairSelfTestFailed_keeps {k : Fin 8} {n : Fin 203} {s : State} : KeepsBut [.flt, .hw] s (pairSelfTestFailed k n s) :=
  .after engRecord_keeps rfl <| .mono (raise_keeps _ _ _) rfl

theorem retarget_keeps {s : State} : KeepsBut [.records] s (retarget s) := transit_keeps _ _

/-! ### Staging.lean -/

theorem stageBytes_keeps {t off : Nat} {bytes : List Byte} {session : Nat} {s : State} :
    KeepsBut [.stg] s (stageBytes t off bytes session s) := modStg_keeps _ _

theorem discardTables_keeps {l : List (Fin 16)} {s : State} : KeepsBut [.stg] s (discardTables l s) := modStg_keeps _ _

theorem execStageWrite_keeps {o : Origin} {b : BlockStep} {s : State} : OutKeeps [.records, .stg, .hw] s (execStageWrite o b s) :=
  runBlock_keeps rfl fun _ _ _ _ => .after (finishRecorded_keeps _ _ _ _ _ _ _) rfl <| .mono stageBytes_keeps rfl

theorem execStageLoad_keeps {o : Origin} {s : State} : OutKeeps [.records, .stg, .hw] s (execStageLoad o s) :=
  .runOut rfl fun _ _ _ => .after (finishRecorded_keeps _ _ _ _ _ _ _) rfl <| .mono (modStg_keeps _ _) rfl

theorem execStageDiscard_keeps {o : Origin} {s : State} : OutKeeps [.records, .stg, .hw] s (execStageDiscard o s) :=
  .runOut rfl fun _ _ _ => .after (finishRecorded_keeps _ _ _ _ _ _ _) rfl <| .mono discardTables_keeps rfl

theorem execStageQuery_keeps {o : Origin} {s : State} : OutKeeps [.records, .hw] s (execStageQuery o s) :=
  .runOut rfl fun _ _ _ => .mono (finishRecorded_keeps _ _ _ _ _ _ _) rfl

theorem stgDataWrite_keeps {v : Nat} {s : State} : KeepsBut [.stg, .hw] s (stgDataWrite v s) :=
  .comp (.ite (.mono (modStg_keeps _ _) rfl) <|
    .ite (.mono (modStg_keeps _ _) rfl) <| .after (modStg_keeps _ _) rfl <| .after hwPutAt_keeps rfl <| .mono stageBytes_keeps rfl) <|
  .ite (.mono (touchSession_keeps _ _) rfl) .refl

theorem execStgDataWrite_keeps {v : Word} {s : State} : OutKeeps [.stg, .hw] s (execStgDataWrite v s) :=
  .next <| .whenOn fun _ => .after stgDataWrite_keeps rfl <| .mono hostAccess_keeps rfl

/-! ### Heartwood.lean -/

theorem releaseReport_keeps {r : Report} {s : State} : KeepsBut [.records] s (releaseReport r s) := by
  unfold releaseReport
  split
  · exact emitAt_keeps _ _ _ _ _ _ _ _
  · exact sendVector_keeps _ _
  · exact .after (settle_keeps _) rfl <| started_keeps _ _

theorem archiveBlock_keeps {blk : Nat} {ok : Bool} {s : State} : KeepsBut [.hw] s (archiveBlock blk ok s) :=
  .ite (.after (modHw_keeps _ _) rfl <| .mono xspiMem_keeps rfl) <| modHw_keeps _ _

theorem hwWrite_keeps {archived : Bool} {s : State} : KeepsBut [.records, .mram, .hw] s (hwWrite archived s) := by
  unfold hwWrite
  split
  · exact .refl
  · exact .comp (.foldl fun _ _ => .mono releaseReport_keeps rfl) <|
      .after (modHw_keeps _ _) rfl <|
      .after (fabAccess_keeps _ _ _ _ _) rfl <| .after mramField_keeps rfl <| .ite (.mono archiveBlock_keeps rfl) .refl

theorem hwWriteAll_keeps : ∀ (n : Nat) (s : State), KeepsBut [.records, .mram, .hw] s (hwWriteAll n s)
  | 0, _ => .refl
  | n + 1, _ => .ite .refl <| .after (hwWriteAll_keeps n _) rfl <| hwWrite_keeps

theorem execHeartwoodRecordWrite_keeps {archived : Bool} {s : State} :
    OutKeeps [.records, .mram, .hw] s (execHeartwoodRecordWrite archived s) := .next <| .whenOn fun _ => hwWrite_keeps

theorem execHwRead_keeps {o : Origin} {s : State} : OutKeeps [.records] s (execHwRead o s) :=
  .runOut rfl fun _ _ _ => .after (finish_keeps _ _ _ _) rfl <| toBuffer_keeps _ _ _ _

theorem execHwQuery_keeps {o : Origin} {s : State} : OutKeeps [.records] s (execHwQuery o s) :=
  .runOut rfl fun _ _ _ => finish_keeps _ _ _ _

/-! ### Valve.lean -/

theorem modVs_keeps {f : VsSt → VsSt} {s : State} : KeepsBut [.vs] s (modVs f s) := vsField_keeps

theorem setVlv_keeps {v : Nat} {f : Vlv → Vlv} {s : State} : KeepsBut [.vs] s (setVlv v f s) := vsField_keeps

theorem setVg_keeps {g : Nat} {f : Vg → Vg} {s : State} : KeepsBut [.vs] s (setVg g f s) := vsField_keeps

theorem vlvEvent_keeps {v code d1 d2 : Nat} {s : State} : KeepsBut [.records] s (vlvEvent v code d1 d2 s) := emitOn_keeps _ _ _ _ _ _ _

theorem noteVgCur_keeps {g i : Nat} {s : State} : KeepsBut [.vs] s (noteVgCur g i s) := setVg_keeps

theorem noteVlvCur_keeps {v i hi : Nat} {s : State} : KeepsBut [.vs] s (noteVlvCur v i hi s) := .after noteVgCur_keeps rfl setVlv_keeps

theorem ledgerAdd_keeps {k : Fin 4} {q : Nat} {s : State} : KeepsBut [.vs] s (ledgerAdd k q s) := modVs_keeps

theorem noteCap_keeps {v : Nat} {s : State} : KeepsBut [.vs] s (noteCap v s) := modVs_keeps

theorem fireEnds_keeps {f : Fire} {status src : Nat} {s : State} : KeepsBut [.records] s (fireEnds f status src s) := by
  unfold fireEnds
  extract_lets s₁
  refine .comp (t := s₁) ?_ <| .ite vlvEvent_keeps .refl
  split
  · exact .ite (finishFree_keeps _ _ _) <| finish_keeps _ _ _ _
  · exact .refl

theorem freeSlot_keeps {v : Nat} {hold : Bool} {s : State} : KeepsBut [.vs] s (freeSlot v hold s) := setVg_keeps

theorem enterHold_keeps {v : Nat} {s : State} : KeepsBut [.records, .vs] s (enterHold v s) := by
  unfold enterHold
  split
  · exact .refl
  · exact .after fireEnds_keeps rfl <| .after freeSlot_keeps rfl <| .mono setVlv_keeps rfl

theorem enterDecay_keeps {v : Nat} {s : State} : KeepsBut [.vs] s (enterDecay v s) := setVlv_keeps

theorem enterPeak_keeps {v : Nat} {s : State} : KeepsBut [.vs] s (enterPeak v s) := .ite enterDecay_keeps setVlv_keeps

theorem grantSlot_keeps {f : Fire} {s : State} : KeepsBut [.vs] s (grantSlot f s) :=
  .comp (.ite .refl enterPeak_keeps) <| .after setVlv_keeps rfl setVg_keeps

theorem enterRelease_keeps {v : Nat} {slow : Bool} {status src : Nat} {s : State} :
    KeepsBut [.records, .vs] s (enterRelease v slow status src s) :=
  .after setVlv_keeps rfl <| by
    split
    · exact .mono fireEnds_keeps rfl
    · exact .refl

theorem cutPhase_keeps {v : Nat} {s : State} : KeepsBut [.vs] s (cutPhase v s) :=
  .ite (.after ledgerAdd_keeps rfl <| .after setVlv_keeps rfl <| .mono unnamed_keeps rfl) <|
  .ite (.after ledgerAdd_keeps rfl <| .after setVlv_keeps rfl <| .mono unnamed_keeps rfl) .refl

theorem releaseEarly_keeps {v : Nat} {slow : Bool} {status src : Nat} {s : State} :
    KeepsBut [.records, .vs] s (releaseEarly v slow status src s) := .after enterRelease_keeps rfl <| .mono cutPhase_keeps rfl

theorem dropWaiting_keeps {v status src : Nat} {s : State} : KeepsBut [.records, .vs] s (dropWaiting v status src s) := by
  unfold dropWaiting
  split
  · exact .comp (by
          dsimp only
          split
          · exact .mono (finish_keeps _ _ _ _) rfl
          · exact .refl) <|
      .after fireEnds_keeps rfl <| .after setVlv_keeps rfl <| .mono setVg_keeps rfl
  · exact .refl

theorem requestFire_keeps {f : Fire} {s : State} : KeepsBut [.records, .flt, .vs] s (requestFire f s) :=
  .ite (.mono fireEnds_keeps rfl) <|
  .ite (.after enterHold_keeps rfl <| .mono setVlv_keeps rfl) <|
  .ite (.mono grantSlot_keeps rfl) <|
  .ite (.after fireEnds_keeps rfl <| .mono (raise_keeps _ _ _) rfl) <| .after setVg_keeps rfl <| .mono setVlv_keeps rfl

theorem takeOrder_keeps {s : State} : KeepsBut [.vs] s (takeOrder s).2 := modVs_keeps

theorem execVlvFire_keeps {o : Origin} {s : State} : OutKeeps [.records, .flt, .vs] s (execVlvFire o s) :=
  .runOut rfl fun _ _ _ =>
    .ite (.after requestFire_keeps rfl <| .mono takeOrder_keeps rfl) <| .after modVs_keeps rfl <| .mono takeOrder_keeps rfl

theorem execFireRequestedStart_keeps {v : Fin 24} {s : State} : OutKeeps [.records, .flt, .vs] s (execFireRequestedStart v s) :=
  .next <|
  .whenOn fun _ => by
      split
      · exact .after requestFire_keeps rfl <| .mono modVs_keeps rfl
      · exact .refl

theorem execSlotGrant_keeps {g : Fin 4} {s : State} : OutKeeps [.vs] s (execSlotGrant g s) :=
  .next <|
  .whenClocked fun _ => by
      split
      · exact .ite grantSlot_keeps .refl
      · exact .refl

theorem execDeferTimeout_keeps {v : Fin 24} {s : State} : OutKeeps [.records, .flt, .vs] s (execDeferTimeout v s) :=
  .next <|
  .whenClocked fun _ => by
      split
      · exact .ite .refl <|
          .ite (.after dropWaiting_keeps rfl <| .mono (raise_keeps _ _ _) rfl) <|
          .after dropWaiting_keeps rfl <| .mono (raise_keeps _ _ _) rfl
      · exact .refl

theorem vlvDiag_keeps {v res : Nat} {onState : Bool} {s : State} : KeepsBut [.records, .flt, .vs] s (vlvDiag v res onState s) := by
  unfold vlvDiag
  extract_lets x s₁ s₂
  refine .ite .refl <| .comp (t := s₂) ?_ <| .after vlvEvent_keeps rfl <| .mono setVlv_keeps rfl
  split
  · exact .mono (raise_keeps _ _ _) rfl
  · exact .mono (raise_keeps _ _ _) rfl
  · exact .mono (raise_keeps _ _ _) rfl
  · exact .refl

theorem boostPhaseEnds_keeps {v q : Nat} {s : State} : KeepsBut [.vs] s (boostPhaseEnds v q s) := .after ledgerAdd_keeps rfl setVlv_keeps

theorem execPeakReached_keeps {v : Fin 24} {m : VlvCurs} {q : Nat} {s : State} : OutKeeps [.records, .flt, .vs] s (execPeakReached v m q s) :=
  .next <|
  .whenClocked fun _ =>
    .ite .refl <|
    .comp (.ite (.after enterRelease_keeps rfl vlvDiag_keeps) <| .mono enterPeak_keeps rfl) <|
    .after boostPhaseEnds_keeps rfl <| .mono noteVlvCur_keeps rfl

theorem execBoostTimeout_keeps {v : Fin 24} {q : Nat} {s : State} : OutKeeps [.records, .flt, .vs] s (execBoostTimeout v q s) :=
  .next <|
  .whenClocked fun _ => .ite (.after enterRelease_keeps rfl <| .after (raise_keeps _ _ _) rfl <| .mono boostPhaseEnds_keeps rfl) .refl

theorem execPeakEnd_keeps {v : Fin 24} {s : State} : OutKeeps [.vs] s (execPeakEnd v s) :=
  .next <| .whenClocked fun _ => .ite enterDecay_keeps .refl

theorem execDecayEnd_keeps {v : Fin 24} {m : VlvCurs} {q : Nat} {s : State} : OutKeeps [.records, .vs] s (execDecayEnd v m q s) :=
  .next <|
  .whenClocked fun _ =>
    .ite .refl <|
    .after enterHold_keeps rfl <| .comp (.ite .refl <| .after ledgerAdd_keeps rfl <| .mono setVlv_keeps rfl) <| .mono noteVlvCur_keeps rfl

theorem execHoldEnd_keeps {v : Fin 24} {s : State} : OutKeeps [.records, .vs] s (execHoldEnd v s) :=
  .next <|
  .whenClocked fun _ => by
      split
      · exact .ite (.after vlvEvent_keeps rfl enterRelease_keeps) .refl
      · exact .refl

theorem reachOff_keeps {v q : Nat} {s : State} : KeepsBut [.records, .vs] s (reachOff v q s) :=
  .comp (by
      unfold reachOff
      dsimp only
      split
      · exact .mono (finish_keeps _ _ _ _) rfl
      · exact .refl) <|
  .comp (.foldl fun _ _ => .mono (finish_keeps _ _ _ _) rfl) <| .after freeSlot_keeps rfl <| .mono setVlv_keeps rfl

theorem execValveOff_keeps {v : Fin 24} {m : VlvReturn} {s : State} : OutKeeps [.records, .vs] s (execValveOff v m s) :=
  .next <|
  .whenClocked fun _ =>
    .ite .refl <|
    .after noteVlvCur_keeps rfl <| .after reachOff_keeps rfl <| .ite .refl <| .after ledgerAdd_keeps rfl <| .mono setVlv_keeps rfl

theorem execReleaseTimeout_keeps {v : Fin 24} {s : State} : OutKeeps [.flt, .vs] s (execReleaseTimeout v s) :=
  .next <| .whenClocked fun _ => .ite (.after (raise_keeps _ _ _) rfl <| .mono setVlv_keeps rfl) .refl

theorem execVlvRelease_keeps {o : Origin} {s : State} : OutKeeps [.records, .vs] s (execVlvRelease o s) :=
  .runOut rfl fun _ _ _ => by
      dsimp only
      split
      · exact .mono (finish_keeps _ _ _ _) rfl
      · exact .after (finish_keeps _ _ _ _) rfl dropWaiting_keeps
      · exact .mono setVlv_keeps rfl
      · exact .after setVlv_keeps rfl releaseEarly_keeps

theorem execVlvPeriodic_keeps {o : Origin} {s : State} : OutKeeps [.records, .vs] s (execVlvPeriodic o s) :=
  .runOut rfl fun _ _ _ =>
    .ite (.after (finish_keeps _ _ _ _) rfl <| .mono setVlv_keeps rfl) <|
    .comp (.ite (.mono (finish_keeps _ _ _ _) rfl) <| .mono setVlv_keeps rfl) <| .mono setVlv_keeps rfl

theorem execPeriodicFiring_keeps {v : Fin 24} {s : State} : OutKeeps [.records, .flt, .vs] s (execPeriodicFiring v s) :=
  .next <|
  .whenOn fun _ => by
      split
      · exact .ite .refl <| .after requestFire_keeps rfl <| .after takeOrder_keeps rfl <| .mono setVlv_keeps rfl
      · exact .refl

theorem execVlvQuery_keeps {o : Origin} {s : State} : OutKeeps [.records] s (execVlvQuery o s) :=
  .runOut rfl fun _ _ _ => finish_keeps _ _ _ _

theorem boostTo_keeps {b : Boost} {s : State} : KeepsBut [.records, .vs] s (boostTo b s) :=
  .ite .refl <| .after (emitOn_keeps _ _ _ _ _ _ _) rfl <| .comp (.ite (.mono modVs_keeps rfl) .refl) <| .mono modVs_keeps rfl

theorem execBoostSet_keeps {o : Origin} {s : State} : OutKeeps [.records, .vs] s (execBoostSet o s) :=
  .runOut rfl fun _ _ _ => .after (finish_keeps _ _ _ _) rfl <| .ite boostTo_keeps <| .ite boostTo_keeps .refl

theorem execLedgerQuery_keeps {o : Origin} {s : State} : OutKeeps [.records] s (execLedgerQuery o s) :=
  .runOut rfl fun _ _ _ => finish_keeps _ _ _ _

theorem execPrechargeDone_keeps {vCap vbat : Nat} {s : State} : OutKeeps [.records, .flt, .vs] s (execPrechargeDone vCap vbat s) :=
  .next <|
  .whenClocked fun _ =>
    .ite .refl <|
    .comp (.ite (.mono boostTo_keeps rfl) <| .ite (.after (raise_keeps _ _ _) rfl <| .mono boostTo_keeps rfl) .refl) <|
    .mono noteCap_keeps rfl

theorem execMeasureDone_keeps {rise vCap : Nat} {s : State} : OutKeeps [.records, .flt, .vs] s (execMeasureDone rise vCap s) :=
  .next <|
  .whenClocked fun _ =>
    .ite .refl <|
    .comp (.ite (.mono boostTo_keeps rfl) <| .after (raise_keeps _ _ _) rfl <| .mono boostTo_keeps rfl) <|
    .after modVs_keeps rfl <| .mono noteCap_keeps rfl

theorem execBoostReady_keeps {vCap : Nat} {s : State} : OutKeeps [.records, .vs] s (execBoostReady vCap s) :=
  .next <| .whenClocked fun _ => .ite (.after boostTo_keeps rfl <| .mono noteCap_keeps rfl) .refl

theorem execBoostSuspend_keeps {x : HeldV} {s : State} : OutKeeps [.records, .flt, .pw, .vs] s (execBoostSuspend x s) :=
  .next <|
  .whenClocked fun _ =>
    .ite .refl <|
    .ite (.after (raise_keeps _ _ _) rfl <| .after boostTo_keeps rfl <| .mono noteVbat_keeps rfl) <|
    .ite (.after boostTo_keeps rfl <| .mono noteVbat_keeps rfl) .refl

theorem execBoostResume_keeps {x : HeldV} {s : State} : OutKeeps [.records, .pw, .vs] s (execBoostResume x s) :=
  .next <| .whenClocked fun _ => .onlyIf fun _ => .after boostTo_keeps rfl <| .mono noteVbat_keeps rfl

theorem execBoostConverterFault_keeps {s : State} : OutKeeps [.records, .flt, .vs] s (execBoostConverterFault s) :=
  .next <| .whenClocked fun _ => .onlyIf fun _ => .after (raise_keeps _ _ _) rfl <| .mono boostTo_keeps rfl

theorem execBoostOvervoltage_keeps {vCap : Nat} {s : State} : OutKeeps [.flt, .vs] s (execBoostOvervoltage vCap s) :=
  .next <|
  .whenClocked fun _ =>
    .ite .refl <| .comp (.ite (.mono (raise_keeps _ _ _) rfl) .refl) <| .after modVs_keeps rfl <| .mono noteCap_keeps rfl

theorem execOvSlowEnd_keeps {vCap : Nat} {s : State} : OutKeeps [.vs] s (execOvSlowEnd vCap s) :=
  .next <| .whenClocked fun _ => .onlyIf fun _ => .after modVs_keeps rfl noteCap_keeps

theorem execLedgerWindow_keeps {qIn qLoss vCap : Nat} {s : State} : OutKeeps [.flt, .vs] s (execLedgerWindow qIn qLoss vCap s) :=
  .next <|
  .whenClocked fun _ =>
    .ite .refl <|
    .comp (.ite (.mono (raise_keeps _ _ _) rfl) .refl) <|
    .after modVs_keeps rfl <| .after ledgerAdd_keeps rfl <| .after ledgerAdd_keeps rfl <| .mono noteCap_keeps rfl

theorem latchLedger_keeps {n : Fin 4} {s : State} : KeepsBut [.vs] s (latchLedger n s) := modVs_keeps

theorem execLedgerLoRead_keeps {n : Fin 4} {s : State} : OutKeeps [.vs] s (execLedgerLoRead n s) :=
  .next <| .whenOn fun _ => latchLedger_keeps

theorem tripValve_keeps {src : Nat} {fast : Bool} {v : Nat} {s : State} : KeepsBut [.records, .vs] s (tripValve src fast v s) :=
  .comp (by
      unfold tripValve
      dsimp only
      split
      · exact .refl
      · exact dropWaiting_keeps
      · exact .refl
      · exact releaseEarly_keeps) <|
  .mono setVlv_keeps rfl

theorem execValveShortCircuit_keeps {t : VsTrip} {s : State} : OutKeeps [.records, .flt, .vs] s (execValveShortCircuit t s) :=
  .next <|
  .whenClocked fun _ => by
      split
      · exact .ite (.after tripValve_keeps rfl <| .comp (.ite vlvDiag_keeps .refl) <| .after (raise_keeps _ _ _) rfl <| .mono setVlv_keeps rfl) <|
          .refl
      · exact .ite .refl <|
          .comp (.foldl fun _ _ => .mono tripValve_keeps rfl) <| .after (raise_keeps _ _ _) rfl <| .mono noteVgCur_keeps rfl
      · exact .ite .refl <| .comp (.foldl fun _ _ => .mono tripValve_keeps rfl) <| .mono (raise_keeps _ _ _) rfl

theorem execValveHeldClear_keeps {v : Fin 24} {t : Int} {s : State} : OutKeeps [.vs] s (execValveHeldClear v t s) :=
  .next <|
  .whenClocked fun _ => by
      split
      · exact .ite setVlv_keeps .refl
      · exact .refl

theorem vgDiagnose_keeps {g : Nat} {m : VgDiag} {vs : List Nat} {s : State} : KeepsBut [.records, .flt, .vs] s (vgDiagnose g m vs s) :=
  .comp (.foldl fun _ _ => vlvDiag_keeps) <| .mono setVg_keeps rfl

theorem execValveOffStateDiagnosis_keeps {g : Fin 4} {m : VgDiag} {s : State} :
    OutKeeps [.records, .flt, .vs] s (execValveOffStateDiagnosis g m s) :=
  .next <| .whenOn fun _ => .ite (.after vgDiagnose_keeps rfl <| .mono setVg_keeps rfl) .refl

theorem execVlvDiagRun_keeps {o : Origin} {m : VgDiag} {s : State} : OutKeeps [.records, .flt, .vs] s (execVlvDiagRun o m s) :=
  .runOut rfl fun _ _ _ => .after (finish_keeps _ _ _ _) rfl vgDiagnose_keeps

theorem execValveOnStateDiagnosis_keeps {f : VsFinding} {s : State} : OutKeeps [.records, .flt, .vs] s (execValveOnStateDiagnosis f s) :=
  .next <|
  .whenClocked fun _ =>
    .onlyIf fun _ => by
        split
        · exact .ite (.after releaseEarly_keeps rfl vlvDiag_keeps) .refl
        · exact .ite .refl <| .foldl fun _ _ => vlvDiag_keeps

theorem dropPending_keeps {v status src : Nat} {s : State} : KeepsBut [.records, .vs] s (dropPending v status src s) :=
  .comp (.foldl fun _ _ => .mono fireEnds_keeps rfl) <| .mono modVs_keeps rfl

theorem vlvSafeOff_keeps {src v : Nat} {s : State} : KeepsBut [.records, .vs] s (vlvSafeOff src v s) :=
  .comp (by
      unfold vlvSafeOff
      dsimp only
      split
      · exact .refl
      · exact dropWaiting_keeps
      · exact .refl
      · exact releaseEarly_keeps) <|
  .after setVlv_keeps rfl dropPending_keeps

theorem vlvSafe_keeps {src v : Nat} {s : State} : KeepsBut [.records, .flt, .vs] s (vlvSafe src v s) :=
  .comp (by
      unfold vlvSafe
      dsimp only
      split
      · exact .comp (.ite (.after requestFire_keeps rfl <| .mono takeOrder_keeps rfl) .refl) <|
          .after setVlv_keeps rfl <| .mono dropPending_keeps rfl
      · exact .refl
      · exact .mono vlvSafeOff_keeps rfl) <|
  .mono setVlv_keeps rfl

theorem vlvUnsafe_keeps {v : Nat} {s : State} : KeepsBut [.records, .vs] s (vlvUnsafe v s) :=
  .ite .refl <| .after vlvSafeOff_keeps rfl <| .mono setVlv_keeps rfl

/-! ### Wire.lean -/

theorem wireJudge_keeps {n : Nat} {s : State} : KeepsBut [.records, .flt, .ld] s (wireJudge n s) :=
  .comp (.ite .refl <| .after tryRestart_keeps rfl <| .ite protOff_keeps .refl) <|
  .ite (.after (raise_keeps _ _ _) rfl <| .after lchEvent_keeps rfl <| .mono setLch_keeps rfl) <|
  .ite (.after lchEvent_keeps rfl <| .mono setLch_keeps rfl) .refl

theorem noteSample_keeps {n : Nat} {x : ChSample} {s : State} : KeepsBut [.ld] s (noteSample n x s) :=
  .after setLch_keeps rfl <|
  .after resumeDwell_keeps rfl <| .after forceLeaves_keeps rfl <| .comp (.ite noteCurrent_keeps .refl) setLch_keeps

theorem noteBank_keeps {b : Nat} {x : BankSample} {s : State} : KeepsBut [.ld] s (noteBank b x s) := setBank_keeps

theorem mirrorAll_keeps {s : State} : KeepsBut [.ld] s (mirrorAll s) := ldField_keeps

theorem execWireModelUpdate_keeps {m : Vector ChSample 64} {b : Vector BankSample 8} {h : Vector HbSample 16} {s : State} :
    OutKeeps [.records, .flt, .ld, .hbs] s (execWireModelUpdate m b h s) :=
  .next <|
  .whenClocked fun _ =>
    .ite .refl <|
    .after mirrorAll_keeps rfl <|
    .comp (.foldl fun _ _ => .mono balanceGang_keeps rfl) <|
    .comp (.foldl fun _ _ => .mono setLch_keeps rfl) <|
    .comp (.foldl fun _ _ => .ite (.mono wireJudge_keeps rfl) .refl) <|
    .after ldField_keeps rfl <|
    .comp (.foldl fun _ _ => .mono noteHb_keeps rfl) <|
    .comp (.foldl fun _ _ => .ite (.mono noteSample_keeps rfl) .refl) <| .foldl fun _ _ => .mono noteBank_keeps rfl

theorem execRestartCountReset_keeps {n : Fin 64} {s : State} : OutKeeps [.records, .ld] s (execRestartCountReset n s) :=
  .next <| .whenClocked fun _ => .ite (.after setLch_keeps rfl tryRestart_keeps) .refl

theorem execAmbientStale_keeps {g : Fin 4} {s : State} : OutKeeps [.flt, .ld] s (execAmbientStale g s) :=
  .next <| .whenOn fun _ => .ite (.after (raise_keeps _ _ _) rfl <| .mono modLd_keeps rfl) .refl

theorem writeSnap_keeps {exact : Bool} {s : State} : KeepsBut [.ld] s (writeSnap exact s) := modLd_keeps

theorem execHeatSnapshot_keeps {s : State} : OutKeeps [.ld] s (execHeatSnapshot s) :=
  .next <| .whenOn fun _ => .onlyIf fun _ => writeSnap_keeps

theorem decayAll_keeps {s : State} : KeepsBut [.ld] s (decayAll s) := modLd_keeps

theorem heatRestore_keeps {s : State} : KeepsBut [.flt, .hw, .ld] s (heatRestore s) :=
  .comp (.ite .refl <| .after (raise_keeps _ _ _) rfl <| .mono hwPutAt_keeps rfl) <| .mono modLd_keeps rfl

theorem reloadMirror_keeps {d : Die} {s : State} : KeepsBut [.ld] s (reloadMirror d s) := modLd_keeps

theorem execShortCircuitLimit_keeps {n : Fin 64} {i : Nat} {s : State} : OutKeeps [.records, .flt, .ld] s (execShortCircuitLimit n i s) :=
  .next <|
  .whenClocked fun _ =>
    .ite .refl <|
    .after setLch_keeps rfl <|
    .after protOff_keeps rfl <| .after freezeBank_keeps rfl <| .after forceLeaves_keeps rfl <| .mono setLch_keeps rfl

theorem execEnvelopeTrip_keeps {n : Fin 64} {i : Nat} {s : State} : OutKeeps [.records, .flt, .ld] s (execEnvelopeTrip n i s) :=
  .next <| .whenClocked fun _ => .ite protOff_keeps .refl

theorem execSwitchOvertemp_keeps {n : Fin 64} {t : Int} {s : State} : OutKeeps [.records, .flt, .ld] s (execSwitchOvertemp n t s) :=
  .next <| .whenClocked fun _ => .ite .refl <| .after protOff_keeps rfl <| .mono setLch_keeps rfl

theorem dieHotChs_keeps {b : Nat} {s : State} : KeepsBut [.records, .flt, .ld] s (dieHotChs b s) :=
  .foldl fun _ _ => .ite .refl <| .after setLch_keeps rfl protOff_keeps

theorem diagResult_keeps {n res r : Nat} {onState : Bool} {s : State} : KeepsBut [.records, .flt, .ld] s (diagResult n res r onState s) := by
  unfold diagResult
  extract_lets c s₁
  refine .comp (t := s₁) ?_ <| .ite .refl <| .after lchEvent_keeps rfl <| .mono setLch_keeps rfl
  split
  · exact .mono (raise_keeps _ _ _) rfl
  · exact .refl

theorem offDiag_keeps {n v1 v2 : Nat} {s : State} : KeepsBut [.records, .flt, .ld] s (offDiag n v1 v2 s).2.2 :=
  .comp (by
      unfold offDiag
      dsimp only
      split
      · exact .after diagResult_keeps rfl <| .mono unnamed_keeps rfl
      · exact .after diagResult_keeps rfl <| .mono setLch_keeps rfl) <|
  .mono setLch_keeps rfl

theorem execOffStateDiagnosis_keeps {n : Fin 64} {v1 v2 : Nat} {s : State} :
    OutKeeps [.records, .flt, .ld] s (execOffStateDiagnosis n v1 v2 s) := .next <| .whenClocked fun _ => .ite offDiag_keeps .refl

theorem execOnStateDiagnosis_keeps {n : Fin 64} {v : Nat} {s : State} : OutKeeps [.records, .flt, .ld] s (execOnStateDiagnosis n v s) :=
  .next <|
  .whenClocked fun _ => by
      dsimp only
      split
      · exact .ite (.after diagResult_keeps rfl <| .mono setLch_keeps rfl) .refl
      · exact .refl

theorem execReverseCurrent_keeps {n : Fin 64} {i : Nat} {s : State} : OutKeeps [.records, .flt, .ld] s (execReverseCurrent n i s) :=
  .next <| .whenClocked fun _ => .ite diagResult_keeps .refl

theorem execProtClear_keeps {o : Origin} {s : State} : OutKeeps [.records, .ld] s (execProtClear o s) :=
  .runOut rfl fun _ _ _ =>
    .after (finish_keeps _ _ _ _) rfl <| .after syncGang_keeps rfl <| .after applyLch_keeps rfl <| .after setLch_keeps rfl endTimed_keeps

theorem execWireQuery_keeps {o : Origin} {s : State} : OutKeeps [.records] s (execWireQuery o s) :=
  .runOut rfl fun _ _ _ => finish_keeps _ _ _ _

theorem execWireAmbient_keeps {o : Origin} {s : State} : OutKeeps [.records, .ld] s (execWireAmbient o s) :=
  .runOut rfl fun _ _ _ => .after (finish_keeps _ _ _ _) rfl <| .mono modLd_keeps rfl

theorem execDiagRun_keeps {o : Origin} {v1 v2 : Nat} {s : State} : OutKeeps [.records, .flt, .ld] s (execDiagRun o v1 v2 s) :=
  .runOut rfl fun _ _ _ => .after (finish_keeps _ _ _ _) rfl offDiag_keeps

/-! ### Hooks.lean -/

theorem segSafe_keeps {b : Nat} {s : State} : KeepsBut [.records, .flt, .ns] s (segSafe b s) :=
  .ite (.after gwDropFor_keeps rfl <| .comp (.foldl fun _ _ => .mono txEnds_keeps rfl) <| .mono setCan_keeps rfl) <|
  .comp (.foldl fun _ _ => .mono (finishFree_keeps _ _ _) rfl) <| .mono setLin_keeps rfl

theorem safeOne_keeps {src : Nat} {o : OutId} {s : State} :
    KeepsBut [.records, .stg, .flt, .ld, .hbs, .vs, .fs, .ns, .acc, .eng, .pairs] s (safeOne src o s) := by
  unfold safeOne
  split
  · exact .mono lchSafe_keeps rfl
  · exact .mono hbSafe_keeps rfl
  · exact .mono vlvSafe_keeps rfl
  · exact .refl
  · exact .refl
  · exact .mono fioSafe_keeps rfl
  · exact .mono lfSafe_keeps rfl
  · exact .mono relSafe_keeps rfl
  · exact .mono segSafe_keeps rfl
  · exact .mono stopPair_keeps rfl

theorem safeEntry_keeps {outs : List OutId} {src : Nat} {s : State} :
    KeepsBut [.records, .stg, .flt, .ld, .hbs, .vs, .fs, .ns, .acc, .eng, .pairs] s (safeEntry outs src s) := .foldl fun _ _ => safeOne_keeps

theorem safeRelease_keeps {outs : List OutId} {s : State} : KeepsBut [.records, .ld, .hbs, .vs, .fs] s (safeRelease outs s) :=
  .foldl fun _ _ => by
      split
      · exact .mono lchUnsafe_keeps rfl
      · exact .mono hbUnsafe_keeps rfl
      · exact .mono vlvUnsafe_keeps rfl
      · exact .mono fioUnsafe_keeps rfl
      · exact .refl

theorem heatExact_keeps {s : State} : KeepsBut [.ld] s (heatExact s) := writeSnap_keeps

theorem sleepCommit_keeps {s : State} : KeepsBut [.records, .ld, .hbs, .sw, .fs, .ns] s (sleepCommit s) :=
  .after fsPark_keeps rfl <|
  .comp (.foldl fun _ _ => .ite (.mono endNow_keeps rfl) <| .after applyHb_keeps rfl <| .mono setHb_keeps rfl) <|
  .comp (.foldl fun _ _ => .after applyLch_keeps rfl <| .mono setLch_keeps rfl) <|
  .after nsSleepCommit_keeps rfl <| .mono armPolls_keeps rfl

theorem familyDieOff_keeps {park brownout : Bool} {s : State} :
    KeepsBut [.ld, .hbs, .vs, .sw, .fs, .ns, .acc, .eng, .pairs, .links] s (familyDieOff park brownout s) :=
  .comp (.ite (.mono ldField_keeps rfl) <| .mono (outputs_keeps) rfl) <|
  .after (engPairs_keeps) rfl <|
  .after modLd_keeps rfl <| .after asDieOff_keeps rfl <| .after nsDieOff_keeps rfl <| .mono swDieOff_keeps rfl

theorem familySupplyLoss_keeps {s : State} : KeepsBut [.flt, .ld, .hbs, .sw, .fs, .ns, .acc, .links] s (familySupplyLoss s) :=
  .after (lossFields_keeps) rfl <| .after asSupplyLoss_keeps rfl <| .mono barrierLost_keeps rfl

theorem dieLost_keeps {d : Die} {src : Nat} {s : State} :
    KeepsBut [.records, .stg, .flt, .ld, .hbs, .vs, .sw, .fs, .ns, .acc, .eng, .pairs] s (dieLost d src s) :=
  .comp (.ite (.after nsLinkLost_keeps rfl <| .mono swLinkLost_keeps rfl) .refl) <| .mono safeEntry_keeps rfl

theorem dieBack_keeps {d : Die} {s : State} : KeepsBut [.records, .ld, .fs, .ns] s (dieBack d s) :=
  .ite (.mono nsLinkBack_keeps rfl) <| .ite (.mono fsLinkBack_keeps rfl) <| .mono mirrorAll_keeps rfl

/-! ### Faults.lean -/

theorem faultState_keeps {entered dev : Bool} {target src : Nat} {s : State} : KeepsBut [.hw] s (faultState entered dev target src s) :=
  hwPutAt_keeps

theorem enterC2_keeps {src target : Nat} {s : State} :
    KeepsBut [.records, .stg, .flt, .hw, .ld, .hbs, .vs, .fs, .ns, .acc, .eng, .pairs] s (enterC2 src target s) :=
  .ite .refl <| .after faultState_keeps rfl <| .after safeEntry_keeps rfl <| .mono (modFlt_keeps _ _) rfl

theorem enterC3_keeps {src : Nat} {s : State} :
    KeepsBut [.records, .stg, .flt, .hw, .ld, .hbs, .vs, .fs, .ns, .acc, .eng, .pairs] s (enterC3 src s) :=
  .after faultState_keeps rfl <| .after hwPutAt_keeps rfl <| .after safeEntry_keeps rfl <| .mono (modFlt_keeps _ _) rfl

theorem powerAborted_keeps {src : Nat} {s : State} : KeepsBut [.records, .pw] s (powerAborted src s) := by
  unfold powerAborted
  split
  · exact .refl
  · exact .ite .refl <| .after (finish_keeps _ _ _ _) rfl <| .mono (modPw_keeps _ _) rfl

theorem conditionsLeft_keeps {src : Nat} {s : State} : KeepsBut [.hw] s (conditionsLeft src s) := hwPutAt_keeps

theorem markConditions_keeps {s : State} : KeepsBut [.hw] s (markConditions s) :=
  .ite .refl <| .comp (.foldl fun _ _ => conditionsLeft_keeps) <| modHw_keeps _ _

theorem setSticky_keeps {n : Fin 256} {target : Nat} {injected : Bool} {time : Nat} {tsRt : Bool} {more : List Report} {s : State} :
    KeepsBut [.records, .stg, .flt, .pw, .hw, .ld, .hbs, .vs, .fs, .ns, .acc, .eng, .pairs] s (setSticky n target injected time tsRt more s) :=
  .comp (.ite (.after powerAborted_keeps rfl <| .mono (modPw_keeps _ _) rfl) .refl) <|
  .comp (.ite (.mono enterC3_keeps rfl) .refl) <|
  .comp (.ite (.mono enterC2_keeps rfl) .refl) <| .after hwPutAt_keeps rfl <| .mono (modFlt_keeps _ _) rfl

theorem pairAgain_keeps {n target : Nat} {s : State} :
    KeepsBut [.records, .stg, .flt, .hw, .ld, .hbs, .vs, .fs, .ns, .acc, .eng, .pairs] s (pairAgain n target s) := .ite enterC2_keeps .refl

theorem collect_keeps {n : Fin 256} {target : Nat} {injected : Bool} {time : Nat} {tsRt : Bool} {more : List Report} {s : State} :
    KeepsBut [.records, .stg, .flt, .pw, .hw, .ld, .hbs, .vs, .fs, .ns, .acc, .eng, .pairs] s (collect n target injected time tsRt more s) :=
  .comp (.ite (.mono conditionsLeft_keeps rfl) .refl) <|
  .comp (.ite (.comp (.ite .refl <| .mono pairAgain_keeps rfl) <| .mono (modFlt_keeps _ _) rfl) setSticky_keeps) <|
  .mono (modFlt_keeps _ _) rfl

theorem arrive_keeps {n : Fin 256} {s : State} :
    KeepsBut [.records, .stg, .flt, .pw, .hw, .ld, .hbs, .vs, .fs, .ns, .acc, .eng, .pairs] s (arrive n s) := by
  unfold arrive
  split
  · exact .after collect_keeps rfl <| .mono (modFlt_keeps _ _) rfl
  · exact .ite collect_keeps .refl

theorem execFaultRaise_keeps {srcs : List (Fin 256)} {s : State} :
    OutKeeps [.records, .stg, .flt, .pw, .hw, .ld, .hbs, .vs, .fs, .ns, .acc, .eng, .pairs] s (execFaultRaise srcs s) :=
  .next <| .whenOn fun _ => .foldl fun _ _ => arrive_keeps

theorem execFaultQuery_keeps {o : Origin} {s : State} : OutKeeps [.records] s (execFaultQuery o s) :=
  .runOut rfl fun _ _ _ => finish_keeps _ _ _ _

theorem execFaultAck_keeps {o : Origin} {s : State} : OutKeeps [.records, .flt] s (execFaultAck o s) :=
  .runOut rfl fun _ _ _ => .after (finish_keeps _ _ _ _) rfl <| .mono (modFlt_keeps _ _) rfl

theorem leaveC2_keeps {outs : List OutId} {s : State} : KeepsBut [.flt, .hw] s (leaveC2 outs s) :=
  .comp (.foldl fun _ _ => .mono faultState_keeps rfl) <| .mono (modFlt_keeps _ _) rfl

theorem execFaultReset_keeps {o : Origin} {failed : List (Fin 203)} {s : State} :
    OutKeeps [.records, .stg, .flt, .hw, .ld, .hbs, .vs, .fs, .eng, .pairs] s (execFaultReset o failed s) :=
  .runOut rfl fun _ _ _ =>
    .ite (.after (finish_keeps _ _ _ _) rfl <| .mono (modFlt_keeps _ _) rfl) <|
    .ite (.after (finish_keeps _ _ _ _) rfl <| .mono pairTestFailed_keeps rfl) <|
    .after (finish_keeps _ _ _ _) rfl <|
    .comp (.ite (.mono restartPair_keeps rfl) .refl) <| .after safeRelease_keeps rfl <| .mono leaveC2_keeps rfl

theorem execFaultInject_keeps {o : Origin} {s : State} :
    OutKeeps [.records, .stg, .flt, .pw, .hw, .ld, .hbs, .vs, .fs, .ns, .acc, .eng, .pairs] s (execFaultInject o s) :=
  .runOut rfl fun _ _ _ => by
      split
      · exact .refl
      · exact .comp (.ite (.mono (finish_keeps _ _ _ _) rfl) <| .mono (finishGated_keeps _ _ _ _) rfl) collect_keeps

theorem execHeartbeat_keeps {s : State} : OutKeeps [.flt] s (execHeartbeat s) := .next <| .whenOn fun _ => modFlt_keeps _ _

theorem execRuntimeWatchdog_keeps {s : State} :
    OutKeeps [.records, .stg, .flt, .ld, .hbs, .vs, .fs, .ns, .acc, .eng, .pairs] s (execRuntimeWatchdog s) :=
  .next <|
  .whenOn fun _ =>
    .onlyIf fun _ =>
      .after safeEntry_keeps rfl <| .after (modFlt_keeps _ _) rfl <| .after (raise_keeps _ _ _) rfl <| .mono (modFlt_keeps _ _) rfl

theorem execRecoveryEnd_keeps {s : State} : OutKeeps [.flt] s (execRecoveryEnd s) := .next <| .onlyIf fun _ => modFlt_keeps _ _

/-! ### Power.lean -/

theorem powerEvent_keeps {new old : PState} {cause dt : Nat} {s : State} : KeepsBut [.records] s (powerEvent new old cause dt s) :=
  .after (sendVector_keeps _ _) rfl <| emit_keeps _ _ _ _ _ _

theorem requestVcore_keeps {mv : Nat} {rise : Bool} {uid : Option Nat} {target : PState} {s : State} :
    KeepsBut [.pw] s (requestVcore mv rise uid target s) := modPw_keeps _ _

theorem changeState_keeps {uid : Option Nat} {target : PState} {s : State} : KeepsBut [.pw] s (changeState uid target s) :=
  .ite requestVcore_keeps <| .after (modPw_keeps _ _) rfl requestVcore_keeps

theorem sleepCommitPoint_keeps {p : PowerRun} {s : State} :
    KeepsBut [.records, .flt, .pw, .ld, .hbs, .sw, .fs, .ns] s (sleepCommitPoint p s) :=
  .after sleepCommit_keeps rfl <| .after (modPw_keeps _ _) rfl <| .mono (modFlt_keeps _ _) rfl

theorem handshakeDone_keeps {p : PowerRun} {s : State} : KeepsBut [.records, .flt, .pw, .ld, .hbs, .sw, .fs, .ns] s (handshakeDone p s) :=
  .ite (.after changeState_keeps rfl <| .mono (modPw_keeps _ _) rfl) sleepCommitPoint_keeps

theorem endEntry_keeps {uid status blk cause src : Nat} {s : State} : KeepsBut [.records, .pw] s (endEntry uid status blk cause src s) :=
  .after (finish_keeps _ _ _ _) rfl <| .after (watchStalls_keeps _) rfl <| .after (modPw_keeps _ _) rfl <| .mono (watchStalls_keeps _) rfl

theorem execPowerSet_keeps {o : Origin} {s : State} : OutKeeps [.records, .pw] s (execPowerSet o s) :=
  .runOut rfl fun _ _ _ =>
    .ite (.mono (finish_keeps _ _ _ _) rfl) <|
    .ite (.mono (modPw_keeps _ _) rfl) <|
    .ite (.mono changeState_keeps rfl) <| .after (watchStalls_keeps _) rfl <| .mono (modPw_keeps _ _) rfl

theorem execPowerQuery_keeps {o : Origin} {s : State} : OutKeeps [.records] s (execPowerQuery o s) :=
  .runOut rfl fun _ _ _ => finish_keeps _ _ _ _

theorem execAlarmSet_keeps {o : Origin} {s : State} : OutKeeps [.records, .pw] s (execAlarmSet o s) :=
  .runOut rfl fun _ _ _ => .after (finish_keeps _ _ _ _) rfl <| .mono (modPw_keeps _ _) rfl

theorem execEntryHandshakeAnswer_keeps {block : Fin 11} {a : BlockAnswer} {s : State} :
    OutKeeps [.records, .flt, .pw, .ld, .hbs, .sw, .fs, .ns] s (execEntryHandshakeAnswer block a s) :=
  .next <| by
    split
    · exact .refl
    · exact .ite .refl <| by
          split
          · exact .ite .refl <| .comp (.ite handshakeDone_keeps .refl) <| .mono (modPw_keeps _ _) rfl
          · exact .ite (.mono (modPw_keeps _ _) rfl) .refl
          · exact .ite (.mono endEntry_keeps rfl) .refl
          · split
            · exact .mono endEntry_keeps rfl
            · exact .refl

theorem execEntryTimeout_keeps {s : State} : OutKeeps [.records, .pw] s (execEntryTimeout s) :=
  .next <| by
    split
    · exact .refl
    · split
      · exact .refl
      · exact .ite endEntry_keeps .refl

theorem riseForWake_keeps {s : State} : KeepsBut [.pw] s (riseForWake s) := modPw_keeps _ _

theorem dieOff_keeps {park brownout : Bool} {s : State} :
    KeepsBut [.records, .ses, .stg, .flt, .pw, .hw, .upd, .ld, .hbs, .vs, .sw, .fs, .ns, .acc, .eng, .pairs, .links] s (dieOff park brownout s) :=
  .after (dieOffFields_keeps) rfl <| .mono familyDieOff_keeps rfl

theorem entryStep4_keeps {p : PowerRun} {s : State} : KeepsBut [.records, .mram, .pw, .hw, .ld] s (entryStep4 p s) :=
  .after powerEvent_keeps rfl <|
  .after (finish_keeps _ _ _ _) rfl <|
  .after (modPw_keeps _ _) rfl <|
  .after (modHw_keeps _ _) rfl <| .after (hwWriteAll_keeps _ _) rfl <| .after heatExact_keeps rfl <| .mono mirrorAll_keeps rfl

theorem entryTick_keeps {s : State} : KeepsBut [.records, .mram, .pw, .hw, .ld] s (entryTick s) := by
  unfold entryTick
  split
  · split
    · exact .ite entryStep4_keeps .refl
    · exact .refl
  · exact .refl

theorem entryComplete_keeps {s : State} :
    KeepsBut [.records, .ses, .stg, .flt, .pw, .hw, .upd, .ld, .hbs, .vs, .sw, .fs, .ns, .acc, .eng, .pairs, .links] s (entryComplete s) :=
  .comp (.ite (.mono riseForWake_keeps rfl) .refl) <| .after (modPw_keeps _ _) rfl dieOff_keeps

theorem execEntryComplete_keeps {s : State} :
    OutKeeps [.records, .ses, .stg, .flt, .pw, .hw, .upd, .ld, .hbs, .vs, .sw, .fs, .ns, .acc, .eng, .pairs, .links] s (execEntryComplete s) :=
  .next <| by
    split
    · split
      · exact .ite entryComplete_keeps .refl
      · exact .refl
    · exact .refl

theorem execStandbyExit_keeps {s : State} : OutKeeps [.pw] s (execStandbyExit s) :=
  .next <| .onlyIf fun _ => .after requestVcore_keeps rfl <| modPw_keeps _ _

theorem execVoutAcknowledge_keeps {vout status : Nat} {s : State} : OutKeeps [.records, .pw] s (execVoutAcknowledge vout status s) := by
  refine .next ?_
  split
  · exact .refl
  extract_lets s₁ s₂ s₃ s₄
  refine .ite .refl <|
    .comp (t := s₁) (.ite .refl <| .comp (t := s₂) (.ite .refl <| .comp (t := s₄) ?_ ?_) <| .mono (modPw_keeps _ _) rfl) <|
    .mono (modPw_keeps _ _) rfl
  · split
    · exact .mono (finish_keeps _ _ _ _) rfl
    · exact .refl
  · exact .after powerEvent_keeps rfl <| .ite (.mono (modPw_keeps _ _) rfl) .refl

theorem execPmbusNoAck_keeps {s : State} : OutKeeps [.records, .flt, .pw] s (execPmbusNoAck s) :=
  .next <| by
    split
    · exact .refl
    · exact .ite .refl <|
        .ite (.mono (modPw_keeps _ _) rfl) <|
        .comp (.ite
            (by
               split
               · exact .mono (finish_keeps _ _ _ _) rfl
               · exact .refl) <|
          .comp (by
              dsimp only
              split
              · exact .mono (finish_keeps _ _ _ _) rfl
              · exact .refl) <|
          .mono powerEvent_keeps rfl) <|
        .after (raise_keeps _ _ _) rfl <| .mono (modPw_keeps _ _) rfl

theorem execPmAlert_keeps {status : Nat} {s : State} : OutKeeps [.flt, .hw] s (execPmAlert status s) :=
  .next <| .whenOn fun _ => .comp (.ite (.mono (raise_keeps _ _ _) rfl) .refl) <| .mono hwPutAt_keeps rfl

theorem latchWake_keeps {src detail : Nat} {s : State} : KeepsBut [.pw] s (latchWake src detail s) :=
  .ite .refl <| .comp (.ite .refl riseForWake_keeps) <| modPw_keeps _ _

theorem execWakeLatch_keeps {w : WakeKind} {s : State} : OutKeeps [.pw, .sw, .ns] s (execWakeLatch w s) :=
  .next <|
  .onlyIf fun _ => by
      split
      · exact .ite (.after latchWake_keeps rfl <| .mono netLatch_keeps rfl) .refl
      · exact .ite (.ite .refl <| .after latchWake_keeps rfl <| .mono pollLatch_keeps rfl) .refl
      · exact .mono latchWake_keeps rfl

theorem execRootTimerWake_keeps {s : State} : OutKeeps [.pw] s (execRootTimerWake s) :=
  .next <| .onlyIf fun _ => .after latchWake_keeps rfl <| modPw_keeps _ _

theorem execPerstNWake_keeps {s : State} : OutKeeps [.pw] s (execPerstNWake s) := .next <| .onlyIf fun _ => latchWake_keeps

theorem execWakeNRelease_keeps {s : State} : OutKeeps [.pw] s (execWakeNRelease s) := .next <| .onlyIf fun _ => modPw_keeps _ _

theorem stopClocks_keeps {s : State} : KeepsBut [.pw] s (stopClocks s) := .ite (modPw_keeps _ _) .refl

theorem regTick_keeps {s : State} : KeepsBut [.pw] s (regTick s) := by
  unfold regTick
  split
  · exact .ite (modPw_keeps _ _) .refl
  · exact .refl

theorem execRegulatorRetry_keeps {s : State} : OutKeeps [.flt, .pw] s (execRegulatorRetry s) :=
  .next <|
  .onlyIf fun _ =>
    .comp (.ite (.mono (modPw_keeps _ _) rfl) <| .after (raise_keeps _ _ _) rfl <| .mono (modPw_keeps _ _) rfl) <|
    .mono stopClocks_keeps rfl

theorem execXtal32Start_keeps {s : State} : OutKeeps [.pw] s (execXtal32Start s) := .next <| .onlyIf fun _ => modPw_keeps _ _

theorem execXtal32Fail_keeps {s : State} : OutKeeps [.flt, .pw] s (execXtal32Fail s) :=
  .next <| .onlyIf fun _ => .after (raise_keeps _ _ _) rfl <| .mono (modPw_keeps _ _) rfl

theorem xtal40Failed_keeps {s : State} : KeepsBut [.records, .flt, .pw, .ld] s (xtal40Failed s) :=
  .after (raise_keeps _ _ _) rfl <|
  .after (modPw_keeps _ _) rfl <| .comp (.foldl fun _ _ => .mono applyLch_keeps rfl) <| .mono stopClocks_keeps rfl

theorem execXtal40Fail_keeps {s : State} : OutKeeps [.records, .flt, .pw, .ld] s (execXtal40Fail s) :=
  .next <| .onlyIf fun _ => xtal40Failed_keeps

theorem execXtal40Retry_keeps {runs : Bool} {s : State} : OutKeeps [.time, .records, .pw, .ld] s (execXtal40Retry runs s) :=
  .next <|
  .onlyIf fun _ =>
    .comp (.ite (.comp (.foldl fun _ _ => .mono applyLch_keeps rfl) <| .after (modPw_keeps _ _) rfl <| .after decayAll_keeps rfl <|
        .mono timeField_keeps rfl) <|
      .refl) <|
    .mono (modPw_keeps _ _) rfl

theorem powerFailEvent_keeps {fell : Bool} {vbat : Nat} {s : State} : KeepsBut [.records] s (powerFailEvent fell vbat s) :=
  emit_keeps _ _ _ _ _ _

theorem execPfwFall_keeps {vbat : Nat} {s : State} : OutKeeps [.records, .mram, .flt, .pw, .hw, .ld] s (execPfwFall vbat s) :=
  .next <|
  .onlyIf fun _ =>
    .after (sendVector_keeps _ _) rfl <|
    .after powerFailEvent_keeps rfl <|
    .after (raise_keeps _ _ _) rfl <| .after (hwWriteAll_keeps _ _) rfl <| .after heatExact_keeps rfl <| .mono (modPw_keeps _ _) rfl

theorem execPfwRise_keeps {vbat : Nat} {s : State} : OutKeeps [.records, .pw] s (execPfwRise vbat s) :=
  .next <| .onlyIf fun _ => .after powerFailEvent_keeps rfl <| .mono (modPw_keeps _ _) rfl

theorem execCrank_keeps {x : HeldV} {s : State} : OutKeeps [.flt, .pw] s (execCrank x s) :=
  .next <| .onlyIf fun _ => .after (raise_keeps _ _ _) rfl <| .mono (modPw_keeps _ _) rfl

/-! ### Update.lean -/

theorem updRecord_keeps {kind setId part old new chk : Nat} {reports : List Report} {s : State} :
    KeepsBut [.hw] s (updRecord kind setId part old new chk reports s) := hwPutAt_keeps

theorem reportNow_keeps {l : List Report} {s : State} : KeepsBut [.records] s (reportNow l s) := .foldl fun _ _ => releaseReport_keeps

theorem rejectSet_keeps {chk ver : Nat} {s : State} : KeepsBut [.flt, .hw] s (rejectSet chk ver s) :=
  .after (raise_keeps _ _ _) rfl <| .mono updRecord_keeps rfl

theorem setPart_keeps {p : Nat} {f : Machine.Part → Machine.Part} {s : State} : KeepsBut [.upd] s (setPart p f s) := modUpd_keeps _ _

theorem flipPart_keeps {slot p off total : Nat} {s : State} : KeepsBut [.hw, .upd] s (flipPart slot p off total s) :=
  .after updRecord_keeps rfl <| .after setPart_keeps rfl <| .mono (modUpd_keeps _ _) rfl

theorem fallBack_keeps {s : State} : KeepsBut [.flt, .hw, .upd] s (fallBack s) :=
  .after (raise_keeps _ _ _) rfl <| .after updRecord_keeps rfl <| .after (modUpd_keeps _ _) rfl <| .foldl fun _ _ => .mono setPart_keeps rfl

theorem graftBlock_keeps {writeOk : Bool} {s : State} : KeepsBut [.records, .flt, .hw, .upd] s (graftBlock writeOk s).2 := by
  unfold graftBlock
  extract_lets u slot
  split
  · split
    · exact .mono fallBack_keeps rfl
    extract_lets size total n key plain tgt s₁ s₂ s₃ copy s₄ s₅
    refine .comp (t := s₃) ?_ <| .comp (.ite (.mono reportNow_keeps rfl) .refl) <| .after (modUpd_keeps _ _) rfl <| .mono setPart_keeps rfl
    split
    · exact .refl
    split
    · exact .mono fallBack_keeps rfl
    refine .comp (t := s₄) ?_ <| .mono flipPart_keeps rfl
    split
    · exact .mono (modUpd_keeps _ _) rfl
    · exact .after reportNow_keeps rfl <| .mono (modUpd_keeps _ _) rfl
  · exact .mono fallBack_keeps rfl

theorem execUpdWrite_keeps {o : Origin} {b : BlockStep} {s : State} : OutKeeps [.records] s (execUpdWrite o b s) :=
  runBlock_keeps rfl fun _ _ _ _ => .after (finish_keeps _ _ _ _) rfl <| .mono xspiMem_keeps rfl

theorem execUpdArm_keeps {o : Origin} {s : State} : OutKeeps [.records, .hw, .upd] s (execUpdArm o s) :=
  .runOut rfl fun _ _ _ =>
    .ite (.mono (finishFree_keeps _ _ _) rfl) <| by
      split
      · exact .mono (finish_keeps _ _ _ _) rfl
      · exact .after (finishRecorded_keeps _ _ _ _ _ _ _) rfl <| .mono (modUpd_keeps _ _) rfl

theorem execUpdDisarm_keeps {o : Origin} {s : State} : OutKeeps [.records, .hw, .upd] s (execUpdDisarm o s) :=
  .runOut rfl fun _ _ _ =>
    .ite (.after (finishRecorded_keeps _ _ _ _ _ _ _) rfl <| .mono (modUpd_keeps _ _) rfl) <| .mono (finish_keeps _ _ _ _) rfl

theorem execUpdQuery_keeps {o : Origin} {s : State} : OutKeeps [.records] s (execUpdQuery o s) :=
  .runOut rfl fun _ _ _ => finish_keeps _ _ _ _

theorem confirmSet_keeps {session : Nat} {reports : List Report} {s : State} : KeepsBut [.hw, .upd] s (confirmSet session reports s) :=
  .after hwPutAt_keeps rfl <| .mono (modUpd_keeps _ _) rfl

theorem execUpdConfirm_keeps {o : Origin} {s : State} : OutKeeps [.records, .hw, .upd] s (execUpdConfirm o s) :=
  .runOut rfl fun _ _ _ => .after (finishGated_keeps _ _ _ _) rfl <| .mono confirmSet_keeps rfl

theorem execUpdReject_keeps {o : Origin} {s : State} : OutKeeps [.records, .flt] s (execUpdReject o s) :=
  .runOut rfl fun _ _ _ => .after (finish_keeps _ _ _ _) rfl <| .mono (modFlt_keeps _ _) rfl

theorem execUpdKeySet_keeps {o : Origin} {b : BlockStep} {s : State} : OutKeeps [.records, .hw, .upd] s (execUpdKeySet o b s) :=
  runBlock_keeps rfl fun _ _ _ _ =>
    .ite (.after (finishRecorded_keeps _ _ _ _ _ _ _) rfl <| .mono (modUpd_keeps _ _) rfl) <| .mono (finishFree_keeps _ _ _) rfl

theorem execTrialTimeout_keeps {s : State} : OutKeeps [.flt] s (execTrialTimeout s) :=
  .next <| .whenOn fun _ => .onlyIf fun _ => modFlt_keeps _ _

/-! ### Commit.lean -/

theorem acceptCommit_keeps {who : CommitWho} {session : Nat} {checkOnly : Bool} {tick : Nat} {s : State} :
    KeepsBut [.stg] s (acceptCommit who session checkOnly tick s) := modStg_keeps _ _

theorem execCommitCheck_keeps {o : Origin} {s : State} : OutKeeps [.records, .stg] s (execCommitCheck o s) :=
  .runOut rfl fun _ _ _ => .mono acceptCommit_keeps rfl

theorem execCommit_keeps {o : Origin} {s : State} : OutKeeps [.records, .stg] s (execCommit o s) :=
  .runOut rfl fun _ _ _ => .mono acceptCommit_keeps rfl

theorem regCommit_keeps {checkOnly : Bool} {s : State} : KeepsBut [.stg] s (regCommit checkOnly s) :=
  .ite (modStg_keeps _ _) acceptCommit_keeps

theorem regDiscard_keeps {s : State} : KeepsBut [.stg, .hw] s (regDiscard s) :=
  .ite .refl <| .after hwPutAt_keeps rfl <| .mono discardTables_keeps rfl

theorem stgCtrlWrite_keeps {v : Nat} {s : State} : KeepsBut [.stg, .hw] s (stgCtrlWrite v s) :=
  .comp (.ite .refl <|
    .comp (.ite (.mono (modStg_keeps _ _) rfl) <| .comp (.ite (.mono regCommit_keeps rfl) .refl) <| .ite regDiscard_keeps .refl) <|
    .ite (.mono (touchSession_keeps _ _) rfl) .refl) <|
  .mono (modStg_keeps _ _) rfl

theorem execStgCtrlCommit_keeps {v : Word} {s : State} : OutKeeps [.stg, .hw] s (execStgCtrlCommit v s) :=
  .next <| .whenOn fun _ => .onlyIf fun _ => .after stgCtrlWrite_keeps rfl <| .mono hostAccess_keeps rfl

theorem execStgCtrlCheck_keeps {v : Word} {s : State} : OutKeeps [.stg, .hw] s (execStgCtrlCheck v s) :=
  .next <| .whenOn fun _ => .onlyIf fun _ => .after stgCtrlWrite_keeps rfl <| .mono hostAccess_keeps rfl

theorem execStgCtrlDiscard_keeps {v : Word} {s : State} : OutKeeps [.stg, .hw] s (execStgCtrlDiscard v s) :=
  .next <| .whenOn fun _ => .onlyIf fun _ => .after stgCtrlWrite_keeps rfl <| .mono hostAccess_keeps rfl

theorem autoConfirm_keeps {s : State} : KeepsBut [.stg, .hw, .upd] s (autoConfirm s) :=
  .ite .refl <| .ite (.mono (modStg_keeps _ _) rfl) <| .mono confirmSet_keeps rfl

theorem execAutoCommit_keeps {s : State} : OutKeeps [.stg, .hw, .upd] s (execAutoCommit s) :=
  .next <| .whenOn fun _ => .comp (.onlyIf fun _ => .after acceptCommit_keeps rfl <| .mono (modStg_keeps _ _) rfl) autoConfirm_keeps

/-! ### Perf.lean -/

theorem pmcCycle_keeps {e : Fin 16} {main : Bool} {xs : List Occur} {s : State} : KeepsBut [] s (pmcCycle e main xs s) :=
  .foldl fun _ _ => by
      dsimp only
      split
      · exact .refl
      · exact unnamed_keeps

theorem slotCycle_keeps {e : Fin 16} {main : Bool} {c : Cycles} {s : State} : KeepsBut [] s (slotCycle e main c s) :=
  .after pmcCycle_keeps rfl unnamed_keeps

theorem slotCycles_keeps (e : Fin 16) (main : Bool) (c : Cycles) : ∀ (n : Nat) (s : State), KeepsBut [] s (slotCycles e main c n s)
  | 0, _ => .refl
  | n + 1, _ => .after (slotCycles_keeps e main c n _) rfl <| slotCycle_keeps

theorem runCycles_keeps {e : Fin 16} {main : Bool} {l : List Cycles} {s : State} : KeepsBut [] s (runCycles e main l s) :=
  .foldl fun _ _ => slotCycles_keeps _ _ _ _ _

theorem execPerfSet_keeps {o : Origin} {s : State} : OutKeeps [.records] s (execPerfSet o s) :=
  .runOut rfl fun _ _ _ => by
      dsimp only
      split
      · exact .refl
      · exact .after (finish_keeps _ _ _ _) rfl <| .mono unnamed_keeps rfl

theorem execFabSet_keeps {o : Origin} {s : State} : OutKeeps [.records] s (execFabSet o s) :=
  .runOut rfl fun _ _ _ => .after (finish_keeps _ _ _ _) rfl <| .mono unnamed_keeps rfl

theorem execPerfRing_keeps {o : Origin} {s : State} : OutKeeps [.records] s (execPerfRing o s) :=
  .runOut rfl fun _ _ _ => .after (finish_keeps _ _ _ _) rfl <| .mono unnamed_keeps rfl

theorem execPerfSnap_keeps {o : Origin} {s : State} : OutKeeps [.records] s (execPerfSnap o s) :=
  .runOut rfl fun _ _ _ => .after (finish_keeps _ _ _ _) rfl <| toBuffer_keeps _ _ _ _

theorem execPerfSample_keeps {s : State} : OutKeeps [.records] s (execPerfSample s) :=
  .next <|
  .whenOn fun _ => by
      split
      · exact .refl
      · exact .after (sendVector_keeps _ _) rfl <| .after (emit_keeps _ _ _ _ _ _) rfl <| .mono unnamed_keeps rfl

theorem latchFixed_keeps {e : Fin 16} {s : State} : KeepsBut [] s (latchFixed e s) := unnamed_keeps

theorem latchFab_keeps {n : Fin 4} {s : State} : KeepsBut [] s (latchFab n s) := unnamed_keeps

theorem execPcCyclesLoRead_keeps {e : Fin 16} {s : State} : OutKeeps [] s (execPcCyclesLoRead e s) :=
  .next <| .whenOn fun _ => .after latchFixed_keeps rfl hostAccess_keeps

theorem execFabLoRead_keeps {n : Fin 4} {s : State} : OutKeeps [] s (execFabLoRead n s) :=
  .next <| .whenOn fun _ => .after latchFab_keeps rfl hostAccess_keeps

/-! ### Sessions.lean -/

theorem setSes_keeps {n : Nat} {f : Ses → Ses} {s : State} : KeepsBut [.ses] s (setSes n f s) := sesField_keeps

theorem sessionFailure_keeps {n : Nat} {s : State} : KeepsBut [.ses] s (sessionFailure n s) := setSes_keeps

theorem sessionOpened_keeps {n : Nat} {s : State} : KeepsBut [.ses] s (sessionOpened n s) := setSes_keeps

theorem sessionClosed_keeps {n kind op : Nat} {reports : List Report} {s : State} :
    KeepsBut [.ses, .hw] s (sessionClosed n kind op reports s) := .after hwPutAt_keeps rfl <| .mono setSes_keeps rfl

theorem sessionClosedQuietly_keeps {n : Nat} {s : State} : KeepsBut [.ses, .hw] s (sessionClosedQuietly n s) :=
  .after hwPutAt_keeps rfl <| .mono setSes_keeps rfl

theorem execSessionChallenge_keeps {o : Origin} {s : State} : OutKeeps [.records, .ses] s (execSessionChallenge o s) :=
  .runOut rfl fun _ _ _ => .after (finish_keeps _ _ _ _) rfl <| .after setSes_keeps rfl <| .mono unnamed_keeps rfl

theorem execSessionOpen_keeps {o : Origin} {s : State} : OutKeeps [.records, .ses, .flt, .hw] s (execSessionOpen o s) :=
  .runOut rfl fun _ _ _ => by
      dsimp only
      split
      · exact .after (finishRecorded_keeps _ _ _ _ _ _ _) rfl <| .after (raise_keeps _ _ _) rfl <| .mono unnamed_keeps rfl
      · exact .ite (.after (finishGated_keeps _ _ _ _) rfl <| .after hwPutAt_keeps rfl <| .mono sessionOpened_keeps rfl) <|
          .after (finishRecorded_keeps _ _ _ _ _ _ _) rfl <|
          .after (raise_keeps _ _ _) rfl <| .after unnamed_keeps rfl <| .mono sessionFailure_keeps rfl

theorem execSessionClose_keeps {o : Origin} {s : State} : OutKeeps [.records, .ses, .hw] s (execSessionClose o s) :=
  .runOut rfl fun _ _ _ =>
    .ite (.after (finishGated_keeps _ _ _ _) rfl <| .mono sessionClosed_keeps rfl) <| .mono (finish_keeps _ _ _ _) rfl

theorem execChallengeExpiry_keeps {n : Fin 4} {s : State} : OutKeeps [.ses] s (execChallengeExpiry n s) :=
  .next <| .onlyIf fun _ => setSes_keeps

theorem execSessionLockExpiry_keeps {n : Fin 4} {s : State} : OutKeeps [.ses] s (execSessionLockExpiry n s) :=
  .next <| .onlyIf fun _ => setSes_keeps

theorem execSessionExpiry_keeps {n : Fin 4} {s : State} : OutKeeps [.ses, .hw] s (execSessionExpiry n s) :=
  .next <| .whenOn fun _ => .onlyIf fun _ => sessionClosed_keeps

theorem openRuntimeSession_keeps {s : State} : KeepsBut [.ses, .hw] s (openRuntimeSession s) :=
  .after hwPutAt_keeps rfl <| .mono sessionOpened_keeps rfl

theorem execRuntimeSessionOpen_keeps {s : State} : OutKeeps [.ses, .hw] s (execRuntimeSessionOpen s) :=
  .next <| .whenOn fun _ => .onlyIf fun _ => openRuntimeSession_keeps

/-! ### Startup.lean -/

theorem setTime_keeps {s : State} : KeepsBut [.time, .flt, .pw] s (setTime s) :=
  .ite
    (.after (raise_keeps _ _ _) rfl <| by
       split <;> exact .mono (timePw_keeps) rfl) <|
  .ite .refl <| .mono timeField_keeps rfl

theorem heartwoodScan_keeps {s : State} : KeepsBut [.flt, .hw] s (heartwoodScan s) :=
  .comp (.ite .refl <| .after (raise_keeps _ _ _) rfl <| .mono hwPutAt_keeps rfl) <|
  .comp (.ite (.mono (raise_keeps _ _ _) rfl) .refl) <| .mono (modHw_keeps _ _) rfl

theorem startRecord_keeps {s : State} : KeepsBut [.hw] s (startRecord s) := hwPutAt_keeps

theorem discoverXspi_keeps {found : StartFindings} {s : State} : KeepsBut [.flt, .upd] s (discoverXspi found s) :=
  .comp (.ite .refl <| .mono (raise_keeps _ _ _) rfl) <|
  .after (modUpd_keeps _ _) rfl <| .comp (.ite (.mono (raise_keeps _ _ _) rfl) .refl) <| .mono (modHost_keeps _ _) rfl

theorem bootChecks_keeps {s : State} : KeepsBut [.flt, .hw, .upd] s (bootChecks s) :=
  .comp (.ite .refl <| by
      split
      · exact fallBack_keeps
      · split
        · exact .after rejectSet_keeps rfl <| .mono (modUpd_keeps _ _) rfl
        · exact .mono (modUpd_keeps _ _) rfl
      · split
        · exact .mono (modUpd_keeps _ _) rfl
        · exact .after rejectSet_keeps rfl <| .after (modUpd_keeps _ _) rfl <| .foldl fun _ _ => .mono setPart_keeps rfl
      · exact .refl) <|
  .mono (modUpd_keeps _ _) rfl

theorem stageStored_keeps {s : State} : KeepsBut [.stg, .flt] s (stageStored s) :=
  .ite (.mono (modStg_keeps _ _) rfl) <| .after (raise_keeps _ _ _) rfl <| .mono (modStg_keeps _ _) rfl

theorem restoreFaults_keeps {s : State} : KeepsBut [.flt, .pw] s (restoreFaults s) :=
  .after (modFlt_keeps _ _) rfl <| by
    split
    · exact fltPw_keeps
    · exact .refl

theorem pairModes_keeps {s : State} : KeepsBut [.pairs] s (pairModes s) := pairsField_keeps

theorem deliverHeld_keeps {d : Die → Bool} {s : State} : KeepsBut [.records, .flt] s (deliverHeld d s) :=
  .comp (.foldl fun _ _ => .mono releaseReport_keeps rfl) <| .after (modFlt_keeps _ _) rfl <| .mono unnamed_keeps rfl

theorem reportEnded_keeps {s : State} : KeepsBut [.flt, .hw] s (reportEnded s) :=
  .comp (.foldl fun _ _ => .mono faultState_keeps rfl) <| .mono (modFlt_keeps _ _) rfl

theorem startStep7_keeps {s : State} :
    KeepsBut [.records, .ses, .stg, .flt, .pw, .hw, .ld, .hbs, .fs, .ns, .acc, .pairs, .links] s (startStep7 s) := by
  unfold startStep7
  extract_lets lost s₁ s₂ s₃ s₄ s₅ s₆ s₇
  refine .comp (t := s₇) ?_ <|
    .after powerEvent_keeps rfl <|
    .after (modPw_keeps _ _) rfl <|
    .after netReplay_keeps rfl <|
    .after (modPw_keeps _ _) rfl <|
    .after asReportLost_keeps rfl <|
    .comp (.ite .refl <| .mono openRuntimeSession_keeps rfl) <|
    .after deliverHeld_keeps rfl <|
    .after hbStart_keeps rfl <|
    .after nsStart_keeps rfl <|
    .after fsStart_keeps rfl <|
    .after (modPw_keeps _ _) rfl <|
    .after pairModes_keeps rfl <|
    .after reportEnded_keeps rfl <| .after stageStored_keeps rfl <| .after restoreFaults_keeps rfl <| .after heatRestore_keeps rfl <|
    .mono linksField_keeps rfl
  split
  · exact .refl
  · exact .comp (.ite .refl <| .mono (emitAt_keeps _ _ _ _ _ _ _ _) rfl) <| .mono (modPw_keeps _ _) rfl

theorem dropDamaged_keeps {found : StartFindings} {s : State} : KeepsBut [.stg, .ld] s (dropDamaged found s) :=
  .after modLd_keeps rfl <| .ite .refl <| .mono (modStg_keeps _ _) rfl

theorem closeSessions_keeps {s : State} : KeepsBut [.ses, .hw] s (closeSessions s) := .foldl fun _ _ => sessionClosedQuietly_keeps

theorem startTick_keeps {s : State} :
    KeepsBut [.records, .ses, .stg, .flt, .pw, .hw, .ld, .hbs, .fs, .ns, .acc, .pairs, .links] s (startTick s) := by
  unfold startTick
  split
  · exact .ite startStep7_keeps .refl
  · exact .refl

/-- Without its crystal the digital die does not start. -/
theorem digitalDieStart_keeps_of_noXtal {found : StartFindings} {s : State} (h : found.xtalRuns = false) :
    KeepsBut [.records, .flt, .pw, .ld] s (digitalDieStart found s) := by
  unfold digitalDieStart
  rw [if_pos (by simp [h])]
  exact .after (modFlt_keeps _ _) rfl <| .mono xtal40Failed_keeps rfl

/-- With its crystal it sets the time, and nothing after that changes DT or RT (R8). -/
theorem setTime_keeps_digitalDieStart {found : StartFindings} {s : State} (h : found.xtalRuns = true) :
    KeepsBut [.records, .ses, .stg, .flt, .pw, .hw, .upd, .acc] (setTime (dropDamaged found s)) (digitalDieStart found s) := by
  unfold digitalDieStart
  rw [if_neg (by simp [h])]
  exact .after bootChecks_keeps rfl <|
    .comp (.foldl fun _ _ => .mono pairSelfTestFailed_keeps rfl) <|
    .after asStart_keeps rfl <|
    .after discoverXspi_keeps rfl <|
    .after closeSessions_keeps rfl <|
    .after startRecord_keeps rfl <|
    .after heartwoodScan_keeps rfl <|
    .after requestVcore_keeps rfl <| .after (modPw_keeps _ _) rfl <| .mono (modFlt_keeps _ _) rfl

theorem digitalDieStart_keeps {found : StartFindings} {s : State} :
    KeepsBut [.time, .records, .ses, .stg, .flt, .pw, .hw, .upd, .ld, .acc] s (digitalDieStart found s) := by
  cases h : found.xtalRuns
  · exact .mono (digitalDieStart_keeps_of_noXtal h) rfl
  · exact .after (setTime_keeps_digitalDieStart h) rfl <| .after setTime_keeps rfl <| .mono dropDamaged_keeps rfl

theorem execDigitalDieStart_keeps {found : StartFindings} {s : State} :
    OutKeeps [.time, .records, .ses, .stg, .flt, .pw, .hw, .upd, .ld, .acc] s (execDigitalDieStart found s) :=
  .next <| .onlyIf fun _ => digitalDieStart_keeps

theorem execRootIslandPowerOn_keeps {vbat : Nat} {s : State} : OutKeeps [.time, .ses, .flt, .pw] s (execRootIslandPowerOn vbat s) :=
  .next <| .onlyIf fun _ => powerOnFields_keeps

theorem execRootIslandSupplyLoss_keeps {s : State} :
    OutKeeps [.records, .ses, .stg, .flt, .pw, .hw, .upd, .ld, .hbs, .vs, .sw, .fs, .ns, .acc, .eng, .pairs, .links] s (execRootIslandSupplyLoss s) :=
  .next <| .onlyIf fun _ => .after (supplyLossFields_keeps) rfl <| .after familySupplyLoss_keeps rfl <| .after fsField_keeps rfl dieOff_keeps

theorem execGraftBlock_keeps {writeOk : Bool} {s : State} : OutKeeps [.records, .flt, .hw, .upd] s (execGraftBlock writeOk s) :=
  .next <| .onlyIf fun _ => graftBlock_keeps

theorem safeDelivered_keeps {d : Die} {s : State} :
    KeepsBut [.records, .stg, .flt, .ld, .hbs, .vs, .fs, .ns, .acc, .eng, .pairs] s (safeDelivered d s) :=
  .ite (.mono fsSafeEntries_keeps rfl) safeEntry_keeps

theorem execSafeEntriesDelivered_keeps {die : Die} {s : State} :
    OutKeeps [.records, .stg, .flt, .ld, .hbs, .vs, .fs, .ns, .acc, .eng, .pairs, .links] s (execSafeEntriesDelivered die s) :=
  .next <| .onlyIf fun _ => .after safeDelivered_keeps rfl <| .mono linksField_keeps rfl

theorem execLinkFailure_keeps {die : Die} {s : State} :
    OutKeeps [.records, .stg, .flt, .hw, .ld, .hbs, .vs, .sw, .fs, .ns, .acc, .eng, .pairs, .links] s (execLinkFailure die s) :=
  .next <|
  .whenOn fun _ =>
    .onlyIf fun _ =>
      .after commitLinkLost_keeps rfl <| .after dieLost_keeps rfl <| .after (raise_keeps _ _ _) rfl <| .mono linksField_keeps rfl

theorem execLinkReturn_keeps {die : Die} {s : State} : OutKeeps [.records, .flt, .ld, .fs, .ns, .links] s (execLinkReturn die s) :=
  .next <| .whenOn fun _ => .onlyIf fun _ => .after dieBack_keeps rfl <| .after deliverHeld_keeps rfl <| .mono linksField_keeps rfl

theorem deviceReset_keeps {cause : Nat} {s : State} {brownout : Bool} :
    KeepsBut [.records, .ses, .stg, .flt, .pw, .hw, .upd, .ld, .hbs, .vs, .sw, .fs, .ns, .acc, .eng, .pairs, .links]
      s (deviceReset cause s brownout) :=
  .after (modPw_keeps _ _) rfl <| .after dieOff_keeps rfl <| .mono (modFlt_keeps _ _) rfl

theorem execDeviceReset_keeps {r : ResetSource} {s : State} :
    OutKeeps [.records, .ses, .stg, .flt, .pw, .hw, .upd, .ld, .hbs, .vs, .sw, .fs, .ns, .acc, .eng, .pairs, .links] s (execDeviceReset r s) :=
  .next <| by
    split
    · exact .whenOn fun _ => deviceReset_keeps
    · split
      · exact .ite (.after deviceReset_keeps rfl <| .mono (modHw_keeps _ _) rfl) .refl
      · exact .refl
    · split
      · exact .ite deviceReset_keeps .refl
      · exact .refl
    · split
      · exact .ite (.after deviceReset_keeps rfl <| .mono unnamed_keeps rfl) .refl
      · exact .refl

theorem execVcoreBrownout_keeps {s : State} :
    OutKeeps [.records, .ses, .stg, .flt, .pw, .hw, .upd, .ld, .hbs, .vs, .sw, .fs, .ns, .acc, .eng, .pairs, .links] s (execVcoreBrownout s) :=
  .next <|
  .whenOn fun _ =>
    .after (raise_keeps _ _ _) rfl <|
    .after deviceReset_keeps rfl <|
    .after (modFlt_keeps _ _) rfl <| .after safeEntry_keeps rfl <| .after (modFlt_keeps _ _) rfl <| .mono (modPw_keeps _ _) rfl

/-! ### Regs.lean -/

theorem lsClear_keeps {late : Option Nat} {k off : Nat} {s : State} : KeepsBut [.ld, .hbs] s (lsClear late k off s) := by
  unfold lsClear
  split
  · exact .ite (.mono setLch_keeps rfl) <| .ite (.mono setLch_keeps rfl) .refl
  · exact .ite (.mono setBank_keeps rfl) .refl
  · exact .ite (.mono setHb_keeps rfl) <| .ite (.mono setHb_keeps rfl) .refl
  · exact .refl

theorem vsClear_keeps {late : Option Nat} {off : Nat} {s : State} : KeepsBut [.vs] s (vsClear late off s) :=
  .ite modVs_keeps <| by
    split
    · split
      · exact .ite latchLedger_keeps .refl
      · exact .refl
    · exact .ite setVg_keeps .refl
    · exact .ite setVlv_keeps .refl
    · exact .refl

theorem swClear_keeps {late : Option Nat} {off : Nat} {s : State} : KeepsBut [.sw] s (swClear late off s) := by
  unfold swClear
  split
  · exact .ite setSwi_keeps .refl
  · exact .refl

theorem fsClear_keeps {late : Option Nat} {off : Nat} {s : State} : KeepsBut [.fs] s (fsClear late off s) := by
  unfold fsClear
  split
  · exact .ite setFio_keeps <| .ite setFio_keeps .refl
  · exact .ite modFs_keeps .refl

theorem nsClear_keeps {late : Option Nat} {off : Nat} {s : State} : KeepsBut [.ns] s (nsClear late off s) := by
  unfold nsClear
  split
  · exact .ite setLin_keeps .refl
  · exact .ite setSeg_keeps .refl
  · exact .refl

theorem asClear_keeps {late : Option Nat} {off : Nat} {s : State} : KeepsBut [.acc] s (asClear late off s) :=
  .ite modAcc_keeps <| by
    split
    · exact .ite modAcc_keeps .refl
    · exact .refl

theorem devClear_keeps {late : Option Nat} {a : Nat} {s : State} : KeepsBut [.flt, .pw, .hw, .pairs] s (devClear late a s) :=
  .ite (.mono (modFlt_keeps _ _) rfl) <|
  .ite (.mono (modPw_keeps _ _) rfl) <|
  .ite (.mono (modHw_keeps _ _) rfl) <| by
    split
    · exact .ite (.mono setPair_keeps rfl) .refl
    · split
      · exact .ite (.mono latchFixed_keeps rfl) <| .ite (.mono unnamed_keeps rfl) .refl
      · exact .refl
    · split
      · exact .ite (.mono latchFab_keeps rfl) .refl
      · exact .refl
    · exact .refl

theorem regClear_keeps {late : Option Nat} {a : Nat} {s : State} :
    KeepsBut [.flt, .pw, .hw, .ld, .hbs, .vs, .sw, .fs, .ns, .acc, .pairs] s (regClear late a s) :=
  .ite (.mono modLd_keeps rfl) <|
  .ite (.mono lsClear_keeps rfl) <| by
    split
    · exact .mono vsClear_keeps rfl
    · exact .mono swClear_keeps rfl
    · exact .mono fsClear_keeps rfl
    · exact .mono nsClear_keeps rfl
    · exact .mono asClear_keeps rfl
    · exact .mono devClear_keeps rfl

theorem regRead_keeps {a : Nat} {s : State} : KeepsBut [.flt, .pw, .hw, .ld, .hbs, .vs, .sw, .fs, .ns, .acc, .pairs] s (regRead a s).2 :=
  regClear_keeps

theorem hbCfgWrite_keeps {v : Nat} {s : State} : KeepsBut [] s (hbCfgWrite v s) := .ite (modHost_keeps _ _) <| modHost_keeps _ _

theorem hostWrite_keeps {off v : Nat} {s : State} : KeepsBut [] s (hostWrite off v s) :=
  .ite hbCfgWrite_keeps <|
  .ite (modHost_keeps _ _) <| by
    split
    · exact modHost_keeps _ _
    · exact .refl

theorem powerWrite_keeps {off v : Nat} {s : State} : KeepsBut [.pw] s (powerWrite off v s) := by
  unfold powerWrite
  dsimp only
  split
  · exact .ite (modPw_keeps _ _) <| modPw_keeps _ _
  · exact modPw_keeps _ _
  · exact .ite (modPw_keeps _ _) <| modPw_keeps _ _
  · exact .ite (modPw_keeps _ _) <| modPw_keeps _ _
  · exact .refl

theorem msixWrite_keeps {v o x : Nat} {s : State} : KeepsBut [.records] s (msixWrite v o x s) :=
  .after sendPending_keeps rfl <| .mono (modHost_keeps _ _) rfl

theorem ringWordWrite_keeps {n : Fin 64} {o v : Nat} {s : State} : KeepsBut [.records, .flt] s (ringWordWrite n o v s) := by
  unfold ringWordWrite
  split
  · exact ringSetupWrite_keeps
  · exact ringSetupWrite_keeps
  · exact ringSetupWrite_keeps
  · exact ringSetupWrite_keeps
  · exact ringSetupWrite_keeps
  · exact ringSetupWrite_keeps
  · exact .mono (setRing_keeps _ _ _) rfl
  · exact .refl

theorem stgWrite_keeps {off v : Nat} {s : State} : KeepsBut [.stg, .hw] s (stgWrite off v s) := by
  unfold stgWrite
  split
  · exact stgCtrlWrite_keeps
  · exact .mono (modStg_keeps _ _) rfl
  · exact stgDataWrite_keeps
  · exact .mono (modStg_keeps _ _) rfl
  · exact .refl

theorem regWrite_keeps {a v : Nat} {s : State} : KeepsBut [.records, .stg, .flt, .pw, .hw, .upd] s (regWrite a v s) :=
  .ite .refl <| by
    dsimp only
    split
    · split
      · exact .mono doorbellWrite_keeps rfl
      · exact .refl
    · split
      · exact .mono ringWordWrite_keeps rfl
      · exact .refl
    · exact .mono msixWrite_keeps rfl
    · exact .ite (.mono stgWrite_keeps rfl) <|
        .ite (.mono hostWrite_keeps rfl) <| .ite (.mono powerWrite_keeps rfl) <| .ite (.mono (modUpd_keeps _ _) rfl) .refl

theorem cfgWrite_keeps {off v be : Nat} {s : State} : KeepsBut [.records] s (cfgWrite off v be s) := by
  unfold cfgWrite
  dsimp only
  split
  · exact .mono (modHost_keeps _ _) rfl
  · exact .mono (modHost_keeps _ _) rfl
  · exact .mono (modHost_keeps _ _) rfl
  · exact .mono (modHost_keeps _ _) rfl
  · exact .mono (modHost_keeps _ _) rfl
  · exact .after sendPending_keeps rfl <| .mono (modHost_keeps _ _) rfl
  · exact .mono (modHost_keeps _ _) rfl
  · exact .mono (modHost_keeps _ _) rfl
  · exact .refl

theorem badWrite_keeps {s : State} : KeepsBut [.records, .flt] s (badWrite s) :=
  .after (raise_keeps _ _ _) rfl <| .after aerReport_keeps rfl <| .mono (modHost_keeps _ _) rfl

theorem writeWords_keeps : ∀ (a : Nat) (l : List (Word × BitVec 4)) (s : State), KeepsBut [.records, .stg, .flt, .pw, .hw, .upd] s (writeWords a l s)
  | _, [], _ => .refl
  | a, (_, _) :: l, _ => .after (writeWords_keeps (a + 4) l _) rfl <|
    .ite (.after regWrite_keeps rfl <| .mono hostAccess_keeps rfl) <| .mono badWrite_keeps rfl

theorem execRegisterWrite_keeps {p : HostPlace} {v : List Word} {be : List (BitVec 4)} {s : State} :
    OutKeeps [.records, .stg, .flt, .pw, .hw, .upd] s (execRegisterWrite p v be s) :=
  .next <|
  .whenOn fun _ => by
      split
      · exact .ite (.mono badWrite_keeps rfl) <| writeWords_keeps _ _ _
      · split
        · exact .mono cfgWrite_keeps rfl
        · exact .refl

theorem execReadClear_keeps {addr : Nat} {late : Option Nat} {s : State} :
    OutKeeps [.flt, .pw, .hw, .ld, .hbs, .vs, .sw, .fs, .ns, .acc, .pairs] s (execReadClear addr late s) :=
  .next <| .whenOn fun _ => .after regClear_keeps rfl <| .mono hostAccess_keeps rfl

theorem execHostRead_keeps {p : HostPlace} {len : Nat} {s : State} : OutKeeps [.records, .flt] s (execHostRead p len s) :=
  .next <|
  .whenOn fun _ => by
      split
      · exact .mono (toHost_keeps _ _) rfl
      · exact .ite .refl <| .ite (.mono (modHost_keeps _ _) rfl) <| .after (raise_keeps _ _ _) rfl <| .mono aerReport_keeps rfl

theorem answerRead_keeps {r : InRead} {s : State} :
    KeepsBut [.records, .flt, .pw, .hw, .ld, .hbs, .vs, .sw, .fs, .ns, .acc, .pairs] s (answerRead r s) :=
  .ite (.after (toHost_keeps _ _) rfl <| .after regRead_keeps rfl <| .mono hostAccess_keeps rfl) <|
  .after (toHost_keeps _ _) rfl <| .after regRead_keeps rfl <| .after regRead_keeps rfl <| .mono hostAccess_keeps rfl

theorem answerReads_keeps : ∀ (n : Nat) (s : State),
    KeepsBut [.records, .flt, .pw, .hw, .ld, .hbs, .vs, .sw, .fs, .ns, .acc, .pairs] s (answerReads n s)
  | 0, _ => .refl
  | n + 1, s => by
    unfold answerReads
    split
    · exact .refl
    · exact .ite (.after (answerReads_keeps n _) rfl <| .after answerRead_keeps rfl <| .mono (modHost_keeps _ _) rfl) <| .refl

/-! ### EngMem.lean -/

theorem getEng_keeps {e : Nat} : EngKeeps [] (getEng e) := .ok fun _ => .refl

theorem modEng_keeps {e : Nat} {f : Eng → Eng} : EngKeeps [.eng] (modEng e f) := .ok fun _ => setEng_keeps

theorem addCost_keeps {f : Cost → Cost} : EngKeeps [] (addCost f) := .ok fun _ => .refl

theorem noteItem_keeps {lane v : Nat} : EngKeeps [] (noteItem lane v) := addCost_keeps

theorem noteInput_keeps {v : Nat} : EngKeeps [] (noteInput v) := addCost_keeps

theorem putReg_keeps {e : Nat} {c : RegCode} {v : Word} : EngKeeps [.eng] (putReg e c v) :=
  .bind (.mono getEng_keeps rfl) fun _ => .ite .stops <| .ok fun _ => setEng_keeps

theorem lowerSp_keeps {e n : Nat} : EngKeeps [.eng] (lowerSp e n) :=
  .bind (.mono getEng_keeps rfl) fun _ => .ite .stops <| .bind putReg_keeps fun _ => .pure

theorem windowRead_keeps {e : Nat} {line : Bool} {addr n : Nat} : EngKeeps [] (windowRead e line addr n) := by
  intro c x c' h
  unfold windowRead at h
  split at h
  · split at h
    · split at h
      · cases h
        exact .refl
      · cases h
    · cases h
  · cases h

theorem askHost_keeps {e keep : Nat} {line : Bool} {addr n : Nat} {s : State} : KeepsBut [.records] s (askHost e keep line addr n s) := by
  unfold askHost
  split
  · exact .refl
  · exact .after sendRead_keeps rfl <| .after setAsked_keeps rfl <| .after dropAsked_keeps rfl recordFields_keeps

theorem serveLine_keeps {e : Nat} {l : Line} {a n : Nat} {s : State} : KeepsBut [] s (serveLine e l a n s) := setLines_keeps

theorem windowLoad_keeps {e a n : Nat} : EngKeeps [] (windowLoad e a n) := by
  refine .bind .get fun c => .ite .pure <| .ite ?_ <| .bind windowRead_keeps fun r => ?_
  · dsimp only
    split
    · exact .bind (.modCx fun _ => serveLine_keeps) fun _ => .pure
    · refine .bind windowRead_keeps fun r => ?_
      cases r <;> exact .pure
  · cases r <;> exact .pure

theorem dropLines_keeps {a : Nat} {s : State} : KeepsBut [.flt] s (dropLines a s) :=
  .comp (.foldl fun _ _ => countUnused_keeps) <| .mono unnamed_keeps rfl

theorem fenceLines_keeps {e : Nat} {s : State} : KeepsBut [.flt] s (fenceLines e s) :=
  .comp (.foldl fun _ _ => countUnused_keeps) <| .mono setLines_keeps rfl

theorem windowStore_keeps {e a n v : Nat} {s : State} : KeepsBut [.records, .flt] s (windowStore e a n v s) :=
  .comp (.ite (.comp (.ite unconfirmed_keeps .refl) <| .mono (countLost_keeps _) rfl) <|
    .comp (.ite .refl <| .after serveConfirms_keeps rfl <| .mono unnamed_keeps rfl) <| .mono (toHost_keeps _ _) rfl) <|
  .mono dropLines_keeps rfl

theorem commitStore_keeps {e a n v wait : Nat} {s : State} : KeepsBut [.records, .stg, .flt, .pw, .hw, .upd] s (commitStore e a n v wait s) := by
  unfold commitStore
  split
  · exact .after (fabCount_keeps _ _ _ _ _ _ _) rfl <| .mono (sramWrite_keeps _ _) rfl
  · exact .comp (.ite (.mono (modHw_keeps _ _) rfl) .refl) <| .mono (fabCount_keeps _ _ _ _ _ _ _) rfl
  · exact .comp (.ite regWrite_keeps .refl) <| .mono (fabCount_keeps _ _ _ _ _ _ _) rfl
  · exact .after windowStore_keeps rfl <| .mono (fabCount_keeps _ _ _ _ _ _ _) rfl
  · exact .refl

theorem drainOne_keeps {e : Nat} {s : State} : KeepsBut [.records, .stg, .flt, .pw, .hw, .upd, .eng] s (drainOne e s) := by
  unfold drainOne
  split
  · exact .refl
  · exact .after commitStore_keeps rfl <| .mono engField_keeps rfl

theorem drainBuf_keeps (e : Nat) : ∀ (n : Nat) (s : State), KeepsBut [.records, .stg, .flt, .pw, .hw, .upd, .eng] s (drainBuf e n s)
  | 0, _ => .refl
  | n + 1, _ => .after (drainBuf_keeps e n _) rfl <| drainOne_keeps

theorem drained_keeps {e : Nat} {s : State} : KeepsBut [.records, .stg, .flt, .pw, .hw, .upd, .eng] s (drained e s) := drainBuf_keeps _ _ _

theorem leaveStore_keeps {e a n v wait : Nat} {s : State} :
    KeepsBut [.records, .stg, .flt, .pw, .hw, .upd, .eng] s (leaveStore e a n v wait s) := by
  unfold leaveStore
  split
  · exact .mono commitStore_keeps rfl
  · exact .mono commitStore_keeps rfl
  · exact .after engField_keeps rfl <| .ite drainOne_keeps .refl

theorem pushDesc_keeps {e : Fin 16} {d : Desc} {s : State} : KeepsBut [.records] s (pushDesc e d s) :=
  .after (retireUnknown_keeps _ _ _) rfl recordFields_keeps

theorem releaseItem_keeps {k : Nat} {s : State} : KeepsBut instrParts s (releaseItem k s) := by
  unfold releaseItem
  split
  · exact .refl
  · exact .comp (by
          dsimp only
          split
          · exact .mono leaveStore_keeps rfl
          · split
            · exact .mono pushDesc_keeps rfl
            · exact .refl) <|
      .mono setPair_keeps rfl

theorem releaseItems_keeps (k : Nat) : ∀ (n : Nat) (s : State), KeepsBut instrParts s (releaseItems k n s)
  | 0, _ => .refl
  | n + 1, _ => .after (releaseItems_keeps k n _) rfl <| releaseItem_keeps

theorem shadowStep_keeps {k : Nat} {s : State} : KeepsBut instrParts s (shadowStep k s) := by
  unfold shadowStep
  split
  · exact .refl
  · exact .after (releaseItems_keeps _ _ _) rfl <|
      .comp (by
          split
          · exact .mono runCycles_keeps rfl
          · exact .refl) <|
      .after setEng_keeps rfl <| .mono setPair_keeps rfl

theorem shadowSteps_keeps (k : Nat) : ∀ (n : Nat) (s : State), KeepsBut instrParts s (shadowSteps k n s)
  | 0, _ => .refl
  | n + 1, _ => .after (shadowSteps_keeps k n _) rfl <| shadowStep_keeps

theorem catchUp_keeps {k : Nat} {s : State} : KeepsBut instrParts s (catchUp k s) :=
  shadowSteps_keeps _ _ _

theorem runShadow_keeps (k : Nat) : ∀ (n : Nat) (s : State), KeepsBut instrParts s (runShadow k n s)
  | 0, _ => .refl
  | n + 1, _ => .ite (.after (runShadow_keeps k n _) rfl <| shadowStep_keeps) <| .refl

theorem holdItem_keeps {k : Nat} {i : HeldItem} {s : State} :
    KeepsBut instrParts s (holdItem k i s) :=
  .after setPair_keeps rfl <| .comp (.ite .refl releaseItem_keeps) <| .ite .refl catchUp_keeps

theorem pushTrail_keeps {k stall shadowStall : Nat} {t : TrailEntry} {s : State} :
    KeepsBut instrParts s (pushTrail k stall shadowStall t s) :=
  .after (runShadow_keeps _ _ _) rfl <| .after setPair_keeps rfl <| .ite catchUp_keeps .refl

theorem settled_keeps {e : Nat} {s : State} : KeepsBut instrParts s (settled e s) :=
  .after drained_keeps rfl <| .ite catchUp_keeps .refl

theorem readArea_keeps {x : Issue} {ar : Area} {a n : Nat} :
    EngKeeps loadParts (readArea x ar a n) := by
  unfold readArea
  split
  · exact .bind .get fun _ => .pure
  · exact .bind (.modCx fun _ => .mono settled_keeps rfl) fun _ =>
      .bind (.modCx fun _ => .mono (fabCount_keeps _ _ _ _ _ _ _) rfl) fun _ => .bind .get fun _ => .pure
  · exact .bind (.modCx fun _ => .mono settled_keeps rfl) fun _ =>
      .bind (.modCx fun _ => .mono (fabCount_keeps _ _ _ _ _ _ _) rfl) fun _ => .bind .get fun _ => .pure
  · exact .bind (.modCx fun _ => .mono settled_keeps rfl) fun _ =>
      .bind (.modCx fun _ => .mono (fabCount_keeps _ _ _ _ _ _ _) rfl) fun _ => .getSet (fun _ => .mono regRead_keeps rfl) fun _ => .pure
  · exact .bind (.modCx fun _ => .mono settled_keeps rfl) fun _ =>
      .bind (.modCx fun _ => .mono (fabCount_keeps _ _ _ _ _ _ _) rfl) fun _ => .mono windowLoad_keeps rfl

theorem memLoad_keeps {x : Issue} {a n : Nat} :
    EngKeeps loadParts (memLoad x a n) :=
  .bind (.get) fun _ => by
    split
    · exact .stops
    · exact .stops
    · exact .ite .stops <| .bind readArea_keeps fun _ => .bind (.mono addCost_keeps rfl) fun _ => .pure

theorem writeArea_keeps {x : Issue} {ar : Area} {a n v : Nat} :
    EngKeeps instrParts (writeArea x ar a n v) := by
  unfold writeArea
  split
  · exact .mono modEng_keeps rfl
  · exact .modCx fun _ => .ite holdItem_keeps <| .mono leaveStore_keeps rfl

theorem memStore_keeps {x : Issue} {a n v : Nat} : EngKeeps instrParts (memStore x a n v) :=
  .bind (.get) fun _ => by
    split
    · exact .stops
    · exact .stops
    · exact .bind (.mono addCost_keeps rfl) fun _ => writeArea_keeps

theorem storeWords_keeps (x : Issue) : ∀ (a : Nat) (l : List Word), EngKeeps instrParts (storeWords x a l)
  | _, [] => .pure
  | a, _ :: ws => .bind memStore_keeps fun _ => storeWords_keeps x (a + 4) ws

theorem loadWords_keeps (x : Issue) : ∀ (a n : Nat), EngKeeps loadParts (loadWords x a n)
  | _, 0 => .pure
  | a, n + 1 => .bind memLoad_keeps fun _ => .bind (loadWords_keeps x (a + 4) n) fun _ => .pure

/-! ### EngCore.lean -/

theorem nameSamples_keeps {e pc : Nat} {skid : Bool} {s : State} : KeepsBut [] s (nameSamples e pc skid s) := unnamed_keeps

theorem chargeHandler_keeps {e n : Nat} {s : State} : KeepsBut [.eng] s (chargeHandler e n s) := setEng_keeps

theorem chargeStall_keeps {e n : Nat} {s : State} : KeepsBut [.pairs] s (chargeStall e n s) := .ite setPair_keeps .refl

theorem followed_keeps {e : Fin 16} {check : Bool} {x : Issue} {charge : List Cycles} {items : List (Nat × Nat)} {samples : List Nat} {g : Eng}
    {s : State} :
    KeepsBut instrParts s (followed e check x charge items samples g s) :=
  .ite .refl <| .after pushTrail_keeps rfl <| .ite (.mono setPair_keeps rfl) .refl

theorem storeFrame_keeps {x : Issue} {pc : Word} : EngKeeps instrParts (storeFrame x pc) :=
  .bind (.mono getEng_keeps rfl) fun _ => .ite .stops <| .bind (.mono modEng_keeps rfl) fun _ => storeWords_keeps _ _ _

theorem doubleTrap_keeps {e : Nat} {s : State} : KeepsBut [.flt, .eng] s (doubleTrap e s) :=
  .after (raise_keeps _ _ _) rfl <| .mono setEng_keeps rfl

theorem taskTrap_keeps {e : Nat} {h : Option Handler} {cause : Nat} {pc : Word} {s : State} :
    KeepsBut [.stg, .flt, .hw, .eng, .pairs] s (taskTrap e h cause pc s) :=
  .comp (by
      unfold taskTrap
      dsimp only
      split
      · exact .mono stopProgs_keeps rfl
      · exact .refl) <|
  .after engRecord_keeps rfl <| .mono (raise_keeps _ _ _) rfl

theorem takeTrap_keeps {x : Issue} {cause code : Nat} {addr : Option Nat} {pc : Word} {spent : Occur → Bool → List Cycles} {s : State} :
    KeepsBut instrParts s (takeTrap x cause code addr pc spent s) := by
  unfold takeTrap
  dsimp only
  refine .comp (t := nameSamples x.engine.val pc.toNat true
    (runCycles x.engine true (spent (occurOf (eng s x.engine.val) pc) true) (dropAsked x.engine.val 0 s))) ?_ <|
    .after nameSamples_keeps rfl <| .after runCycles_keeps rfl <| .mono dropAsked_keeps rfl
  split
  · exact .after followed_keeps rfl <| .mono doubleTrap_keeps rfl
  · next c h =>
    exact .after followed_keeps rfl <|
      .comp (.ite (.mono taskTrap_keeps rfl) .refl) <|
      .after runCycles_keeps rfl <| .after setEng_keeps rfl <| storeFrame_keeps _ _ c h

theorem complete_keeps {x : Issue} {k : Kind} {a : After} {before : Eng} {cost : Cost} {s : State} :
    KeepsBut instrParts s (complete x k a before cost s) :=
  .after followed_keeps rfl <|
  .after chargeStall_keeps rfl <|
  .after chargeHandler_keeps rfl <|
  .after runCycles_keeps rfl <| .after nameSamples_keeps rfl <| .after setAsked_keeps rfl <| .mono setEng_keeps rfl

theorem fillPorts_keeps {x : Issue} {s : State} : KeepsBut [] s (fillPorts x s) :=
  .foldl fun _ _ => by
      dsimp only
      split
      · exact fabCount_keeps _ _ _ _ _ _ _
      · exact fabCount_keeps _ _ _ _ _ _ _
      · exact fabCount_keeps _ _ _ _ _ _ _
      · exact .refl

/-- An instruction keeps what its computation keeps, but for what traps and completing touch (R340, R348). -/
theorem runInstr_keeps {may : List Safety.Part} {x : Issue} {k : Kind} {body : EngM After} {s : State} (hm : Within instrParts may)
    (h : EngKeeps may body) : KeepsBut may s (runInstr x k body s) := by
  unfold runInstr
  dsimp only
  split
  · exact .mono takeTrap_keeps hm
  · refine .ite .refl <| .ite (.mono (a := instrParts) (.after takeTrap_keeps rfl <| .mono setEng_keeps rfl) hm) ?_
    split
    · exact .refl
    · exact .mono (a := instrParts) (.mono askHost_keeps rfl) hm
    · exact .mono (a := instrParts) (.after takeTrap_keeps rfl <| .after setEng_keeps rfl <| .mono fillPorts_keeps rfl) hm
    · next c e => exact .comp (.mono (a := instrParts) (.after complete_keeps rfl <| .mono fillPorts_keeps rfl) hm) (h _ _ c e)

theorem instrOut_keeps {may : List Safety.Part} {x : Issue} {k : Kind} {body : EngM After} {s : State} (hm : Within instrParts may)
    (h : EngKeeps may body) : OutKeeps may s (instrOut x k body s) := .next <| .onlyIf fun _ => runInstr_keeps hm h

/-! ### Operands.lean -/

theorem updateBase_keeps {e : Nat} {b : RegCode} {v : Option Word} : EngKeeps [.eng] (updateBase e b v) := by
  unfold updateBase
  split
  · exact .ok fun _ => setEng_keeps
  · exact .pure

/-! ### EngLs.lean -/

theorem address_keeps {x : Issue} {b : RegCode} {m : Amode} {n : Nat} : EngKeeps [] (address x b m n) :=
  .bind getEng_keeps fun _ => .ite .stops <| .ite .stops .pure

theorem execLd_keeps {x : Issue} {d b : RegCode} {m : Amode} {sz : Size} {sx : Bool} {s : State} :
    OutKeeps loadParts s (execLd x d b m sz sx s) :=
  instrOut_keeps rfl <|
    .ite .stops <|
    .bind (.mono getEng_keeps rfl) fun _ =>
    .bind (.mono address_keeps rfl) fun _ =>
    .bind memLoad_keeps fun _ => .bind (.mono updateBase_keeps rfl) fun _ => .bind (.mono putReg_keeps rfl) fun _ => .pure

theorem execSt_keeps {x : Issue} {d b : RegCode} {m : Amode} {sz : Size} {s : State} :
    OutKeeps instrParts s (execSt x d b m sz s) :=
  instrOut_keeps rfl <|
    .bind (.mono getEng_keeps rfl) fun _ =>
    .bind (.mono address_keeps rfl) fun _ => .bind memStore_keeps fun _ => .bind (.mono updateBase_keeps rfl) fun _ => .pure

theorem execLea_keeps {x : Issue} {d b : RegCode} {m : Amode} {s : State} :
    OutKeeps instrParts s (execLea x d b m s) :=
  instrOut_keeps rfl <| .ite .stops <| .bind (.mono address_keeps rfl) fun _ => .bind (.mono putReg_keeps rfl) fun _ => .pure

theorem execPushm_keeps {x : Issue} {mask : BitVec 11} {s : State} :
    OutKeeps instrParts s (execPushm x mask s) :=
  instrOut_keeps rfl <|
    .bind (.mono addCost_keeps rfl) fun _ =>
    .bind (.mono getEng_keeps rfl) fun _ => .bind (.mono lowerSp_keeps rfl) fun _ => .bind (storeWords_keeps _ _ _) fun _ => .pure

theorem putWords_keeps (e : Nat) : ∀ (l : List RegCode) (ws : List Word), EngKeeps [.eng] (putWords e l ws)
  | _ :: cs, _ :: ws => .bind putReg_keeps fun _ => putWords_keeps e cs ws
  | [], _ => .pure
  | _ :: _, [] => .pure

theorem execPopm_keeps {x : Issue} {mask : BitVec 11} {s : State} :
    OutKeeps loadParts s (execPopm x mask s) :=
  instrOut_keeps rfl <|
    .bind (.mono addCost_keeps rfl) fun _ =>
    .bind (.mono getEng_keeps rfl) fun _ =>
    .bind (loadWords_keeps _ _ _) fun _ => .bind (.mono (putWords_keeps _ _ _) rfl) fun _ => .bind (.mono putReg_keeps rfl) fun _ => .pure

theorem execMovs_keeps {x : Issue} {d b : RegCode} {sz : Size} {s : State} :
    OutKeeps loadParts s (execMovs x d b sz s) :=
  instrOut_keeps rfl <|
    .ite .stops <|
    .bind (.mono getEng_keeps rfl) fun _ =>
    .ite .stops <|
    .bind (memLoad_keeps) fun _ =>
    .bind (.mono memStore_keeps rfl) fun _ =>
    .ite (.getSet (fun _ => .mono unnamed_keeps rfl) fun _ => .bind (.mono noteItem_keeps rfl) fun _ => .bind (.mono modEng_keeps rfl) fun _ =>
        .bind (.mono addCost_keeps rfl) fun _ => .pure) <|
    .bind (.mono updateBase_keeps rfl) fun _ => .bind (.mono updateBase_keeps rfl) fun _ => .bind (.mono addCost_keeps rfl) fun _ => .pure

theorem atomic_keeps {x : Issue} {a : Nat} {new : Nat → Option Word} :
    EngKeeps loadParts (atomic x a new) :=
  .bind (.get) fun _ => by
    split
    · exact .stops
    · exact .bind (memLoad_keeps) fun _ =>
        .ite
          (.bind (.mono noteInput_keeps rfl) fun _ => by
             split
             · exact .pure
             · split
               · exact .bind (.mono noteItem_keeps rfl) fun _ => .bind (.mono modEng_keeps rfl) fun _ => .pure
               · exact .bind (.mono noteItem_keeps rfl) fun _ => .bind (.modCx fun _ => .mono commitStore_keeps rfl) fun _ => .pure
               · exact .pure) <| by
          split
          · exact .pure
          · split
            · exact .bind (.mono noteItem_keeps rfl) fun _ => .bind (.mono modEng_keeps rfl) fun _ => .pure
            · exact .bind (.mono noteItem_keeps rfl) fun _ => .bind (.modCx fun _ => .mono commitStore_keeps rfl) fun _ => .pure
            · exact .pure

theorem execXchg_keeps {x : Issue} {d b : RegCode} {disp : BitVec 12} {s : State} :
    OutKeeps loadParts s (execXchg x d b disp s) :=
  instrOut_keeps rfl <|
    .bind (.mono getEng_keeps rfl) fun _ =>
    .bind (.mono addCost_keeps rfl) fun _ => .bind atomic_keeps fun _ => .bind (.mono putReg_keeps rfl) fun _ => .pure

theorem execCas_keeps {x : Issue} {d r t : RegCode} {s : State} :
    OutKeeps loadParts s (execCas x d r t s) :=
  instrOut_keeps rfl <|
    .bind (.get) fun _ =>
    .ite .stops <| .bind (.mono addCost_keeps rfl) fun _ => .bind atomic_keeps fun _ => .bind (.mono putReg_keeps rfl) fun _ => .pure

/-! ### EngSys.lean -/

theorem earlierDone_keeps {x : Issue} : EngKeeps instrParts (earlierDone x) :=
  .bind (.modCx fun _ => settled_keeps) fun _ => .bind .get fun _ => .ite .stops .pure

theorem execNopInstruction_keeps {x : Issue} {s : State} :
    OutKeeps instrParts s (execNopInstruction x s) := instrOut_keeps rfl <| .pure

theorem execFence_keeps {x : Issue} {s : State} : OutKeeps instrParts s (execFence x s) :=
  instrOut_keeps rfl <| .bind earlierDone_keeps fun _ => .bind (.modCx fun _ => .mono fenceLines_keeps rfl) fun _ => .pure

theorem descPlace_keeps {x : Issue} {a : Nat} : EngKeeps [] (descPlace x a) := .bind .get fun _ => .ite .stops <| .ite .pure .stops

theorem execSend_keeps {x : Issue} {d r : RegCode} {s : State} :
    OutKeeps loadParts s (execSend x d r s) :=
  instrOut_keeps rfl <|
    .ite .stops <|
    .bind (.mono getEng_keeps rfl) fun _ =>
    .bind (.mono addCost_keeps rfl) fun _ =>
    .bind (.mono descPlace_keeps rfl) fun _ =>
    .bind (loadWords_keeps _ _ _) fun _ =>
    .bind (.get) fun _ =>
    .ite (.bind (.mono addCost_keeps rfl) fun _ => .bind (.mono putReg_keeps rfl) fun _ => .pure) <|
    .bind (.mono earlierDone_keeps rfl) fun _ =>
    .bind (.modCx fun _ => .ite (.mono holdItem_keeps rfl) <| .mono pushDesc_keeps rfl) fun _ =>
    .bind (.mono addCost_keeps rfl) fun _ => .bind (.mono putReg_keeps rfl) fun _ => .pure

theorem execRecv_keeps {x : Issue} {d r : RegCode} {s : State} :
    OutKeeps instrParts s (execRecv x d r s) :=
  instrOut_keeps rfl <|
    .ite .stops <|
    .bind (.mono getEng_keeps rfl) fun _ =>
    .bind (.mono addCost_keeps rfl) fun _ =>
    .bind (.mono descPlace_keeps rfl) fun _ => by
      split
      · exact .bind (.mono putReg_keeps rfl) fun _ => .pure
      · exact .bind (.mono noteInput_keeps rfl) fun _ =>
          .bind (storeWords_keeps _ _ _) fun _ => .bind (.mono modEng_keeps rfl) fun _ => .bind (.mono putReg_keeps rfl) fun _ => .pure

theorem execWait_keeps {x : Issue} {s : State} : OutKeeps instrParts s (execWait x s) :=
  instrOut_keeps rfl <| .bind (.mono getEng_keeps rfl) fun _ => .ite .stops <| .bind (.mono modEng_keeps rfl) fun _ => .pure

theorem execYield_keeps {x : Issue} {s : State} : OutKeeps instrParts s (execYield x s) :=
  instrOut_keeps rfl <|
    .bind (.mono getEng_keeps rfl) fun _ =>
    .ite .pure <| .getSet (fun _ => .after setEng_keeps rfl <| .mono unnamed_keeps rfl) fun _ => .pure

theorem execTrap_keeps {x : Issue} {code : BitVec 8} {s : State} :
    OutKeeps instrParts s (execTrap x code s) := instrOut_keeps rfl <| .stops

theorem execMfs_keeps {x : Issue} {d : RegCode} {n : BitVec 8} {s : State} :
    OutKeeps instrParts s (execMfs x d n s) :=
  instrOut_keeps rfl <|
    .bind (.get) fun _ =>
    .ite .stops <|
    .ite .stops <|
    .bind (.mono addCost_keeps rfl) fun _ =>
    .ite (.bind (.mono modEng_keeps rfl) fun _ => .ite (.bind (.mono noteInput_keeps rfl) fun _ => .bind (.mono putReg_keeps rfl) fun _ =>
        .pure) <| .bind (.mono putReg_keeps rfl) fun _ => .pure) <|
    .ite (.bind (.mono noteInput_keeps rfl) fun _ => .bind (.mono putReg_keeps rfl) fun _ => .pure) <|
    .bind (.mono putReg_keeps rfl) fun _ => .pure

theorem execMts_keeps {x : Issue} {r : RegCode} {n : BitVec 8} {s : State} :
    OutKeeps instrParts s (execMts x r n s) :=
  instrOut_keeps rfl <|
    .bind (.mono getEng_keeps rfl) fun _ =>
    .ite .stops <| .ite .stops <| .bind (.mono addCost_keeps rfl) fun _ => .bind (.mono modEng_keeps rfl) fun _ => .pure

theorem execReti_keeps {x : Issue} {s : State} :
    OutKeeps loadParts s (execReti x s) :=
  instrOut_keeps rfl <|
    .bind (.mono getEng_keeps rfl) fun _ =>
    .ite .stops <|
    .bind (loadWords_keeps _ _ _) fun _ =>
    .ite .stops <| .bind (.mono addCost_keeps rfl) fun _ => .bind (.mono modEng_keeps rfl) fun _ => .pure

theorem pickInt_keeps (x : Issue) (ivec : Nat) : ∀ (l : List Nat) (best : Option (Nat × Nat × Word)) (ipl : Nat),
    EngKeeps loadParts (pickInt x ivec l best ipl)
  | [], _, _ => .pure
  | _ :: ns, _, _ => .bind (loadWords_keeps _ _ _) fun _ => .ite (pickInt_keeps x ivec ns _ _) <| pickInt_keeps x ivec ns _ _

theorem enterInt_keeps {x : Issue} {pc : Word} :
    EngKeeps loadParts (enterInt x pc) :=
  .bind (.get) fun _ =>
  .bind (.mono modEng_keeps rfl) fun _ =>
  .bind (pickInt_keeps _ _ _ _ _) fun _ => by
    split
    · exact .pure
    · exact .bind (.mono modEng_keeps rfl) fun _ =>
        .bind (.mono storeFrame_keeps rfl) fun _ => .bind (.mono modEng_keeps rfl) fun _ => .pure

theorem awaitTable_keeps {e keep : Nat} {line : Bool} {addr len : Nat} {s : State} :
    KeepsBut [.records, .eng] s (awaitTable e keep line addr len s) := .after setEng_keeps rfl <| .mono askHost_keeps rfl

theorem execInterruptEntry_keeps {x : Issue} {s : State} : OutKeeps loadParts s (execInterruptEntry x s) := by
  refine .next <| .onlyIf fun s => ?_
  dsimp only
  split
  · exact .refl
  · exact .mono awaitTable_keeps rfl
  · exact .after followed_keeps rfl <| .after doubleTrap_keeps rfl <| .mono dropAsked_keeps rfl
  · exact .after setEng_keeps rfl <| .mono dropAsked_keeps rfl
  · next c h =>
    exact .after followed_keeps rfl <|
      .after runCycles_keeps rfl <|
      .after nameSamples_keeps rfl <| .after setAsked_keeps rfl <| .after unnamed_keeps rfl <| enterInt_keeps _ _ c h

theorem execLocalTimer_keeps {e : Fin 16} {s : State} : OutKeeps [] s (execLocalTimer e s) := .next <| .onlyIf fun _ => unnamed_keeps

theorem execInboundQueueDelivery_keeps {e : Fin 16} {s : State} :
    OutKeeps [.records, .flt, .pw, .eng, .pairs] s (execInboundQueueDelivery e s) :=
  .next <|
  .whenOn fun _ => by
      split
      · exact .refl
      · exact .comp (.ite .refl <|
            .ite (.after mirrorShadow_keeps rfl <| .comp (.ite .refl <| .mono (raise_keeps _ _ _) rfl) <| .mono setEng_keeps rfl) <|
            .after mirrorShadow_keeps rfl <| .comp (.ite (.mono (modPw_keeps _ _) rfl) .refl) <| .mono setEng_keeps rfl) <|
          .mono (transit_keeps _ _) rfl

theorem countDispatch_keeps {e : Fin 16} {s : State} : KeepsBut [] s (countDispatch e s) :=
  .comp (by
      unfold countDispatch
      dsimp only
      split
      · exact pmcCycle_keeps
      · exact .refl) <|
  pmcCycle_keeps

theorem execHandlerDispatch_keeps {e : Fin 16} {s : State} : OutKeeps [.eng, .pairs] s (execHandlerDispatch e s) :=
  .next <|
  .onlyIf fun _ =>
    .comp (by
        dsimp only
        split
        · exact .refl
        · exact .after mirrorShadow_keeps rfl <| .after countDispatch_keeps rfl <| .mono setEng_keeps rfl) <|
    .after mirrorShadow_keeps rfl <| .mono setEng_keeps rfl

theorem execHandlerCycleBudgetExceeded_keeps {x : Issue} {s : State} :
    OutKeeps instrParts s (execHandlerCycleBudgetExceeded x s) := .next <| .onlyIf fun _ => takeTrap_keeps

theorem execIllegalInstruction_keeps {x : Issue} {w : Word} {s : State} :
    OutKeeps instrParts s (execIllegalInstruction x w s) := .ite (.next .refl) <| instrOut_keeps rfl <| .stops

/-! ### Pairs.lean -/

theorem leaveStart_keeps {s : State} : KeepsBut [.flt] s (leaveStart s) := modFlt_keeps _ _

theorem commitDone_keeps {c : CommitRun} {s : State} : KeepsBut [.records, .stg, .flt, .hw] s (commitDone c s) :=
  .after commitEnds_keeps rfl <| .after leaveStart_keeps rfl <| .after writeReport_keeps rfl <| .mono (modStg_keeps _ _) rfl

theorem commitMaybeDone_keeps {s : State} : KeepsBut [.records, .stg, .flt, .hw] s (commitMaybeDone s) := by
  unfold commitMaybeDone
  split
  · exact .ite commitDone_keeps .refl
  · exact .refl

theorem setPhase_keeps {k : Nat} {ph : HoPhase} {s : State} : KeepsBut [.pairs] s (setPhase k ph s) := setPair_keeps

theorem startHandover_keeps {k : Nat} {uid : Option Nat} {toSplit : Bool} {s : State} : KeepsBut [.pairs] s (startHandover k uid toSplit s) :=
  setPair_keeps

theorem endHandover_keeps {k : Nat} {h : HandOver} {status result : Nat} {s : State} :
    KeepsBut [.records, .stg, .flt, .hw, .pairs] s (endHandover k h status result s) :=
  .after commitMaybeDone_keeps rfl <|
  .comp (by
      split
      · exact .after (finishGated_keeps _ _ _ _) rfl <| .mono engRecord_keeps rfl
      · exact .mono engRecord_keeps rfl) <|
  .mono setPair_keeps rfl

theorem mapProgs_keeps {f : Prog → Prog} {s : State} : KeepsBut [.stg] s (mapProgs f s) := modStg_keeps _ _

theorem splitNow_keeps {k : Nat} {h : HandOver} {s : State} : KeepsBut [.records, .stg, .eng, .pairs] s (splitNow k h s) :=
  .after setPhase_keeps rfl <|
  .after rewriteReport_keeps rfl <|
  .after retarget_keeps rfl <|
  .after setPair_keeps rfl <|
  .after mapProgs_keeps rfl <|
  .after setEng_keeps rfl <| .after setEng_keeps rfl <| .after setEng_keeps rfl <| .after setEng_keeps rfl <| .mono mapProgs_keeps rfl

theorem mergeMove_keeps {k : Nat} {s : State} : KeepsBut [.stg, .eng] s (mergeMove k s) :=
  .after mapProgs_keeps rfl <| .after setEng_keeps rfl <| .mono setEng_keeps rfl

theorem advancePair_keeps {k : Nat} {s : State} : KeepsBut instrParts s (advancePair k s) := by
  unfold advancePair
  dsimp only
  split
  · exact .refl
  · split
    · exact .ite (.mono setPhase_keeps rfl) .refl
    · exact .ite (.after setPhase_keeps rfl <| .after drained_keeps rfl catchUp_keeps) .refl
    · exact .ite (.ite (.mono splitNow_keeps rfl) .refl) <| .ite (.after setPhase_keeps rfl <| .mono mergeMove_keeps rfl) .refl
    · exact .ite (.mono endHandover_keeps rfl) .refl
    · exact .refl

theorem advancePairs_keeps {s : State} : KeepsBut instrParts s (advancePairs s) :=
  .foldl fun _ _ => advancePair_keeps

theorem testBegins_keeps {s : State} : KeepsBut [.flt] s (testBegins s) := modFlt_keeps _ _

theorem testEnds_keeps {s : State} : KeepsBut [.flt] s (testEnds s) := .ite .refl <| modFlt_keeps _ _

theorem copyEngine_keeps {k : Nat} {s : State} : KeepsBut [.eng] s (copyEngine k s) := setEng_keeps

theorem execMergeCopyDone_keeps {k : Fin 8} {s : State} : OutKeeps [.flt, .eng, .pairs] s (execMergeCopyDone k s) :=
  .next <| .onlyIf fun _ => .after testBegins_keeps rfl <| .after setPhase_keeps rfl <| .mono copyEngine_keeps rfl

theorem couple_keeps {k : Nat} {s : State} : KeepsBut [.records, .stg, .eng, .pairs] s (couple k s) :=
  .after setPhase_keeps rfl <|
  .after rewriteReport_keeps rfl <|
  .after retarget_keeps rfl <| .after coupleEng_keeps rfl <| .after setPair_keeps rfl <| .after mapProgs_keeps rfl <| .mono setEng_keeps rfl

theorem mergeFails_keeps {k : Nat} {h : HandOver} {s : State} : KeepsBut [.records, .stg, .flt, .hw, .eng, .pairs] s (mergeFails k h s) :=
  .after endHandover_keeps rfl <|
  .after (raise_keeps _ _ _) rfl <| .after setPair_keeps rfl <| .after setEng_keeps rfl <| .mono setEng_keeps rfl

theorem execMergeSelftestDone_keeps {k : Fin 8} {failed : List (Fin 203)} {s : State} :
    OutKeeps [.records, .stg, .flt, .hw, .eng, .pairs] s (execMergeSelftestDone k failed s) :=
  .next <| by
    split
    · exact .ite (.ite (.after testEnds_keeps rfl <| .mono couple_keeps rfl) <| .after testEnds_keeps rfl mergeFails_keeps) .refl
    · exact .refl

theorem execPairSplit_keeps {o : Origin} {s : State} : OutKeeps [.records, .pairs] s (execPairSplit o s) :=
  .runOut rfl fun _ _ _ => .mono startHandover_keeps rfl

theorem execPairMerge_keeps {o : Origin} {s : State} : OutKeeps [.records, .pairs] s (execPairMerge o s) :=
  .runOut rfl fun _ _ _ => .mono startHandover_keeps rfl

theorem execPairQuery_keeps {o : Origin} {s : State} : OutKeeps [.records] s (execPairQuery o s) :=
  .runOut rfl fun _ _ _ => finish_keeps _ _ _ _

theorem stillEng_keeps {e : Nat} {s : State} : KeepsBut [.eng] s (stillEng e s) := .after dropAsked_keeps rfl setEng_keeps

theorem execPairMismatch_keeps {k : Fin 8} {lane : Fin 4} {bit : Fin 128} {s : State} :
    OutKeeps instrParts s (execPairMismatch k lane bit s) :=
  .next <|
  .onlyIf fun _ =>
    .comp (by
        dsimp only
        split
        · exact .mono endHandover_keeps rfl
        · exact .refl) <|
    .after (raise_keeps _ _ _) rfl <|
    .after stillEng_keeps rfl <|
    .after stillEng_keeps rfl <|
    .after stopPair_keeps rfl <| .after setPair_keeps rfl <| .after engRecord_keeps rfl <| shadowSteps_keeps _ _ _

theorem execPkgWrite_keeps {o : Origin} {b : BlockStep} {s : State} : OutKeeps [.records, .pkgs] s (execPkgWrite o b s) :=
  runBlock_keeps rfl fun _ _ _ _ => .after (finish_keeps _ _ _ _) rfl <| .mono pkgsField_keeps rfl

theorem execPkgErase_keeps {o : Origin} {s : State} : OutKeeps [.records, .pkgs] s (execPkgErase o s) :=
  .runOut rfl fun _ _ _ => .after (finish_keeps _ _ _ _) rfl <| .mono pkgsField_keeps rfl

theorem execPkgQuery_keeps {o : Origin} {s : State} : OutKeeps [.records] s (execPkgQuery o s) :=
  .runOut rfl fun _ _ _ => finish_keeps _ _ _ _

/-! ### CommitTick.lean -/

theorem setRun_keeps {f : CommitRun → CommitRun} {s : State} : KeepsBut [.stg] s (setRun f s) := modStg_keeps _ _

theorem execCheckAndPlacementComplete_keeps {s : State} : OutKeeps [.records, .stg, .hw] s (execCheckAndPlacementComplete s) :=
  .next <|
  .whenOn fun _ => by
      split
      · exact .refl
      · exact .ite .refl <| by
            split
            · exact commitEnds_keeps
            · exact .ite commitEnds_keeps <| .mono setRun_keeps rfl

theorem execNewSetHeld_keeps {s : State} : OutKeeps [.records, .stg, .hw] s (execNewSetHeld s) :=
  .next <|
  .whenOn fun _ => by
      split
      · exact .refl
      · exact .ite .refl <| by
            split
            · exact commitEnds_keeps
            · exact .after setRun_keeps rfl <| .mono (modStg_keeps _ _) rfl

theorem gangHeat_keeps {old new : List (Nat × Nat)} {s : State} : KeepsBut [.ld] s (gangHeat old new s) :=
  .comp (.foldl fun _ _ => .foldl fun _ _ => setLch_keeps) <| .foldl fun _ _ => .foldl fun _ _ => setLch_keeps

theorem lchNoPwm_keeps {n : Nat} {s : State} : KeepsBut [.records, .ld] s (lchNoPwm n s) :=
  .ite .refl <|
  .comp (.ite (.after tookState_keeps rfl <| .after newPeriod_keeps rfl <| .mono setLch_keeps rfl) .refl) <| .mono setLch_keeps rfl

theorem gangProtection_keeps {g : Nat × Nat} {s : State} : KeepsBut [.ld] s (gangProtection g s) := setLch_keeps

theorem lchCommit_keeps {first : Bool} {oldGangs : List (Nat × Nat)} {new : Vector Mem 16} {s : State} :
    KeepsBut [.records, .ld] s (lchCommit first oldGangs new s) :=
  .comp (.foldl fun _ _ =>
      .comp (.ite .refl <| .after syncGang_keeps rfl <| .after applyLch_keeps rfl lchNoPwm_keeps) <|
      .comp (.ite .refl <| .mono setLch_keeps rfl) <|
      .comp (.ite lchUnsafe_keeps .refl) <| .ite (.after endWaits_keeps rfl <| .after endTimed_keeps rfl <| .mono setLch_keeps rfl) .refl) <|
  .comp (.foldl fun _ _ => .mono gangProtection_keeps rfl) <| .after gangHeat_keeps rfl <| .mono modLd_keeps rfl

theorem hbCommit_keeps {first : Bool} {s : State} : KeepsBut [.records, .hbs] s (hbCommit first s) :=
  .foldl fun _ _ =>
    .comp (.ite .refl <| .after applyHb_keeps rfl <| .ite (.after endSet_keeps rfl <| .mono setHb_keeps rfl) .refl) <|
    .comp (.ite hbUnsafe_keeps .refl) <| by
      split
      · exact .ite .refl endNow_keeps
      · exact .refl

theorem vlvRemove_keeps {v : Nat} {s : State} : KeepsBut [.records, .vs] s (vlvRemove v s) :=
  .comp (by
      unfold vlvRemove
      dsimp only
      split
      · exact .refl
      · exact dropWaiting_keeps
      · exact .refl
      · exact releaseEarly_keeps) <|
  .after dropPending_keeps rfl <| .mono setVlv_keeps rfl

theorem vsCommit_keeps {first : Bool} {s : State} : KeepsBut [.records, .vs] s (vsCommit first s) :=
  .comp (.ite boostTo_keeps <| .ite (.ite (.mono modVs_keeps rfl) boostTo_keeps) .refl) <|
  .after modVs_keeps rfl <|
  .foldl fun _ _ => .comp (.ite vlvRemove_keeps <| .ite (.mono setVlv_keeps rfl) .refl) <| .ite vlvUnsafe_keeps .refl

theorem accCommit_keeps {s : State} : KeepsBut [.records, .acc] s (accCommit s) :=
  .comp (.ite .refl endRelease_keeps) <| by
    split
    · exact .ite (.after (finishFree_keeps _ _ _) rfl <| .mono airEnd_keeps rfl) .refl
    · exact .refl

theorem moveRecords_keeps {s : State} : KeepsBut [.eng] s (moveRecords s) := .foldl fun _ _ => setEng_keeps

theorem fillPlaces_keeps {ts : Vector Mem 16} {s : State} : KeepsBut [.stg, .eng] s (fillPlaces ts s) :=
  .after mapProgs_keeps rfl <| .foldl fun _ _ => .mono setEng_keeps rfl

theorem modeCommit_keeps {ts : Vector Mem 16} {s : State} : KeepsBut [.eng, .pairs] s (modeCommit ts s) :=
  .foldl fun _ _ => .ite mirrorShadow_keeps <| .after mirrorShadow_keeps rfl <| .mono startHandover_keeps rfl

theorem progCommit_keeps {ts : Vector Mem 16} {place : Placement} {s : State} :
    KeepsBut [.records, .stg, .eng, .pairs] s (progCommit ts place s) :=
  .after modeCommit_keeps rfl <|
  .after retarget_keeps rfl <|
  .after moveRecords_keeps rfl <|
  .after fillPlaces_keeps rfl <| .after (modStg_keeps _ _) rfl <| .after endHandlers_keeps rfl <| .mono stopProgs_keeps rfl

theorem applySet_keeps {c : CommitRun} {s : State} :
    KeepsBut [.records, .stg, .flt, .hw, .ld, .hbs, .vs, .sw, .fs, .ns, .acc, .eng, .pairs] s (applySet c s) :=
  .after progCommit_keeps rfl <|
  .after accCommit_keeps rfl <|
  .after nsCommit_keeps rfl <|
  .after fsCommit_keeps rfl <|
  .after swCommit_keeps rfl <|
  .after vsCommit_keeps rfl <|
  .after hbCommit_keeps rfl <|
  .after lchCommit_keeps rfl <| .after modLd_keeps rfl <| .comp (.ite .refl <| .mono hwPutAt_keeps rfl) <| .mono (modStg_keeps _ _) rfl

theorem execCommitTick_keeps {s : State} :
    OutKeeps [.records, .stg, .flt, .hw, .ld, .hbs, .vs, .sw, .fs, .ns, .acc, .eng, .pairs] s (execCommitTick s) :=
  .next <|
  .whenOn fun _ => by
      split
      · exact .refl
      · exact .ite .refl <| .after applySet_keeps rfl <| .mono setRun_keeps rfl

theorem execMramMarkCommitted_keeps {s : State} : OutKeeps [.records, .stg, .flt, .hw] s (execMramMarkCommitted s) :=
  .next <|
  .whenOn fun _ => by
      split
      · exact .refl
      · exact .ite .refl <| .after commitMaybeDone_keeps rfl <| .after setRun_keeps rfl <| .mono (modStg_keeps _ _) rfl

/-! ### EngAlu.lean -/

theorem putAlu_keeps {e : Nat} {d : RegCode} {r : Alu} : EngKeeps [.eng] (putAlu e d r) :=
  .bind (.mono getEng_keeps rfl) fun _ => .ite .stops <| .ite .stops <| .bind putReg_keeps fun _ => .bind modEng_keeps fun _ => .pure

theorem binOp_keeps {fn : Nat} {x : Issue} {d r t : RegCode} {f : Bool → Word → Word → Alu} {s : State} :
    OutKeeps instrParts s (binOp fn x d r t f s) :=
  instrOut_keeps rfl <| .bind (.mono getEng_keeps rfl) fun _ => .mono putAlu_keeps rfl

theorem unOp_keeps {w : Word} {x : Issue} {d r : RegCode} {f : Word → Alu} {s : State} :
    OutKeeps instrParts s (unOp w x d r f s) :=
  instrOut_keeps rfl <| .bind (.mono getEng_keeps rfl) fun _ => .mono putAlu_keeps rfl

theorem mulOp_keeps {fn n : Nat} {x : Issue} {d r t : RegCode} {f : Word → Word → Alu} {s : State} :
    OutKeeps instrParts s (mulOp fn n x d r t f s) :=
  instrOut_keeps rfl <| .bind (.mono addCost_keeps rfl) fun _ => .bind (.mono getEng_keeps rfl) fun _ => .mono putAlu_keeps rfl

theorem execAdd_keeps {x : Issue} {d r t : RegCode} {s : State} :
    OutKeeps instrParts s (execAdd x d r t s) := binOp_keeps

theorem execSub_keeps {x : Issue} {d r t : RegCode} {s : State} :
    OutKeeps instrParts s (execSub x d r t s) := binOp_keeps

theorem execAdc_keeps {x : Issue} {d r t : RegCode} {s : State} :
    OutKeeps instrParts s (execAdc x d r t s) := binOp_keeps

theorem execSbc_keeps {x : Issue} {d r t : RegCode} {s : State} :
    OutKeeps instrParts s (execSbc x d r t s) := binOp_keeps

theorem execAnd_keeps {x : Issue} {d r t : RegCode} {s : State} :
    OutKeeps instrParts s (execAnd x d r t s) := binOp_keeps

theorem execOr_keeps {x : Issue} {d r t : RegCode} {s : State} :
    OutKeeps instrParts s (execOr x d r t s) := binOp_keeps

theorem execXor_keeps {x : Issue} {d r t : RegCode} {s : State} :
    OutKeeps instrParts s (execXor x d r t s) := binOp_keeps

theorem execNot_keeps {x : Issue} {d r : RegCode} {s : State} :
    OutKeeps instrParts s (execNot x d r s) := unOp_keeps

theorem execNeg_keeps {x : Issue} {d r : RegCode} {s : State} :
    OutKeeps instrParts s (execNeg x d r s) := unOp_keeps

theorem execAbs_keeps {x : Issue} {d r : RegCode} {s : State} :
    OutKeeps instrParts s (execAbs x d r s) := unOp_keeps

theorem execMov_keeps {x : Issue} {d r : RegCode} {s : State} :
    OutKeeps instrParts s (execMov x d r s) := unOp_keeps

theorem execMin_keeps {x : Issue} {d r t : RegCode} {s : State} :
    OutKeeps instrParts s (execMin x d r t s) := binOp_keeps

theorem execMax_keeps {x : Issue} {d r t : RegCode} {s : State} :
    OutKeeps instrParts s (execMax x d r t s) := binOp_keeps

theorem execMinu_keeps {x : Issue} {d r t : RegCode} {s : State} :
    OutKeeps instrParts s (execMinu x d r t s) := binOp_keeps

theorem execMaxu_keeps {x : Issue} {d r t : RegCode} {s : State} :
    OutKeeps instrParts s (execMaxu x d r t s) := binOp_keeps

theorem execClz_keeps {x : Issue} {d r : RegCode} {s : State} :
    OutKeeps instrParts s (execClz x d r s) := unOp_keeps

theorem execPopc_keeps {x : Issue} {d r : RegCode} {s : State} :
    OutKeeps instrParts s (execPopc x d r s) := unOp_keeps

theorem execSxb_keeps {x : Issue} {d r : RegCode} {s : State} :
    OutKeeps instrParts s (execSxb x d r s) := unOp_keeps

theorem execSxh_keeps {x : Issue} {d r : RegCode} {s : State} :
    OutKeeps instrParts s (execSxh x d r s) := unOp_keeps

theorem execShl_keeps {x : Issue} {d r t : RegCode} {s : State} :
    OutKeeps instrParts s (execShl x d r t s) := binOp_keeps

theorem execShr_keeps {x : Issue} {d r t : RegCode} {s : State} :
    OutKeeps instrParts s (execShr x d r t s) := binOp_keeps

theorem execSar_keeps {x : Issue} {d r t : RegCode} {s : State} :
    OutKeeps instrParts s (execSar x d r t s) := binOp_keeps

theorem execRol_keeps {x : Issue} {d r t : RegCode} {s : State} :
    OutKeeps instrParts s (execRol x d r t s) := binOp_keeps

theorem execRor_keeps {x : Issue} {d r t : RegCode} {s : State} :
    OutKeeps instrParts s (execRor x d r t s) := binOp_keeps

theorem execMul_keeps {x : Issue} {d r t : RegCode} {s : State} :
    OutKeeps instrParts s (execMul x d r t s) := mulOp_keeps

theorem execMulh_keeps {x : Issue} {d r t : RegCode} {s : State} :
    OutKeeps instrParts s (execMulh x d r t s) := mulOp_keeps

theorem execMulhu_keeps {x : Issue} {d r t : RegCode} {s : State} :
    OutKeeps instrParts s (execMulhu x d r t s) := mulOp_keeps

theorem execDiv_keeps {x : Issue} {d r t : RegCode} {s : State} :
    OutKeeps instrParts s (execDiv x d r t s) := mulOp_keeps

theorem execDivu_keeps {x : Issue} {d r t : RegCode} {s : State} :
    OutKeeps instrParts s (execDivu x d r t s) := mulOp_keeps

theorem execRem_keeps {x : Issue} {d r t : RegCode} {s : State} :
    OutKeeps instrParts s (execRem x d r t s) := mulOp_keeps

theorem execRemu_keeps {x : Issue} {d r t : RegCode} {s : State} :
    OutKeeps instrParts s (execRemu x d r t s) := mulOp_keeps

theorem execAddi_keeps {x : Issue} {d r : RegCode} {imm : BitVec 18} {s : State} :
    OutKeeps instrParts s (execAddi x d r imm s) := unOp_keeps

theorem execAndi_keeps {x : Issue} {d r : RegCode} {imm : BitVec 18} {s : State} :
    OutKeeps instrParts s (execAndi x d r imm s) := unOp_keeps

theorem execOri_keeps {x : Issue} {d r : RegCode} {imm : BitVec 18} {s : State} :
    OutKeeps instrParts s (execOri x d r imm s) := unOp_keeps

theorem execXori_keeps {x : Issue} {d r : RegCode} {imm : BitVec 18} {s : State} :
    OutKeeps instrParts s (execXori x d r imm s) := unOp_keeps

theorem execLdi_keeps {x : Issue} {d : RegCode} {imm : BitVec 18} {s : State} :
    OutKeeps instrParts s (execLdi x d imm s) := instrOut_keeps rfl <| .mono putAlu_keeps rfl

theorem execLdl_keeps {x : Issue} {d : RegCode} {ext : Word} {s : State} :
    OutKeeps instrParts s (execLdl x d ext s) :=
  instrOut_keeps rfl <| .bind (.mono addCost_keeps rfl) fun _ => .mono putAlu_keeps rfl

theorem execShi_keeps {x : Issue} {d r : RegCode} {kind : ShiftKind} {amount : BitVec 6} {s : State} :
    OutKeeps instrParts s (execShi x d r kind amount s) := unOp_keeps

theorem execCmp_keeps {x : Issue} {d r t : RegCode} {c : Cond} {s : State} :
    OutKeeps instrParts s (execCmp x d r t c s) :=
  instrOut_keeps rfl <| .ite (.bind (.mono getEng_keeps rfl) fun _ => .mono putAlu_keeps rfl) .stops

theorem execCmpi_keeps {x : Issue} {d r : RegCode} {c : Cond} {imm : BitVec 15} {s : State} :
    OutKeeps instrParts s (execCmpi x d r c imm s) :=
  instrOut_keeps rfl <| .ite (.bind (.mono getEng_keeps rfl) fun _ => .mono putAlu_keeps rfl) .stops

/-! ### EngFlow.lean -/

theorem jumpTo_keeps {t : Word} : EngKeeps [] (jumpTo t) := .ite .stops <| .bind addCost_keeps fun _ => .pure

theorem execBr_keeps {x : Issue} {off : BitVec 22} {s : State} :
    OutKeeps instrParts s (execBr x off s) :=
  instrOut_keeps rfl <| .bind (.mono getEng_keeps rfl) fun _ => .mono jumpTo_keeps rfl

theorem condBranch_keeps {x : Issue} {c : RegCode} {off : BitVec 22} {zero : Bool} {s : State} :
    OutKeeps instrParts s (condBranch x c off zero s) :=
  instrOut_keeps rfl <| .ite (.bind (.mono getEng_keeps rfl) fun _ => .ite (.mono jumpTo_keeps rfl) .pure) .stops

theorem execBz_keeps {x : Issue} {c : RegCode} {off : BitVec 22} {s : State} :
    OutKeeps instrParts s (execBz x c off s) := condBranch_keeps

theorem execBnz_keeps {x : Issue} {c : RegCode} {off : BitVec 22} {s : State} :
    OutKeeps instrParts s (execBnz x c off s) := condBranch_keeps

theorem execJr_keeps {x : Issue} {r : RegCode} {s : State} : OutKeeps instrParts s (execJr x r s) :=
  instrOut_keeps rfl <| .bind (.mono getEng_keeps rfl) fun _ => .mono jumpTo_keeps rfl

theorem callTo_keeps {x : Issue} {words : Nat} {mask : BitVec 11} {t : Word} :
    EngKeeps instrParts (callTo x words mask t) :=
  .ite .stops <|
  .bind (.mono getEng_keeps rfl) fun _ =>
  .bind (.mono addCost_keeps rfl) fun _ => .bind (.mono lowerSp_keeps rfl) fun _ => .bind (storeWords_keeps _ _ _) fun _ => .pure

theorem execCall_keeps {x : Issue} {mask : BitVec 11} {off : BitVec 15} {s : State} :
    OutKeeps instrParts s (execCall x mask off s) :=
  instrOut_keeps rfl <| .bind (.mono getEng_keeps rfl) fun _ => callTo_keeps

theorem execCallx_keeps {x : Issue} {mask : BitVec 11} {target : Word} {s : State} :
    OutKeeps instrParts s (execCallx x mask target s) := instrOut_keeps rfl <| callTo_keeps

theorem execCallr_keeps {x : Issue} {mask : BitVec 11} {r : RegCode} {s : State} :
    OutKeeps instrParts s (execCallr x mask r s) :=
  instrOut_keeps rfl <| .bind (.mono getEng_keeps rfl) fun _ => callTo_keeps

theorem putFrame_keeps {e : Nat} {l : List RegCode} {ws : List Word} : EngKeeps [.eng] (putFrame e l ws) := .ok fun _ => setEng_keeps

theorem execRet_keeps {x : Issue} {s : State} :
    OutKeeps loadParts s (execRet x s) :=
  instrOut_keeps rfl <|
    .bind (.mono getEng_keeps rfl) fun _ =>
    .bind (loadWords_keeps _ _ _) fun _ =>
    .ite .stops <|
    .ite .stops <|
    .bind (.mono addCost_keeps rfl) fun _ =>
    .bind (loadWords_keeps _ _ _) fun _ =>
    .bind (.mono putFrame_keeps rfl) fun _ => .bind (.mono modEng_keeps rfl) fun _ => .bind (.mono putReg_keeps rfl) fun _ => .pure

theorem openLoop_keeps {x : Issue} {count : Word} {last : BitVec 14} : EngKeeps [.eng] (openLoop x count last) :=
  .bind (.mono getEng_keeps rfl) fun _ =>
  .bind (.mono addCost_keeps rfl) fun _ =>
  .ite .stops <|
  .ite .pure <| by
    split
    · exact .stops
    · exact .bind modEng_keeps fun _ => .pure

theorem execLoop_keeps {x : Issue} {r : RegCode} {last : BitVec 14} {s : State} :
    OutKeeps instrParts s (execLoop x r last s) :=
  instrOut_keeps rfl <| .bind (.mono getEng_keeps rfl) fun _ => .mono openLoop_keeps rfl

theorem execLoopi_keeps {x : Issue} {count : BitVec 12} {last : BitVec 14} {s : State} :
    OutKeeps instrParts s (execLoopi x count last s) := instrOut_keeps rfl <| .mono openLoop_keeps rfl

theorem execLeave_keeps {x : Issue} {s : State} : OutKeeps instrParts s (execLeave x s) :=
  instrOut_keeps rfl <|
    .bind (.mono getEng_keeps rfl) fun _ =>
    .bind (.mono addCost_keeps rfl) fun _ => by
      split
      · exact .stops
      · exact .bind (.mono modEng_keeps rfl) fun _ => .pure

theorem execRep_keeps {x : Issue} {r : RegCode} {ni : Bool} {s : State} :
    OutKeeps instrParts s (execRep x r ni s) :=
  instrOut_keeps rfl <|
    .bind (.mono getEng_keeps rfl) fun _ => by
      split
      · exact .ite .pure .stops
      · exact .ite (.ite (.bind (.mono modEng_keeps rfl) fun _ => .pure) <| .bind (.mono modEng_keeps rfl) fun _ => .pure) <|
          .ite .stops <| .ite (.bind (.mono modEng_keeps rfl) fun _ => .pure) <| .bind (.mono modEng_keeps rfl) fun _ => .pure

/-! ### Supply.lean -/

theorem applyDie_keeps {d : Die} {s : State} : KeepsBut [.records, .ld, .hbs] s (applyDie d s) :=
  .comp (.foldl fun _ _ => .mono applyHb_keeps rfl) <| .foldl fun _ _ => .mono applyLch_keeps rfl

theorem lfOff_keeps {s : State} : KeepsBut [.records, .acc] s (lfOff s) := by
  unfold lfOff
  split
  · exact .after (finishFree_keeps _ _ _) rfl <| .mono airEnd_keeps rfl
  · exact .refl

theorem dieOutputsOff_keeps {d : Die} {s : State} : KeepsBut [.records, .ld, .hbs, .vs, .acc] s (dieOutputsOff d s) := by
  unfold dieOutputsOff
  extract_lets ld s₁
  refine .comp (t := s₁) ?_ <| .mono ldField_keeps rfl
  cases d with
  | loadA => exact .mono applyDie_keeps rfl
  | loadB => exact .mono applyDie_keeps rfl
  | base => exact .after lfOff_keeps rfl <| .foldl fun _ _ => .mono vlvSafeOff_keeps rfl
  | _ => exact .refl

theorem noteSupply_keeps {d : Die} {v : Nat} {s : State} : KeepsBut [.pw, .ld] s (noteSupply d v s) :=
  .ite (.mono noteVbat_keeps rfl) <| .foldl fun _ _ => .ite (.mono setBank_keeps rfl) .refl

theorem execLoadDieSupplyLow_keeps {d : Die} {x : HeldV} {s : State} :
    OutKeeps [.records, .pw, .ld, .hbs, .vs, .acc] s (execLoadDieSupplyLow d x s) :=
  .next <| .onlyIf fun _ => .after dieOutputsOff_keeps rfl <| .after noteSupply_keeps rfl <| .ite (.mono ldField_keeps rfl) .refl

theorem execLsSupplyHigh_keeps {x : DieSupply} {s : State} : OutKeeps [.records, .flt, .pw, .ld, .hbs, .vs, .acc] s (execLsSupplyHigh x s) :=
  .next <|
  .onlyIf fun _ => .comp (.foldl fun _ _ => .mono (raise_keeps _ _ _) rfl) <| .after dieOutputsOff_keeps rfl <| .mono noteSupply_keeps rfl

theorem execSupplyReturn_keeps {x : DieSupply} {s : State} : OutKeeps [.records, .flt, .pw, .ld, .hbs, .vs] s (execSupplyReturn x s) :=
  .next <|
  .onlyIf fun _ =>
    .comp (.ite (.comp (.foldl fun _ _ => .after vlvSafe_keeps rfl <| .mono setVlv_keeps rfl) <| .ite (.after boostTo_keeps rfl <|
        .mono modVs_keeps rfl) .refl) <|
      .refl) <|
    .comp (.foldl fun _ _ => .after hbSafe_keeps rfl <| .mono setHb_keeps rfl) <|
    .after applyDie_keeps rfl <| .comp (.ite (.mono reloadMirror_keeps rfl) .refl) <| .after ldField_keeps rfl <| .mono noteSupply_keeps rfl

theorem execDieOvertemp_keeps {b : Fin 8} {t : Int} {s : State} : OutKeeps [.records, .flt, .ld, .hbs] s (execDieOvertemp b t s) :=
  .next <|
  .whenOn fun _ =>
    .onlyIf fun _ => .after (raise_keeps _ _ _) rfl <| .after dieHotHbs_keeps rfl <| .after dieHotChs_keeps rfl <| .mono ldField_keeps rfl

/-! ### Tick.lean -/

theorem rtFollows_keeps {s : State} : KeepsBut [.time] s (rtFollows s) := .ite timeField_keeps timeField_keeps

theorem quietTick_keeps {s : State} : KeepsBut [] s (quietTick s) := .foldl fun _ _ => .ite (slotCycles_keeps _ _ _ _ _) .refl

theorem ringTick_keeps {s : State} : KeepsBut [.records] s (ringTick s) := rings_keeps _ _

theorem followShadows_keeps {s : State} : KeepsBut instrParts s (followShadows s) :=
  .foldl fun _ _ => .ite .refl <| .after (runShadow_keeps _ _ _) rfl <| .mono setPair_keeps rfl

theorem drainBuffers_keeps {s : State} : KeepsBut [.records, .stg, .flt, .pw, .hw, .upd, .eng] s (drainBuffers s) :=
  .foldl fun _ _ => drained_keeps

theorem clockTick_keeps {s : State} : KeepsBut [.time] s (clockTick s) :=
  .ite (.after rtFollows_keeps rfl timeField_keeps) <| .ite timeField_keeps .refl

theorem dieTick_keeps {s : State} :
    KeepsBut [.records, .ses, .stg, .mram, .flt, .pw, .hw, .upd, .ld, .hbs, .vs, .sw, .fs, .ns, .acc, .eng, .pairs, .links] s (dieTick s) := by
  unfold dieTick
  exact .after markConditions_keeps rfl <|
    .after entryTick_keeps rfl <|
    .after startTick_keeps rfl <|
    .after (watchStalls_keeps _) rfl <|
    .after retireTurns_keeps rfl <|
    .after (answerReads_keeps _ _) rfl <|
    .after advancePairs_keeps rfl <| .after drainBuffers_keeps rfl <| .after followShadows_keeps rfl <| .after ringTick_keeps rfl <|
    .mono quietTick_keeps rfl

/-! ### What the commands of a family may change -/

/-- The parts that the commands of a family may change, DT and RT apart. -/
def familyParts : Family → List Safety.Part
  | .ring => [.records, .stg, .flt, .pw, .hw, .upd, .ld, .hbs, .vs, .sw, .fs, .ns, .acc, .pairs]
  | .staging => [.records, .stg, .flt, .hw, .upd, .ld, .hbs, .vs, .sw, .fs, .ns, .acc, .eng, .pairs]
  | .session => [.records, .ses, .mram, .flt, .hw]
  | .load => [.records, .flt, .ld]
  | .wire => [.records, .flt, .ld, .hbs]
  | .bridge => [.records, .flt, .hbs]
  | .valve => [.records, .flt, .pw, .vs]
  | .switch => [.records, .flt, .pw, .sw, .acc]
  | .field => [.records, .flt, .fs, .links]
  | .can => [.records, .flt, .pw, .ns, .acc]
  | .lin => [.records, .flt, .ns]
  | .sleep => [.records, .flt, .pw, .hw, .ns]
  | .access => [.records, .flt, .hw, .keys, .sw, .fs, .ns, .acc]
  | .pair => [.records, .stg, .flt, .pw, .hw, .upd, .eng, .pairs, .pkgs]
  | .bridgeHost => [.records, .flt, .hw]
  | .fault => [.records, .stg, .flt, .pw, .hw, .ld, .hbs, .vs, .fs, .ns, .acc, .eng, .pairs]
  | .power => [.records, .ses, .stg, .mram, .flt, .pw, .hw, .upd, .ld, .hbs, .vs, .sw, .fs, .ns, .acc, .eng, .pairs, .links]
  | .update => [.records, .flt, .hw, .upd]
  | .perf => [.records]
  | .start => [.records, .ses, .stg, .flt, .pw, .hw, .upd, .ld, .hbs, .vs, .sw, .fs, .ns, .acc, .eng, .pairs, .links]
  | .engine => loadParts

/-- The parts that a command may change: those of its family, and DT and RT for the supply of the root island, the start of the
digital die and the return of the fast clocks. -/
def commandParts : Instr → List Safety.Part
  | .rootIslandPowerOn .. | .digitalDieStart .. | .xtal40Retry .. => .time :: familyParts .start
  | c => familyParts (family c)

theorem keeps_familyParts {l : List Safety.Part} (f : Family) {s : State} {o : Out} (h : OutKeeps l s o)
    (hl : Within l (familyParts f)) : OutKeeps (familyParts f) s o := .mono h hl

/-- Every command keeps every part but those of `commandParts`. -/
theorem exec_keeps (s : State) : ∀ c : Instr, OutKeeps (commandParts c) s (exec c s)
  | .rootIslandPowerOn .. => .mono (may := .time :: familyParts .start) execRootIslandPowerOn_keeps rfl
  | .digitalDieStart .. => .mono (may := .time :: familyParts .start) execDigitalDieStart_keeps rfl
  | .graftBlock .. => keeps_familyParts .start execGraftBlock_keeps rfl
  | .safeEntriesDelivered .. => keeps_familyParts .start execSafeEntriesDelivered_keeps rfl
  | .hostLinkTimeout .. => keeps_familyParts .bridgeHost execHostLinkTimeout_keeps rfl
  | .hostLinkUp .. => keeps_familyParts .bridgeHost execHostLinkUp_keeps rfl
  | .autoCommit .. => keeps_familyParts .staging execAutoCommit_keeps rfl
  | .linkFailure .. => keeps_familyParts .start execLinkFailure_keeps rfl
  | .linkReturn .. => keeps_familyParts .start execLinkReturn_keeps rfl
  | .doorbellWrite .. => keeps_familyParts .ring execDoorbellWrite_keeps rfl
  | .ringStart .. => keeps_familyParts .ring execRingStart_keeps rfl
  | .ringStop .. => keeps_familyParts .ring execRingStop_keeps rfl
  | .ringStopped .. => keeps_familyParts .ring execRingStopped_keeps rfl
  | .ringSetupWrite .. => keeps_familyParts .ring execRingSetupWrite_keeps rfl
  | .registerWrite .. => keeps_familyParts .ring execRegisterWrite_keeps rfl
  | .readClear .. => keeps_familyParts .ring execReadClear_keeps rfl
  | .hostRead .. => keeps_familyParts .ring execHostRead_keeps rfl
  | .descriptorFetch .. => keeps_familyParts .ring execDescriptorFetch_keeps rfl
  | .irqTimerExpiry .. => keeps_familyParts .ring execIrqTimerExpiry_keeps rfl
  | .stallTimeout .. => keeps_familyParts .ring execStallTimeout_keeps rfl
  | .nop .. => keeps_familyParts .ring execNop_keeps rfl
  | .echo .. => keeps_familyParts .ring execEcho_keeps rfl
  | .placementQuery .. => keeps_familyParts .ring execPlacementQuery_keeps rfl
  | .stageWrite .. => keeps_familyParts .staging execStageWrite_keeps rfl
  | .stageLoad .. => keeps_familyParts .staging execStageLoad_keeps rfl
  | .stageDiscard .. => keeps_familyParts .staging execStageDiscard_keeps rfl
  | .stageQuery .. => keeps_familyParts .staging execStageQuery_keeps rfl
  | .stgDataWrite .. => keeps_familyParts .staging execStgDataWrite_keeps rfl
  | .stgCtrlCommit .. => keeps_familyParts .staging execStgCtrlCommit_keeps rfl
  | .stgCtrlCheck .. => keeps_familyParts .staging execStgCtrlCheck_keeps rfl
  | .stgCtrlDiscard .. => keeps_familyParts .staging execStgCtrlDiscard_keeps rfl
  | .commitCheck .. => keeps_familyParts .staging execCommitCheck_keeps rfl
  | .commit .. => keeps_familyParts .staging execCommit_keeps rfl
  | .checkAndPlacementComplete .. => keeps_familyParts .staging execCheckAndPlacementComplete_keeps rfl
  | .newSetHeld .. => keeps_familyParts .staging execNewSetHeld_keeps rfl
  | .commitTick .. => keeps_familyParts .staging execCommitTick_keeps rfl
  | .mramMarkCommitted .. => keeps_familyParts .staging execMramMarkCommitted_keeps rfl
  | .sessionChallenge .. => keeps_familyParts .session execSessionChallenge_keeps rfl
  | .sessionOpen .. => keeps_familyParts .session execSessionOpen_keeps rfl
  | .sessionClose .. => keeps_familyParts .session execSessionClose_keeps rfl
  | .challengeExpiry .. => keeps_familyParts .session execChallengeExpiry_keeps rfl
  | .sessionLockExpiry .. => keeps_familyParts .session execSessionLockExpiry_keeps rfl
  | .sessionExpiry .. => keeps_familyParts .session execSessionExpiry_keeps rfl
  | .runtimeSessionOpen .. => keeps_familyParts .session execRuntimeSessionOpen_keeps rfl
  | .diagnosticRequest .. => keeps_familyParts .can execDiagnosticRequest_keeps rfl
  | .heartwoodRecordWrite .. => keeps_familyParts .session execHeartwoodRecordWrite_keeps rfl
  | .lchSet .. => keeps_familyParts .load execLchSet_keeps rfl
  | .lchTimed .. => keeps_familyParts .load execLchTimed_keeps rfl
  | .lchSetMask .. => keeps_familyParts .load execLchSetMask_keeps rfl
  | .lchQuery .. => keeps_familyParts .load execLchQuery_keeps rfl
  | .heatQuery .. => keeps_familyParts .load execHeatQuery_keeps rfl
  | .timedEnd .. => keeps_familyParts .load execTimedEnd_keeps rfl
  | .leafStepUp .. => keeps_familyParts .load execLeafStepUp_keeps rfl
  | .leafStepDown .. => keeps_familyParts .load execLeafStepDown_keeps rfl
  | .pwmPeriodStart .. => keeps_familyParts .load execPwmPeriodStart_keeps rfl
  | .inrushEnd .. => keeps_familyParts .load execInrushEnd_keeps rfl
  | .preheatEnd .. => keeps_familyParts .load execPreheatEnd_keeps rfl
  | .budgetAllocation .. => keeps_familyParts .load execBudgetAllocation_keeps rfl
  | .gangImbalance .. => keeps_familyParts .load execGangImbalance_keeps rfl
  | .bankSenseImplausible .. => keeps_familyParts .load execBankSenseImplausible_keeps rfl
  | .cpFreezeEnd .. => keeps_familyParts .load execCpFreezeEnd_keeps rfl
  | .wireModelUpdate .. => keeps_familyParts .wire execWireModelUpdate_keeps rfl
  | .restartCountReset .. => keeps_familyParts .wire execRestartCountReset_keeps rfl
  | .heatSnapshot .. => keeps_familyParts .wire execHeatSnapshot_keeps rfl
  | .ambientStale .. => keeps_familyParts .wire execAmbientStale_keeps rfl
  | .shortCircuitLimit .. => keeps_familyParts .wire execShortCircuitLimit_keeps rfl
  | .envelopeTrip .. => keeps_familyParts .wire execEnvelopeTrip_keeps rfl
  | .switchOvertemp .. => keeps_familyParts .wire execSwitchOvertemp_keeps rfl
  | .onStateDiagnosis .. => keeps_familyParts .wire execOnStateDiagnosis_keeps rfl
  | .reverseCurrent .. => keeps_familyParts .wire execReverseCurrent_keeps rfl
  | .offStateDiagnosis .. => keeps_familyParts .wire execOffStateDiagnosis_keeps rfl
  | .protClear .. => keeps_familyParts .wire execProtClear_keeps rfl
  | .wireQuery .. => keeps_familyParts .wire execWireQuery_keeps rfl
  | .wireAmbient .. => keeps_familyParts .wire execWireAmbient_keeps rfl
  | .diagRun .. => keeps_familyParts .wire execDiagRun_keeps rfl
  | .brDrive .. => keeps_familyParts .bridge execBrDrive_keeps rfl
  | .brMove .. => keeps_familyParts .bridge execBrMove_keeps rfl
  | .brPulse .. => keeps_familyParts .bridge execBrPulse_keeps rfl
  | .wiperSet .. => keeps_familyParts .bridge execWiperSet_keeps rfl
  | .brQuery .. => keeps_familyParts .bridge execBrQuery_keeps rfl
  | .brPosSet .. => keeps_familyParts .bridge execBrPosSet_keeps rfl
  | .hbSet .. => keeps_familyParts .bridge execHbSet_keeps rfl
  | .hbDiagRun .. => keeps_familyParts .bridge execHbDiagRun_keeps rfl
  | .brakeEnd .. => keeps_familyParts .bridge execBrakeEnd_keeps rfl
  | .peakTimeTrip .. => keeps_familyParts .bridge execPeakTimeTrip_keeps rfl
  | .hbShortCircuit .. => keeps_familyParts .bridge execHbShortCircuit_keeps rfl
  | .hbOvertemp .. => keeps_familyParts .bridge execHbOvertemp_keeps rfl
  | .hbHeldClear .. => keeps_familyParts .bridge execHbHeldClear_keeps rfl
  | .ripple .. => keeps_familyParts .bridge execRipple_keeps rfl
  | .pinchArm .. => keeps_familyParts .bridge execPinchArm_keeps rfl
  | .backEmfCountEnd .. => keeps_familyParts .bridge execBackEmfCountEnd_keeps rfl
  | .stall .. => keeps_familyParts .bridge execStall_keeps rfl
  | .wiperParked .. => keeps_familyParts .bridge execWiperParked_keeps rfl
  | .wiperInterval .. => keeps_familyParts .bridge execWiperInterval_keeps rfl
  | .parkTimeout .. => keeps_familyParts .bridge execParkTimeout_keeps rfl
  | .driveTimeout .. => keeps_familyParts .bridge execDriveTimeout_keeps rfl
  | .pulseEnd .. => keeps_familyParts .bridge execPulseEnd_keeps rfl
  | .hbOffStateDiagnosis .. => keeps_familyParts .bridge execHbOffStateDiagnosis_keeps rfl
  | .hbOnStateOpenLoad .. => keeps_familyParts .bridge execHbOnStateOpenLoad_keeps rfl
  | .vlvFire .. => keeps_familyParts .valve execVlvFire_keeps rfl
  | .vlvRelease .. => keeps_familyParts .valve execVlvRelease_keeps rfl
  | .vlvPeriodic .. => keeps_familyParts .valve execVlvPeriodic_keeps rfl
  | .vlvQuery .. => keeps_familyParts .valve execVlvQuery_keeps rfl
  | .boostSet .. => keeps_familyParts .valve execBoostSet_keeps rfl
  | .ledgerQuery .. => keeps_familyParts .valve execLedgerQuery_keeps rfl
  | .vlvDiagRun .. => keeps_familyParts .valve execVlvDiagRun_keeps rfl
  | .fireRequestedStart .. => keeps_familyParts .valve execFireRequestedStart_keeps rfl
  | .slotGrant .. => keeps_familyParts .valve execSlotGrant_keeps rfl
  | .deferTimeout .. => keeps_familyParts .valve execDeferTimeout_keeps rfl
  | .peakReached .. => keeps_familyParts .valve execPeakReached_keeps rfl
  | .boostTimeout .. => keeps_familyParts .valve execBoostTimeout_keeps rfl
  | .peakEnd .. => keeps_familyParts .valve execPeakEnd_keeps rfl
  | .decayEnd .. => keeps_familyParts .valve execDecayEnd_keeps rfl
  | .holdEnd .. => keeps_familyParts .valve execHoldEnd_keeps rfl
  | .valveOff .. => keeps_familyParts .valve execValveOff_keeps rfl
  | .releaseTimeout .. => keeps_familyParts .valve execReleaseTimeout_keeps rfl
  | .periodicFiring .. => keeps_familyParts .valve execPeriodicFiring_keeps rfl
  | .prechargeDone .. => keeps_familyParts .valve execPrechargeDone_keeps rfl
  | .measureDone .. => keeps_familyParts .valve execMeasureDone_keeps rfl
  | .boostReady .. => keeps_familyParts .valve execBoostReady_keeps rfl
  | .boostSuspend .. => keeps_familyParts .valve execBoostSuspend_keeps rfl
  | .boostResume .. => keeps_familyParts .valve execBoostResume_keeps rfl
  | .boostConverterFault .. => keeps_familyParts .valve execBoostConverterFault_keeps rfl
  | .boostOvervoltage .. => keeps_familyParts .valve execBoostOvervoltage_keeps rfl
  | .ledgerWindow .. => keeps_familyParts .valve execLedgerWindow_keeps rfl
  | .valveShortCircuit .. => keeps_familyParts .valve execValveShortCircuit_keeps rfl
  | .valveHeldClear .. => keeps_familyParts .valve execValveHeldClear_keeps rfl
  | .valveOffStateDiagnosis .. => keeps_familyParts .valve execValveOffStateDiagnosis_keeps rfl
  | .valveOnStateDiagnosis .. => keeps_familyParts .valve execValveOnStateDiagnosis_keeps rfl
  | .debounceComplete .. => keeps_familyParts .access execDebounceComplete_keeps rfl
  | .isSupplyLow .. => keeps_familyParts .switch execIsSupplyLow_keeps rfl
  | .isSupplyReturn .. => keeps_familyParts .switch execIsSupplyReturn_keeps rfl
  | .cleaningPulseEnd .. => keeps_familyParts .switch execCleaningPulseEnd_keeps rfl
  | .ladderInvalid .. => keeps_familyParts .switch execLadderInvalid_keeps rfl
  | .swiStuck .. => keeps_familyParts .switch execSwiStuck_keeps rfl
  | .poll .. => keeps_familyParts .switch execPoll_keeps rfl
  | .wetThermal .. => keeps_familyParts .switch execWetThermal_keeps rfl
  | .swiQuery .. => keeps_familyParts .switch execSwiQuery_keeps rfl
  | .swiSnapshot .. => keeps_familyParts .switch execSwiSnapshot_keeps rfl
  | .swiClean .. => keeps_familyParts .switch execSwiClean_keeps rfl
  | .fioSet .. => keeps_familyParts .field execFioSet_keeps rfl
  | .fioQuery .. => keeps_familyParts .field execFioQuery_keeps rfl
  | .fioSnapshot .. => keeps_familyParts .field execFioSnapshot_keeps rfl
  | .fioClear .. => keeps_familyParts .field execFioClear_keeps rfl
  | .fsQuery .. => keeps_familyParts .field execFsQuery_keeps rfl
  | .fsSupplyLow .. => keeps_familyParts .field execFsSupplyLow_keeps rfl
  | .fsSupplyHigh .. => keeps_familyParts .field execFsSupplyHigh_keeps rfl
  | .fsSupplyNormal .. => keeps_familyParts .field execFsSupplyNormal_keeps rfl
  | .barrierPowerFail .. => keeps_familyParts .field execBarrierPowerFail_keeps rfl
  | .fioWire .. => keeps_familyParts .field execFioWire_keeps rfl
  | .fioChange .. => keeps_familyParts .field execFioChange_keeps rfl
  | .edgeQueueDelivery .. => keeps_familyParts .field execEdgeQueueDelivery_keeps rfl
  | .fioProt .. => keeps_familyParts .field execFioProt_keeps rfl
  | .fioRestart .. => keeps_familyParts .field execFioRestart_keeps rfl
  | .fioCountReset .. => keeps_familyParts .field execFioCountReset_keeps rfl
  | .fioDiag .. => keeps_familyParts .field execFioDiag_keeps rfl
  | .silenceTimeout .. => keeps_familyParts .field execSilenceTimeout_keeps rfl
  | .fsSilence .. => keeps_familyParts .field execFsSilence_keeps rfl
  | .canTx .. => keeps_familyParts .can execCanTx_keeps rfl
  | .canTxCancel .. => keeps_familyParts .can execCanTxCancel_keeps rfl
  | .canQuery .. => keeps_familyParts .can execCanQuery_keeps rfl
  | .canRecover .. => keeps_familyParts .can execCanRecover_keeps rfl
  | .canQueueQuery .. => keeps_familyParts .can execCanQueueQuery_keeps rfl
  | .frameReceived .. => keeps_familyParts .can execFrameReceived_keeps rfl
  | .frameRecordWrite .. => keeps_familyParts .can execFrameRecordWrite_keeps rfl
  | .arbitrationStart .. => keeps_familyParts .can execArbitrationStart_keeps rfl
  | .frameTransmitted .. => keeps_familyParts .can execFrameTransmitted_keeps rfl
  | .transmitAttemptFailed .. => keeps_familyParts .can execTransmitAttemptFailed_keeps rfl
  | .cancelErrorFlag .. => keeps_familyParts .can execCancelErrorFlag_keeps rfl
  | .txTimeout .. => keeps_familyParts .can execTxTimeout_keeps rfl
  | .busoffHoldExpiry .. => keeps_familyParts .can execBusoffHoldExpiry_keeps rfl
  | .busoffRecoveryComplete .. => keeps_familyParts .can execBusoffRecoveryComplete_keeps rfl
  | .txdDominant .. => keeps_familyParts .can execTxdDominant_keeps rfl
  | .linWrite .. => keeps_familyParts .lin execLinWrite_keeps rfl
  | .linSched .. => keeps_familyParts .lin execLinSched_keeps rfl
  | .linDiagReq .. => keeps_familyParts .lin execLinDiagReq_keeps rfl
  | .linQuery .. => keeps_familyParts .lin execLinQuery_keeps rfl
  | .gwIsolate .. => keeps_familyParts .lin execGwIsolate_keeps rfl
  | .gwRouteQuery .. => keeps_familyParts .lin execGwRouteQuery_keeps rfl
  | .linSlotStart .. => keeps_familyParts .lin execLinSlotStart_keeps rfl
  | .linRx .. => keeps_familyParts .lin execLinRx_keeps rfl
  | .linErr .. => keeps_familyParts .lin execLinErr_keeps rfl
  | .linBusDominant .. => keeps_familyParts .lin execLinBusDominant_keeps rfl
  | .gatewayBufferAssign .. => keeps_familyParts .lin execGatewayBufferAssign_keeps rfl
  | .gatewayMaxAge .. => keeps_familyParts .lin execGatewayMaxAge_keeps rfl
  | .gwDrop .. => keeps_familyParts .lin execGwDrop_keeps rfl
  | .netSleep .. => keeps_familyParts .sleep execNetSleep_keeps rfl
  | .netWake .. => keeps_familyParts .sleep execNetWake_keeps rfl
  | .netListen .. => keeps_familyParts .sleep execNetListen_keeps rfl
  | .netQuery .. => keeps_familyParts .sleep execNetQuery_keeps rfl
  | .drainEnd .. => keeps_familyParts .sleep execDrainEnd_keeps rfl
  | .segmentCommit .. => keeps_familyParts .sleep execSegmentCommit_keeps rfl
  | .agreeTimeout .. => keeps_familyParts .sleep execAgreeTimeout_keeps rfl
  | .wakeUpPattern .. => keeps_familyParts .sleep execWakeUpPattern_keeps rfl
  | .wakeUpFrame .. => keeps_familyParts .sleep execWakeUpFrame_keeps rfl
  | .decoderErrorCount .. => keeps_familyParts .sleep execDecoderErrorCount_keeps rfl
  | .decoderSilence .. => keeps_familyParts .sleep execDecoderSilence_keeps rfl
  | .linWake .. => keeps_familyParts .sleep execLinWake_keeps rfl
  | .segmentAwake .. => keeps_familyParts .sleep execSegmentAwake_keeps rfl
  | .netAnnounce .. => keeps_familyParts .sleep execNetAnnounce_keeps rfl
  | .maxAwake .. => keeps_familyParts .sleep execMaxAwake_keeps rfl
  | .tokenSearch .. => keeps_familyParts .access execTokenSearch_keeps rfl
  | .releaseStart .. => keeps_familyParts .access execReleaseStart_keeps rfl
  | .releaseEnd .. => keeps_familyParts .access execReleaseEnd_keeps rfl
  | .tokenRead .. => keeps_familyParts .access execTokenRead_keeps rfl
  | .tokenWrite .. => keeps_familyParts .access execTokenWrite_keeps rfl
  | .keyWrite .. => keeps_familyParts .access execKeyWrite_keeps rfl
  | .keyQuery .. => keeps_familyParts .access execKeyQuery_keeps rfl
  | .fieldStart .. => keeps_familyParts .access execFieldStart_keeps rfl
  | .wup .. => keeps_familyParts .access execWup_keeps rfl
  | .halt .. => keeps_familyParts .access execHalt_keeps rfl
  | .authA .. => keeps_familyParts .access execAuthA_keeps rfl
  | .authB .. => keeps_familyParts .access execAuthB_keeps rfl
  | .read .. => keeps_familyParts .access execRead_keeps rfl
  | .write .. => keeps_familyParts .access execWrite_keeps rfl
  | .tokenAnswer .. => keeps_familyParts .access execTokenAnswer_keeps rfl
  | .releaseFrame .. => keeps_familyParts .access execReleaseFrame_keeps rfl
  | .releaseSessionTimeout .. => keeps_familyParts .access execReleaseSessionTimeout_keeps rfl
  | .interruptEntry .. => keeps_familyParts .engine execInterruptEntry_keeps rfl
  | .handlerDispatch .. => keeps_familyParts .engine execHandlerDispatch_keeps rfl
  | .handlerCycleBudgetExceeded .. => keeps_familyParts .engine execHandlerCycleBudgetExceeded_keeps rfl
  | .inboundQueueDelivery .. => keeps_familyParts .engine execInboundQueueDelivery_keeps rfl
  | .localTimer .. => keeps_familyParts .engine execLocalTimer_keeps rfl
  | .add .. => keeps_familyParts .engine execAdd_keeps rfl
  | .sub .. => keeps_familyParts .engine execSub_keeps rfl
  | .adc .. => keeps_familyParts .engine execAdc_keeps rfl
  | .sbc .. => keeps_familyParts .engine execSbc_keeps rfl
  | .and .. => keeps_familyParts .engine execAnd_keeps rfl
  | .or .. => keeps_familyParts .engine execOr_keeps rfl
  | .xor .. => keeps_familyParts .engine execXor_keeps rfl
  | .not .. => keeps_familyParts .engine execNot_keeps rfl
  | .neg .. => keeps_familyParts .engine execNeg_keeps rfl
  | .abs .. => keeps_familyParts .engine execAbs_keeps rfl
  | .mov .. => keeps_familyParts .engine execMov_keeps rfl
  | .min .. => keeps_familyParts .engine execMin_keeps rfl
  | .max .. => keeps_familyParts .engine execMax_keeps rfl
  | .minu .. => keeps_familyParts .engine execMinu_keeps rfl
  | .maxu .. => keeps_familyParts .engine execMaxu_keeps rfl
  | .clz .. => keeps_familyParts .engine execClz_keeps rfl
  | .popc .. => keeps_familyParts .engine execPopc_keeps rfl
  | .sxb .. => keeps_familyParts .engine execSxb_keeps rfl
  | .sxh .. => keeps_familyParts .engine execSxh_keeps rfl
  | .shl .. => keeps_familyParts .engine execShl_keeps rfl
  | .shr .. => keeps_familyParts .engine execShr_keeps rfl
  | .sar .. => keeps_familyParts .engine execSar_keeps rfl
  | .rol .. => keeps_familyParts .engine execRol_keeps rfl
  | .ror .. => keeps_familyParts .engine execRor_keeps rfl
  | .mul .. => keeps_familyParts .engine execMul_keeps rfl
  | .mulh .. => keeps_familyParts .engine execMulh_keeps rfl
  | .mulhu .. => keeps_familyParts .engine execMulhu_keeps rfl
  | .div .. => keeps_familyParts .engine execDiv_keeps rfl
  | .divu .. => keeps_familyParts .engine execDivu_keeps rfl
  | .rem .. => keeps_familyParts .engine execRem_keeps rfl
  | .remu .. => keeps_familyParts .engine execRemu_keeps rfl
  | .addi .. => keeps_familyParts .engine execAddi_keeps rfl
  | .andi .. => keeps_familyParts .engine execAndi_keeps rfl
  | .ori .. => keeps_familyParts .engine execOri_keeps rfl
  | .xori .. => keeps_familyParts .engine execXori_keeps rfl
  | .ldi .. => keeps_familyParts .engine execLdi_keeps rfl
  | .ldl .. => keeps_familyParts .engine execLdl_keeps rfl
  | .shi .. => keeps_familyParts .engine execShi_keeps rfl
  | .cmp .. => keeps_familyParts .engine execCmp_keeps rfl
  | .cmpi .. => keeps_familyParts .engine execCmpi_keeps rfl
  | .ld .. => keeps_familyParts .engine execLd_keeps rfl
  | .st .. => keeps_familyParts .engine execSt_keeps rfl
  | .lea .. => keeps_familyParts .engine execLea_keeps rfl
  | .pushm .. => keeps_familyParts .engine execPushm_keeps rfl
  | .popm .. => keeps_familyParts .engine execPopm_keeps rfl
  | .movs .. => keeps_familyParts .engine execMovs_keeps rfl
  | .xchg .. => keeps_familyParts .engine execXchg_keeps rfl
  | .cas .. => keeps_familyParts .engine execCas_keeps rfl
  | .br .. => keeps_familyParts .engine execBr_keeps rfl
  | .bz .. => keeps_familyParts .engine execBz_keeps rfl
  | .bnz .. => keeps_familyParts .engine execBnz_keeps rfl
  | .jr .. => keeps_familyParts .engine execJr_keeps rfl
  | .call .. => keeps_familyParts .engine execCall_keeps rfl
  | .callx .. => keeps_familyParts .engine execCallx_keeps rfl
  | .callr .. => keeps_familyParts .engine execCallr_keeps rfl
  | .ret .. => keeps_familyParts .engine execRet_keeps rfl
  | .loop .. => keeps_familyParts .engine execLoop_keeps rfl
  | .loopi .. => keeps_familyParts .engine execLoopi_keeps rfl
  | .leave .. => keeps_familyParts .engine execLeave_keeps rfl
  | .rep .. => keeps_familyParts .engine execRep_keeps rfl
  | .fence .. => keeps_familyParts .engine execFence_keeps rfl
  | .send .. => keeps_familyParts .engine execSend_keeps rfl
  | .recv .. => keeps_familyParts .engine execRecv_keeps rfl
  | .wait .. => keeps_familyParts .engine execWait_keeps rfl
  | .yield .. => keeps_familyParts .engine execYield_keeps rfl
  | .trap .. => keeps_familyParts .engine execTrap_keeps rfl
  | .mfs .. => keeps_familyParts .engine execMfs_keeps rfl
  | .mts .. => keeps_familyParts .engine execMts_keeps rfl
  | .reti .. => keeps_familyParts .engine execReti_keeps rfl
  | .pairMismatch .. => keeps_familyParts .pair execPairMismatch_keeps rfl
  | .pkgWrite .. => keeps_familyParts .pair execPkgWrite_keeps rfl
  | .pkgErase .. => keeps_familyParts .pair execPkgErase_keeps rfl
  | .pkgQuery .. => keeps_familyParts .pair execPkgQuery_keeps rfl
  | .pairSplit .. => keeps_familyParts .pair execPairSplit_keeps rfl
  | .pairMerge .. => keeps_familyParts .pair execPairMerge_keeps rfl
  | .pairQuery .. => keeps_familyParts .pair execPairQuery_keeps rfl
  | .mergeCopyDone .. => keeps_familyParts .pair execMergeCopyDone_keeps rfl
  | .mergeSelftestDone .. => keeps_familyParts .pair execMergeSelftestDone_keeps rfl
  | .hbQuery .. => keeps_familyParts .bridgeHost execHbQuery_keeps rfl
  | .xspiRead .. => keeps_familyParts .bridgeHost execXspiRead_keeps rfl
  | .xspiWrite .. => keeps_familyParts .bridgeHost execXspiWrite_keeps rfl
  | .xspiErase .. => keeps_familyParts .bridgeHost execXspiErase_keeps rfl
  | .xspiQuery .. => keeps_familyParts .bridgeHost execXspiQuery_keeps rfl
  | .xspiNoAnswer .. => keeps_familyParts .bridgeHost execXspiNoAnswer_keeps rfl
  | .readCompletion .. => keeps_familyParts .bridgeHost execReadCompletion_keeps rfl
  | .tagTimeout .. => keeps_familyParts .bridgeHost execTagTimeout_keeps rfl
  | .tagQuarantineEnd .. => keeps_familyParts .bridgeHost execTagQuarantineEnd_keeps rfl
  | .delayedReadDiscard .. => keeps_familyParts .bridgeHost execDelayedReadDiscard_keeps rfl
  | .hostLinkLoss .. => keeps_familyParts .bridgeHost execHostLinkLoss_keeps rfl
  | .msixUnmask .. => keeps_familyParts .bridgeHost execMsixUnmask_keeps rfl
  | .faultQuery .. => keeps_familyParts .fault execFaultQuery_keeps rfl
  | .faultAck .. => keeps_familyParts .fault execFaultAck_keeps rfl
  | .faultReset .. => keeps_familyParts .fault execFaultReset_keeps rfl
  | .faultInject .. => keeps_familyParts .fault execFaultInject_keeps rfl
  | .faultRaise .. => keeps_familyParts .fault execFaultRaise_keeps rfl
  | .deviceReset .. => keeps_familyParts .start execDeviceReset_keeps rfl
  | .heartbeat .. => keeps_familyParts .fault execHeartbeat_keeps rfl
  | .runtimeWatchdog .. => keeps_familyParts .fault execRuntimeWatchdog_keeps rfl
  | .recoveryEnd .. => keeps_familyParts .fault execRecoveryEnd_keeps rfl
  | .powerSet .. => keeps_familyParts .power execPowerSet_keeps rfl
  | .powerQuery .. => keeps_familyParts .power execPowerQuery_keeps rfl
  | .alarmSet .. => keeps_familyParts .power execAlarmSet_keeps rfl
  | .entryHandshakeAnswer .. => keeps_familyParts .power execEntryHandshakeAnswer_keeps rfl
  | .entryTimeout .. => keeps_familyParts .power execEntryTimeout_keeps rfl
  | .entryComplete .. => keeps_familyParts .power execEntryComplete_keeps rfl
  | .standbyExit .. => keeps_familyParts .power execStandbyExit_keeps rfl
  | .voutAcknowledge .. => keeps_familyParts .power execVoutAcknowledge_keeps rfl
  | .pmbusNoAck .. => keeps_familyParts .power execPmbusNoAck_keeps rfl
  | .pmAlert .. => keeps_familyParts .power execPmAlert_keeps rfl
  | .wakeLatch .. => keeps_familyParts .power execWakeLatch_keeps rfl
  | .rootTimerWake .. => keeps_familyParts .power execRootTimerWake_keeps rfl
  | .perstNWake .. => keeps_familyParts .power execPerstNWake_keeps rfl
  | .wakeNRelease .. => keeps_familyParts .power execWakeNRelease_keeps rfl
  | .regulatorRetry .. => keeps_familyParts .power execRegulatorRetry_keeps rfl
  | .vcoreBrownout .. => keeps_familyParts .start execVcoreBrownout_keeps rfl
  | .xtal32Start .. => keeps_familyParts .power execXtal32Start_keeps rfl
  | .xtal32Fail .. => keeps_familyParts .power execXtal32Fail_keeps rfl
  | .xtal40Fail .. => keeps_familyParts .power execXtal40Fail_keeps rfl
  | .pfwFall .. => keeps_familyParts .power execPfwFall_keeps rfl
  | .pfwRise .. => keeps_familyParts .power execPfwRise_keeps rfl
  | .crank .. => keeps_familyParts .power execCrank_keeps rfl
  | .hwRead .. => keeps_familyParts .session execHwRead_keeps rfl
  | .hwQuery .. => keeps_familyParts .session execHwQuery_keeps rfl
  | .updWrite .. => keeps_familyParts .update execUpdWrite_keeps rfl
  | .updArm .. => keeps_familyParts .update execUpdArm_keeps rfl
  | .updDisarm .. => keeps_familyParts .update execUpdDisarm_keeps rfl
  | .updQuery .. => keeps_familyParts .update execUpdQuery_keeps rfl
  | .updConfirm .. => keeps_familyParts .update execUpdConfirm_keeps rfl
  | .updReject .. => keeps_familyParts .update execUpdReject_keeps rfl
  | .updKeySet .. => keeps_familyParts .update execUpdKeySet_keeps rfl
  | .trialTimeout .. => keeps_familyParts .update execTrialTimeout_keeps rfl
  | .perfSet .. => keeps_familyParts .perf execPerfSet_keeps rfl
  | .fabSet .. => keeps_familyParts .perf execFabSet_keeps rfl
  | .perfRing .. => keeps_familyParts .perf execPerfRing_keeps rfl
  | .perfSnap .. => keeps_familyParts .perf execPerfSnap_keeps rfl
  | .perfSample .. => keeps_familyParts .perf execPerfSample_keeps rfl
  | .pcCyclesLoRead .. => keeps_familyParts .perf execPcCyclesLoRead_keeps rfl
  | .fabLoRead .. => keeps_familyParts .perf execFabLoRead_keeps rfl
  | .ledgerLoRead .. => keeps_familyParts .valve execLedgerLoRead_keeps rfl
  | .loadDieSupplyLow .. => keeps_familyParts .start execLoadDieSupplyLow_keeps rfl
  | .lsSupplyHigh .. => keeps_familyParts .start execLsSupplyHigh_keeps rfl
  | .supplyReturn .. => keeps_familyParts .start execSupplyReturn_keeps rfl
  | .dieOvertemp .. => keeps_familyParts .start execDieOvertemp_keeps rfl
  | .rootIslandSupplyLoss .. => keeps_familyParts .start execRootIslandSupplyLoss_keeps rfl
  | .busIntegrated .. => keeps_familyParts .can execBusIntegrated_keeps rfl
  | .receiveError .. => keeps_familyParts .can execReceiveError_keeps rfl
  | .linBusRecessive .. => keeps_familyParts .lin execLinBusRecessive_keeps rfl
  | .nopInstruction .. => keeps_familyParts .engine execNopInstruction_keeps rfl
  | .illegalInstruction .. => keeps_familyParts .engine execIllegalInstruction_keeps rfl
  | .xtal40Retry .. => .mono (may := .time :: familyParts .start) execXtal40Retry_keeps rfl
  | .barrierPowerReturn .. => keeps_familyParts .field execBarrierPowerReturn_keeps rfl
  | .bankSensePlausible .. => keeps_familyParts .load execBankSensePlausible_keeps rfl
  | .ovSlowEnd .. => keeps_familyParts .valve execOvSlowEnd_keeps rfl
  | .xspiOperationEnd .. => keeps_familyParts .bridgeHost execXspiOperationEnd_keeps rfl

theorem queue_notMem_commandParts (c : Instr) : .queue ∉ commandParts c := by
  unfold commandParts
  split
  · decide
  · decide
  · decide
  · cases family c <;> decide

theorem time_notMem_familyParts (f : Family) : .time ∉ familyParts f := by cases f <;> decide

theorem commandParts_of_ne_start {c : Instr} (h : family c ≠ .start) : commandParts c = familyParts (family c) := by
  unfold commandParts
  split
  · exact absurd rfl h
  · exact absurd rfl h
  · exact absurd rfl h
  · rfl

theorem pending_of_keeps {may : List Safety.Part} {s t : State} (h : KeepsBut may s t) (hq : .queue ∉ may) : t.pending = s.pending := h .queue hq

theorem clock_of_keeps {may : List Safety.Part} {s t : State} (h : KeepsBut may s t) (ht : .time ∉ may) :
    t.dt = s.dt ∧ t.rt = s.rt ∧ t.rtPhase = s.rtPhase := h .time ht

/-! ### An idle step counts time (R8) -/

/-- After the clocks' own tick, the rest of an idle step changes neither the queue nor DT or RT. -/
theorem tick_keeps_clockTick {s : State} :
    KeepsBut [.records, .ses, .stg, .mram, .flt, .pw, .hw, .upd, .ld, .hbs, .vs, .sw, .fs, .ns, .acc, .eng, .pairs, .links]
      (clockTick s) (tick s) := by
  unfold tick
  exact .comp (.ite (.comp (.ite dieTick_keeps .refl) <| .mono dutyTick_keeps rfl) .refl) <| .mono regTick_keeps rfl

theorem clockTick_clocksOn {s : State} (h : s.pw.clocks = true) : clockTick s = rtFollows { s with dt := (s.dt + 1) % 2 ^ 64 } := by
  simp [clockTick, h]

theorem clockTick_clocksOff {s : State} (h : s.pw.clocks = false) :
    clockTick s = if s.pw.rootOn then { s with rt := (s.rt + 1) % 2 ^ 48 } else s := by
  simp [clockTick, h]

theorem rtFollows_full {s : State} (h : 78125 ≤ s.rtPhase + 16) :
    rtFollows s = { s with rt := (s.rt + 1) % 2 ^ 48, rtPhase := s.rtPhase + 16 - 78125 } := if_pos h

theorem rtFollows_part {s : State} (h : ¬78125 ≤ s.rtPhase + 16) : rtFollows s = { s with rtPhase := s.rtPhase + 16 } := if_neg h

theorem rtFollows_dt (s : State) : (rtFollows s).dt = s.dt := by
  by_cases h : 78125 ≤ s.rtPhase + 16
  · rw [rtFollows_full h]
  · rw [rtFollows_part h]

theorem rtFollows_rt (s : State) : (rtFollows s).rt = if 78125 ≤ s.rtPhase + 16 then (s.rt + 1) % 2 ^ 48 else s.rt := by
  split
  case isTrue h => rw [rtFollows_full h]
  case isFalse h => rw [rtFollows_part h]

/-- A tick of RT takes 78,125 sixteenths of a DT tick from the phase. -/
theorem rtFollows_rtPhase (s : State) : (rtFollows s).rtPhase + (if 78125 ≤ s.rtPhase + 16 then 78125 else 0) = s.rtPhase + 16 := by
  split
  case isTrue h =>
    rw [rtFollows_full h]
    exact Nat.sub_add_cancel h
  case isFalse h => rw [rtFollows_part h]

/-- Settles O2: the rest of the tick keeps the queue and the clocks, so the step counts what `clockTick` counts. -/
theorem idleStepCountsTime : Obligations.IdleStepCountsTime := by
  intro s hs
  obtain ⟨hdt, hrt, hph⟩ := clock_of_keeps (tick_keeps_clockTick (s := s)) (by decide)
  have hq : (tick s).pending = (clockTick s).pending := pending_of_keeps tick_keeps_clockTick (by decide)
  have hq' : (clockTick s).pending = s.pending := pending_of_keeps clockTick_keeps (by decide)
  refine ⟨tick s, by simp [step, hs], hq.trans (hq'.trans hs), fun hc => ?_, fun hc => ?_⟩
  · rw [hdt, hrt, hph, clockTick_clocksOn hc]
    exact ⟨rtFollows_dt _, rtFollows_rt _, rtFollows_rtPhase _⟩
  · rw [hdt, hrt, clockTick_clocksOff hc]
    split <;> exact ⟨rfl, rfl⟩

/-! ### Commands take no time -/

/-- Settles O9: no command's parts name the queue, and outside the start family none name DT and RT. -/
theorem queueAndClocksKept : Obligations.QueueAndClocksKept :=
  ⟨fun c s t e => pending_of_keeps (exec_keeps s c t e) (queue_notMem_commandParts c),
   fun c s t e hc => clock_of_keeps (exec_keeps s c t e) (commandParts_of_ne_start hc ▸ time_notMem_familyParts _)⟩

/-! ### DT and RT stay within their widths -/

theorem timeFits_of_keeps {may : List Safety.Part} {s t : State} (h : KeepsBut may s t) (ht : .time ∉ may) (hs : TimeFits s) : TimeFits t := by
  obtain ⟨hdt, hrt, hph⟩ := clock_of_keeps h ht
  rwa [TimeFits, hdt, hrt, hph]

theorem timeFits_rtFollows {s : State} (h : TimeFits s) : TimeFits (rtFollows s) := by
  obtain ⟨hdt, hrt, hph⟩ := h
  have hphase := rtFollows_rtPhase s
  refine ⟨by rwa [rtFollows_dt], ?_, ?_⟩
  · rw [rtFollows_rt]
    split <;> omega
  · split at hphase <;> omega

theorem timeFits_clockTick {s : State} (h : TimeFits s) : TimeFits (clockTick s) := by
  obtain ⟨hdt, hrt, hph⟩ := h
  unfold clockTick
  split
  · exact timeFits_rtFollows ⟨Nat.mod_lt _ (by decide), hrt, hph⟩
  · split
    · exact ⟨hdt, Nat.mod_lt _ (by decide), hph⟩
    · exact ⟨hdt, hrt, hph⟩

theorem timeFits_dtAgain {s : State} (h : TimeFits s) : TimeFits { s with dt := dtAgain s } := by
  obtain ⟨-, hrt, hph⟩ := h
  exact ⟨Nat.mod_lt _ (by decide), hrt, hph⟩

theorem timeFits_setTime {s : State} (h : TimeFits s) : TimeFits (setTime s) := by
  have raised {t : State} (ht : TimeFits t) : TimeFits (raise 248 0xFFFF t) := timeFits_of_keeps (raise_keeps _ _ _) (by decide) ht
  obtain ⟨-, -, hph⟩ := id h
  unfold setTime
  split
  · apply raised
    split
    · exact ⟨Nat.mod_lt _ (Nat.two_pow_pos 64), Nat.mod_lt _ (Nat.two_pow_pos 48), hph⟩
    · exact ⟨Nat.two_pow_pos 64, Nat.two_pow_pos 48, hph⟩
  · split
    · exact h
    · exact timeFits_dtAgain h

theorem timeFits_digitalDieStart {found : StartFindings} {s : State} (h : TimeFits s) : TimeFits (digitalDieStart found s) := by
  cases hx : found.xtalRuns
  · exact timeFits_of_keeps (digitalDieStart_keeps_of_noXtal hx) (by decide) h
  · have dropped : TimeFits (dropDamaged found s) := timeFits_of_keeps dropDamaged_keeps (by decide) h
    exact timeFits_of_keeps (setTime_keeps_digitalDieStart hx) (by decide) (timeFits_setTime dropped)

/-- What a command applies where its occasion is there keeps the widths when the change itself does. -/
theorem timeFits_onlyIf {c : Bool} {f : State → State} {s t : State} (h : TimeFits s) (hf : TimeFits (f s))
    (e : (.next (onlyIf c f s) : Out) = .next t) : TimeFits t := by
  injection e with e
  subst e
  unfold onlyIf
  split <;> assumption

theorem timeFits_execRootIslandPowerOn {vbat : Nat} {s t : State} (h : TimeFits s) (e : execRootIslandPowerOn vbat s = .next t) : TimeFits t := by
  obtain ⟨hdt, -, -⟩ := id h
  exact timeFits_onlyIf h ⟨hdt, Nat.two_pow_pos 48, (by decide : 0 < 78125)⟩ e

theorem timeFits_execXtal40Retry {runs : Bool} {s t : State} (h : TimeFits s) (e : execXtal40Retry runs s = .next t) : TimeFits t := by
  refine timeFits_onlyIf h ?_ e
  extract_lets s₁ s₂ s₃
  have tried : TimeFits s₁ := timeFits_of_keeps (modPw_keeps _ _) (by decide) h
  have clocked : KeepsBut [.records, .pw, .ld] s₂ ((List.range 64).foldl (fun s n => applyLch n s) s₃) :=
    .comp (.foldl fun _ _ => .mono applyLch_keeps rfl) <| .after (modPw_keeps _ _) rfl <| .mono decayAll_keeps rfl
  split
  · exact timeFits_of_keeps clocked (by decide) (timeFits_dtAgain tried)
  · exact tried

theorem timeFits_exec {c : Instr} {s t : State} (h : TimeFits s) (e : exec c s = .next t) : TimeFits t := by
  have kept := exec_keeps s c t e
  unfold commandParts at kept
  split at kept
  · exact timeFits_execRootIslandPowerOn h e
  · exact timeFits_onlyIf h (timeFits_digitalDieStart h) e
  · exact timeFits_execXtal40Retry h e
  · exact timeFits_of_keeps kept (time_notMem_familyParts _) h

/-- Settles O5: the widths are kept by the tick of the clocks, by the three commands that set DT or RT, and by the frames of all
others. -/
theorem timeFitsKept : Obligations.TimeFitsKept := by
  intro s t h e
  unfold step at e
  split at e
  · injection e with e
    exact e ▸ timeFits_of_keeps tick_keeps_clockTick (by decide) (timeFits_clockTick h)
  · next rest _ => exact timeFits_exec (s := { s with pending := rest }) h e

end Sys2Proof.Frames
end

section
/-! SUPPORT. What a run carries along: a property that holds before a change and after it. The operations are followed as their
frames are, and where one leaves the staging area alone its frame is cited. -/

namespace Sys2Proof.Safety

open Sys2Proof.Machine

/-! ### How properties are carried -/

/-- A change from `s` to `t` keeps the property `I`. -/
def Carries (I : State → Prop) (s t : State) : Prop := I s → I t

/-- Every state that a meaning goes on to has kept the property. -/
def OutCarries (I : State → Prop) (s : State) (o : Out) : Prop := ∀ t, o = .next t → Carries I s t

/-- Where a computation of an instruction succeeds, it has kept the property. -/
def EngCarries {α : Type} (I : State → Prop) (m : EngM α) : Prop := ∀ c x c', m c = .ok (x, c') → Carries I c.s c'.s

section
variable {I : State → Prop} {s t u : State} {o o' : Out}

theorem Carries.refl : Carries I s s := id

/-- The later of two changes first, as `g (f s)` is written. -/
theorem Carries.comp (k : Carries I t u) (h : Carries I s t) : Carries I s u := k ∘ h

theorem Carries.ite {c : Prop} [Decidable c] (h : Carries I s t) (k : Carries I s u) : Carries I s (if c then t else u) := by
  split <;> assumption

theorem Carries.foldl {α : Type} {f : State → α → State} {l : List α} (h : ∀ s x, Carries I s (f s x)) : Carries I s (l.foldl f s) := by
  induction l generalizing s with
  | nil => exact .refl
  | cons x l ih => exact .comp ih (h s x)

theorem Carries.onlyIf {c : Bool} {f : State → State} (h : ∀ s, Carries I s (f s)) : Carries I s (Machine.onlyIf c f s) :=
  .ite (h s) .refl

theorem Carries.whenOn {f : State → State} (h : ∀ s, Carries I s (f s)) : Carries I s (Machine.whenOn f s) := .onlyIf h

theorem OutCarries.next (h : Carries I s t) : OutCarries I s (.next t) := fun _ e => by
  injection e with e
  exact e ▸ h

theorem OutCarries.ite {c : Prop} [Decidable c] (h : OutCarries I s o) (k : OutCarries I s o') : OutCarries I s (if c then o else o') := by
  split <;> assumption

/-- A descriptor operation keeps what its effect keeps, where descriptors and records on their way do not matter (R40). -/
theorem Carries.runOp {o : Origin} {op : Nat} {form : State → Desc → OpForm} {eff : Desc → Nat → State → State}
    (hr : ∀ {s t}, KeepsBut [.records] s t → Carries I s t) (h : ∀ d uid s, Carries I s (eff d uid s)) :
    Carries I s (Machine.runOp o op form eff s) := by
  have named {c : Bool} {n : Nat} {s : State} : Carries I s (if c = true then touchSession n s else s) :=
    .ite (hr <| .mono (Laws.touchSession_keeps n s) rfl) .refl
  have begins {d : Desc} {s : State} : Carries I s (startRun d (popHead o s)) := .comp (hr <| Laws.startRun_keeps _ _) <| hr <| Laws.popHead_keeps _ _
  have retires {s : State} : Carries I s (retireUnknown o pipeMax s) := hr <| Laws.retireUnknown_keeps _ _ _
  unfold Machine.runOp
  refine .comp ?_ retires
  dsimp only
  split
  · exact .refl
  · refine .ite .refl <| .comp retires ?_
    split
    · exact .comp (hr <| Laws.finishFree_keeps _ _ _) <| .comp named begins
    · exact .comp (h _ _ _) <| .comp named begins

theorem OutCarries.runOut {o : Origin} {op : Nat} {form : State → Desc → OpForm} {eff : Desc → Nat → State → State}
    (hr : ∀ {s t}, KeepsBut [.records] s t → Carries I s t) (h : ∀ d uid s, Carries I s (eff d uid s)) :
    OutCarries I s (Machine.runOut o op form eff s) := .next <| .whenOn fun _ => .runOp hr h

end

section
variable {I : State → Prop} {α β : Type} {m n : EngM α}

theorem EngCarries.ok {f : Cx → α × Cx} (h : ∀ c, Carries I c.s (f c).2.s) : EngCarries I fun c => .ok (f c) := fun c x c' e => by
  injection e with e
  simpa only [e] using h c

/-- It stops: no state is reached (R348). -/
theorem EngCarries.stops {f : Cx → Stop} : EngCarries (α := α) I fun c => .error (f c) := fun _ _ _ e => by injection e

theorem EngCarries.pure {x : α} : EngCarries I (Pure.pure x) := .ok fun _ => .refl

theorem EngCarries.get : EngCarries I (MonadState.get : EngM Cx) := .ok fun _ => .refl

theorem EngCarries.modCx {f : State → State} (h : ∀ s, Carries I s (f s)) : EngCarries I (Machine.modCx f) := .ok fun c => h c.s

theorem EngCarries.bind {f : α → EngM β} (h : EngCarries I m) (k : ∀ x, EngCarries I (f x)) : EngCarries I (m >>= f) := by
  intro c y c'' e
  rw [Laws.bind_run] at e
  split at e
  · next x c' hm => exact .comp (k x c' y c'' e) (h c x c' hm)
  · cases e

/-- The computation's state is read, changed and put back. -/
theorem EngCarries.getSet {f : Cx → Cx} {k : Cx → EngM β} (h : ∀ c, Carries I c.s (f c).s) (hk : ∀ c, EngCarries I (k c)) :
    EngCarries I (MonadState.get >>= fun c => set (f c) >>= fun _ => k c) :=
  fun c y c'' e => .comp (hk c (f c) y c'' e) (h c)

theorem EngCarries.ite {c : Prop} [Decidable c] (h : EngCarries I m) (k : EngCarries I n) : EngCarries I (if c then m else n) := by
  split <;> assumption

end

/-! ### No set in force -/

/-- No commit has been applied since the last start-up (R16). -/
def Unapplied (s : State) : Prop := s.stg.inForce = false

section
variable {may : List Safety.Part} {s t u : State} {α : Type} {m : EngM α}

/-- A frame that leaves the staging area out. -/
theorem Carries.frame (k : KeepsBut may s t) (hm : may.contains .stg = false) : Carries Unapplied s t := by
  intro hs
  have same : t.stg = s.stg := k .stg (by simpa using hm)
  exact (congrArg StageSt.inForce same).trans hs

/-- The same for the later of two changes. -/
theorem Carries.after (k : KeepsBut may t u) (hm : may.contains .stg = false) (h : Carries Unapplied s t) : Carries Unapplied s u :=
  .comp (.frame k hm) h

theorem OutCarries.frame {o : Out} (k : OutKeeps may s o) (hm : may.contains .stg = false) : OutCarries Unapplied s o :=
  fun t e => .frame (k t e) hm

theorem EngCarries.frame (k : EngKeeps may m) (hm : may.contains .stg = false) : EngCarries Unapplied m :=
  fun c x c' e => .frame (k c x c' e) hm

/-- A change of the staging area that puts nothing in force. -/
theorem Carries.modStg {f : StageSt → StageSt} (h : ∀ g, (f g).inForce = g.inForce) : Carries Unapplied s (Machine.modStg f s) :=
  (h s.stg).trans

theorem OutCarries.descriptor {o : Origin} {op : Nat} {form : State → Desc → OpForm} {eff : Desc → Nat → State → State}
    (h : ∀ d uid s, Carries Unapplied s (eff d uid s)) : OutCarries Unapplied s (Machine.runOut o op form eff s) := .runOut (.frame · rfl) h

/-- Where no set is in force every output is held in SAFE (R16). -/
theorem safeHeld_of_unapplied {o : OutId} (h : Unapplied s) : safeHeld s o = true := by simp [safeHeld, show s.stg.inForce = false from h]

end

end Sys2Proof.Safety

namespace Sys2Proof.Frames

open Sys2Proof.Machine Sys2Proof.Safety Sys2Proof.Laws

/-- An operation with a block puts nothing in force where its effect does not (R37, R393, R394). -/
theorem runBlock_unapplied {o : Origin} {op : Nat} {b : BlockStep} {form : State → Desc → OpForm}
    {eff : Desc → Nat → List Byte → State → State} {s : State} (h : ∀ d uid bs s, Carries Unapplied s (eff d uid bs s)) :
    OutCarries Unapplied s (runBlock o op b form eff s) := by
  refine .next <| .whenOn fun s => ?_
  extract_lets s₁
  refine .comp (t := s₁) ?_ <| .frame (retireUnknown_keeps _ _ _) rfl
  cases b with
  | read => exact .frame blockSend_keeps rfl
  | run =>
    refine .onlyIf fun s => .after clearBlock_keeps rfl <| .runOp (.frame · rfl) fun d uid s => ?_
    have read := blockBytes_keeps (o := o) (host := (paramBlock s d).1) (addr := (paramBlock s d).2.1) (len := (paramBlock s d).2.2) (s := s)
    dsimp only
    split
    · next e => exact .comp (h _ _ _ _) <| .frame (e ▸ read) rfl
    · next e => exact .after (finishFree_keeps _ _ _) rfl <| .frame (e ▸ read) rfl

/-! ### Staging and commit (file 03) -/

theorem writeReport_unapplied {s : State} : Carries Unapplied s (writeReport s) := .modStg fun _ => rfl

theorem rewriteReport_unapplied {s : State} : Carries Unapplied s (rewriteReport s) := by
  unfold rewriteReport
  split
  · exact .refl
  · exact .modStg fun _ => rfl

theorem commitEnds_unapplied {c : CommitRun} {status result : Nat} {f : CheckFail} {s : State} :
    Carries Unapplied s (commitEnds c status result f s) := by
  unfold commitEnds
  extract_lets s₁
  refine .comp (t := s₁) ?_ <| .modStg fun _ => rfl
  split
  · exact .after (finishGated_keeps _ _ _ _) rfl <| .frame hwPutAt_keeps rfl
  · exact .frame hwPutAt_keeps rfl

theorem commitLinkLost_unapplied {src : Nat} {s : State} : Carries Unapplied s (commitLinkLost src s) := by
  unfold commitLinkLost
  split
  · exact .ite .refl commitEnds_unapplied
  · exact .refl

theorem stageBytes_unapplied {t off : Nat} {bytes : List Byte} {session : Nat} {s : State} :
    Carries Unapplied s (stageBytes t off bytes session s) := .modStg fun _ => rfl

theorem discardTables_unapplied {l : List (Fin 16)} {s : State} : Carries Unapplied s (discardTables l s) := .modStg fun _ => rfl

theorem execStageWrite_unapplied {o : Origin} {b : BlockStep} {s : State} : OutCarries Unapplied s (execStageWrite o b s) :=
  runBlock_unapplied fun _ _ _ _ => .after (finishRecorded_keeps _ _ _ _ _ _ _) rfl stageBytes_unapplied

theorem execStageLoad_unapplied {o : Origin} {s : State} : OutCarries Unapplied s (execStageLoad o s) :=
  .descriptor fun _ _ _ => .after (finishRecorded_keeps _ _ _ _ _ _ _) rfl <| .modStg fun _ => rfl

theorem execStageDiscard_unapplied {o : Origin} {s : State} : OutCarries Unapplied s (execStageDiscard o s) :=
  .descriptor fun _ _ _ => .after (finishRecorded_keeps _ _ _ _ _ _ _) rfl discardTables_unapplied

theorem stgDataWrite_unapplied {v : Nat} {s : State} : Carries Unapplied s (stgDataWrite v s) :=
  .comp (.ite (.modStg fun _ => rfl) <|
    .ite (.modStg fun _ => rfl) <| .comp (.modStg fun _ => rfl) <| .after hwPutAt_keeps rfl stageBytes_unapplied) <|
  .ite (.frame (touchSession_keeps _ _) rfl) .refl

theorem execStgDataWrite_unapplied {v : Word} {s : State} : OutCarries Unapplied s (execStgDataWrite v s) :=
  .next <| .whenOn fun _ => .comp stgDataWrite_unapplied <| .frame hostAccess_keeps rfl

theorem acceptCommit_unapplied {who : CommitWho} {session : Nat} {checkOnly : Bool} {tick : Nat} {s : State} :
    Carries Unapplied s (acceptCommit who session checkOnly tick s) := .modStg fun _ => rfl

theorem execCommitCheck_unapplied {o : Origin} {s : State} : OutCarries Unapplied s (execCommitCheck o s) :=
  .descriptor fun _ _ _ => acceptCommit_unapplied

theorem execCommit_unapplied {o : Origin} {s : State} : OutCarries Unapplied s (execCommit o s) :=
  .descriptor fun _ _ _ => acceptCommit_unapplied

theorem regCommit_unapplied {checkOnly : Bool} {s : State} : Carries Unapplied s (regCommit checkOnly s) :=
  .ite (.modStg fun _ => rfl) acceptCommit_unapplied

theorem regDiscard_unapplied {s : State} : Carries Unapplied s (regDiscard s) :=
  .ite .refl <| .after hwPutAt_keeps rfl discardTables_unapplied

theorem stgCtrlWrite_unapplied {v : Nat} {s : State} : Carries Unapplied s (stgCtrlWrite v s) :=
  .comp (.ite .refl <|
    .comp (.ite (.modStg fun _ => rfl) <| .comp (.ite regCommit_unapplied .refl) <| .ite regDiscard_unapplied .refl) <|
    .ite (.frame (touchSession_keeps _ _) rfl) .refl) <|
  .modStg fun _ => rfl

/-- A command that writes STG_CTRL, where its bit is set. -/
theorem stgCtrlCommand_unapplied {b : Bool} {v a n : Nat} {s : State} :
    OutCarries Unapplied s (.next (whenOn (onlyIf b fun s => stgCtrlWrite v (hostAccess a n s)) s)) :=
  .next <| .whenOn fun _ => .onlyIf fun _ => .comp stgCtrlWrite_unapplied <| .frame hostAccess_keeps rfl

theorem autoConfirm_unapplied {s : State} : Carries Unapplied s (autoConfirm s) :=
  .ite .refl <| .ite (.modStg fun _ => rfl) <| .frame confirmSet_keeps rfl

theorem execAutoCommit_unapplied {s : State} : OutCarries Unapplied s (execAutoCommit s) :=
  .next <| .whenOn fun _ => .comp (.onlyIf fun _ => .comp acceptCommit_unapplied <| .modStg fun _ => rfl) autoConfirm_unapplied

theorem setRun_unapplied {f : CommitRun → CommitRun} {s : State} : Carries Unapplied s (setRun f s) := .modStg fun _ => rfl

theorem execCheckAndPlacementComplete_unapplied {s : State} : OutCarries Unapplied s (execCheckAndPlacementComplete s) :=
  .next <|
  .whenOn fun _ => by
    split
    · exact .refl
    · refine .ite .refl ?_
      split
      · exact commitEnds_unapplied
      · exact .ite commitEnds_unapplied setRun_unapplied

theorem execNewSetHeld_unapplied {s : State} : OutCarries Unapplied s (execNewSetHeld s) :=
  .next <|
  .whenOn fun _ => by
    split
    · exact .refl
    · refine .ite .refl ?_
      split
      · exact commitEnds_unapplied
      · exact .comp setRun_unapplied <| .modStg fun _ => rfl

theorem commitDone_unapplied {c : CommitRun} {s : State} : Carries Unapplied s (commitDone c s) :=
  .comp commitEnds_unapplied <| .after leaveStart_keeps rfl <| .comp writeReport_unapplied <| .modStg fun _ => rfl

theorem commitMaybeDone_unapplied {s : State} : Carries Unapplied s (commitMaybeDone s) := by
  unfold commitMaybeDone
  split
  · exact .ite commitDone_unapplied .refl
  · exact .refl

theorem execMramMarkCommitted_unapplied {s : State} : OutCarries Unapplied s (execMramMarkCommitted s) :=
  .next <|
  .whenOn fun _ => by
    split
    · exact .refl
    · exact .ite .refl <| .comp commitMaybeDone_unapplied <| .comp setRun_unapplied <| .modStg fun _ => rfl

/-! ### Pairs (file 15) -/

theorem mapProgs_unapplied {f : Prog → Prog} {s : State} : Carries Unapplied s (mapProgs f s) := .modStg fun _ => rfl

theorem stopProgs_unapplied {f : Prog → Bool} {s : State} : Carries Unapplied s (stopProgs f s) :=
  .after endHandlers_keeps rfl <| .modStg fun _ => rfl

theorem stopPair_unapplied {k : Nat} {s : State} : Carries Unapplied s (stopPair k s) := stopProgs_unapplied

theorem restartPair_unapplied {k : Nat} {s : State} : Carries Unapplied s (restartPair k s) :=
  .comp (.ite .refl <| .frame coupleEng_keeps rfl) <|
  .after setEng_keeps rfl <| .after setEng_keeps rfl <| .after setPair_keeps rfl <| .modStg fun _ => rfl

theorem endHandover_unapplied {k : Nat} {h : HandOver} {status result : Nat} {s : State} :
    Carries Unapplied s (endHandover k h status result s) :=
  .comp commitMaybeDone_unapplied <|
  .comp (by
      split
      · exact .after (finishGated_keeps _ _ _ _) rfl <| .frame engRecord_keeps rfl
      · exact .frame engRecord_keeps rfl) <|
  .frame setPair_keeps rfl

theorem couple_unapplied {k : Nat} {s : State} : Carries Unapplied s (couple k s) :=
  .after setPhase_keeps rfl <|
  .comp rewriteReport_unapplied <|
  .after retarget_keeps rfl <| .after coupleEng_keeps rfl <| .after setPair_keeps rfl <| .comp mapProgs_unapplied <| .frame setEng_keeps rfl

theorem mergeFails_unapplied {k : Nat} {h : HandOver} {s : State} : Carries Unapplied s (mergeFails k h s) :=
  .comp endHandover_unapplied <|
  .after (raise_keeps _ _ _) rfl <| .after setPair_keeps rfl <| .after setEng_keeps rfl <| .frame setEng_keeps rfl

theorem execMergeSelftestDone_unapplied {k : Fin 8} {failed : List (Fin 203)} {s : State} :
    OutCarries Unapplied s (execMergeSelftestDone k failed s) :=
  .next <| by
    split
    · exact .ite (.ite (.after testEnds_keeps rfl couple_unapplied) <| .after testEnds_keeps rfl mergeFails_unapplied) .refl
    · exact .refl

/-! ### Safe states and faults (files 01 and 17) -/

theorem safeOne_unapplied {src : Nat} {o : OutId} {s : State} : Carries Unapplied s (safeOne src o s) := by
  unfold safeOne
  split
  · exact .frame lchSafe_keeps rfl
  · exact .frame hbSafe_keeps rfl
  · exact .frame vlvSafe_keeps rfl
  · exact .refl
  · exact .refl
  · exact .frame fioSafe_keeps rfl
  · exact .frame lfSafe_keeps rfl
  · exact .frame relSafe_keeps rfl
  · exact .frame segSafe_keeps rfl
  · exact stopPair_unapplied

theorem safeEntry_unapplied {outs : List OutId} {src : Nat} {s : State} : Carries Unapplied s (safeEntry outs src s) :=
  .foldl fun _ _ => safeOne_unapplied

theorem dieLost_unapplied {d : Die} {src : Nat} {s : State} : Carries Unapplied s (dieLost d src s) :=
  .comp (.ite (.after nsLinkLost_keeps rfl <| .frame swLinkLost_keeps rfl) .refl) safeEntry_unapplied

theorem enterC2_unapplied {src target : Nat} {s : State} : Carries Unapplied s (enterC2 src target s) :=
  .ite .refl <| .after faultState_keeps rfl <| .comp safeEntry_unapplied <| .frame (modFlt_keeps _ _) rfl

theorem enterC3_unapplied {src : Nat} {s : State} : Carries Unapplied s (enterC3 src s) :=
  .after faultState_keeps rfl <| .after hwPutAt_keeps rfl <| .comp safeEntry_unapplied <| .frame (modFlt_keeps _ _) rfl

theorem setSticky_unapplied {n : Fin 256} {target : Nat} {injected : Bool} {time : Nat} {tsRt : Bool} {more : List Report} {s : State} :
    Carries Unapplied s (setSticky n target injected time tsRt more s) :=
  .comp (.ite (.after powerAborted_keeps rfl <| .frame (modPw_keeps _ _) rfl) .refl) <|
  .comp (.ite enterC3_unapplied .refl) <| .comp (.ite enterC2_unapplied .refl) <| .after hwPutAt_keeps rfl <| .frame (modFlt_keeps _ _) rfl

theorem pairAgain_unapplied {n target : Nat} {s : State} : Carries Unapplied s (pairAgain n target s) := .ite enterC2_unapplied .refl

theorem collect_unapplied {n : Fin 256} {target : Nat} {injected : Bool} {time : Nat} {tsRt : Bool} {more : List Report} {s : State} :
    Carries Unapplied s (collect n target injected time tsRt more s) :=
  .comp (.ite (.frame conditionsLeft_keeps rfl) .refl) <|
  .comp (.ite (.comp (.ite .refl pairAgain_unapplied) <| .frame (modFlt_keeps _ _) rfl) setSticky_unapplied) <|
  .frame (modFlt_keeps _ _) rfl

theorem arrive_unapplied {n : Fin 256} {s : State} : Carries Unapplied s (arrive n s) := by
  unfold arrive
  split
  · exact .comp collect_unapplied <| .frame (modFlt_keeps _ _) rfl
  · exact .ite collect_unapplied .refl

theorem execFaultRaise_unapplied {srcs : List (Fin 256)} {s : State} : OutCarries Unapplied s (execFaultRaise srcs s) :=
  .next <| .whenOn fun _ => .foldl fun _ _ => arrive_unapplied

theorem execFaultReset_unapplied {o : Origin} {failed : List (Fin 203)} {s : State} : OutCarries Unapplied s (execFaultReset o failed s) :=
  .descriptor fun _ _ _ =>
    .ite (.after (finish_keeps _ _ _ _) rfl <| .frame (modFlt_keeps _ _) rfl) <|
    .ite (.after (finish_keeps _ _ _ _) rfl <| .frame pairTestFailed_keeps rfl) <|
    .after (finish_keeps _ _ _ _) rfl <|
    .comp (.ite restartPair_unapplied .refl) <| .after safeRelease_keeps rfl <| .frame leaveC2_keeps rfl

theorem execFaultInject_unapplied {o : Origin} {s : State} : OutCarries Unapplied s (execFaultInject o s) :=
  .descriptor fun _ _ _ => by
    split
    · exact .refl
    · exact .comp (.ite (.frame (finish_keeps _ _ _ _) rfl) <| .frame (finishGated_keeps _ _ _ _) rfl) collect_unapplied

theorem execRuntimeWatchdog_unapplied {s : State} : OutCarries Unapplied s (execRuntimeWatchdog s) :=
  .next <|
  .whenOn fun _ =>
    .onlyIf fun _ => .comp safeEntry_unapplied <| .after (modFlt_keeps _ _) rfl <| .after (raise_keeps _ _ _) rfl <| .frame (modFlt_keeps _ _) rfl

theorem safeDelivered_unapplied {d : Die} {s : State} : Carries Unapplied s (safeDelivered d s) :=
  .ite (.frame fsSafeEntries_keeps rfl) safeEntry_unapplied

theorem execSafeEntriesDelivered_unapplied {die : Die} {s : State} : OutCarries Unapplied s (execSafeEntriesDelivered die s) :=
  .next <| .onlyIf fun _ => .comp safeDelivered_unapplied <| .frame linksField_keeps rfl

theorem execLinkFailure_unapplied {die : Die} {s : State} : OutCarries Unapplied s (execLinkFailure die s) :=
  .next <|
  .whenOn fun _ =>
    .onlyIf fun _ =>
      .comp commitLinkLost_unapplied <| .comp dieLost_unapplied <| .after (raise_keeps _ _ _) rfl <| .frame linksField_keeps rfl

/-! ### Ends and starts of the digital die's run (files 01 and 18) -/

/-- Every volatile block is at its reset value, what is in force among them (R423, R442). -/
theorem dieOff_unapplied {park brownout : Bool} {s : State} : Carries Unapplied s (dieOff park brownout s) := by
  intro _
  cases brownout <;> rfl

theorem entryComplete_unapplied {s : State} : Carries Unapplied s (entryComplete s) :=
  .comp (.ite (.frame riseForWake_keeps rfl) .refl) <| .after (modPw_keeps _ _) rfl dieOff_unapplied

theorem execEntryComplete_unapplied {s : State} : OutCarries Unapplied s (execEntryComplete s) :=
  .next <| by
    split
    · split
      · exact .ite entryComplete_unapplied .refl
      · exact .refl
    · exact .refl

theorem dropDamaged_unapplied {found : StartFindings} {s : State} : Carries Unapplied s (dropDamaged found s) :=
  .after modLd_keeps rfl <| .ite .refl <| .modStg fun _ => rfl

theorem digitalDieStart_unapplied {found : StartFindings} {s : State} : Carries Unapplied s (digitalDieStart found s) := by
  cases h : found.xtalRuns
  · exact .frame (digitalDieStart_keeps_of_noXtal h) rfl
  · unfold digitalDieStart
    rw [if_neg (by simp [h])]
    exact .after bootChecks_keeps rfl <|
      .comp (.foldl fun _ _ => .frame pairSelfTestFailed_keeps rfl) <|
      .after asStart_keeps rfl <|
      .after discoverXspi_keeps rfl <|
      .after closeSessions_keeps rfl <|
      .after startRecord_keeps rfl <|
      .after heartwoodScan_keeps rfl <|
      .after requestVcore_keeps rfl <| .after (modPw_keeps _ _) rfl <| .after (modFlt_keeps _ _) rfl <| .after setTime_keeps rfl dropDamaged_unapplied

theorem execDigitalDieStart_unapplied {found : StartFindings} {s : State} : OutCarries Unapplied s (execDigitalDieStart found s) :=
  .next <| .onlyIf fun _ => digitalDieStart_unapplied

theorem execRootIslandSupplyLoss_unapplied {s : State} : OutCarries Unapplied s (execRootIslandSupplyLoss s) :=
  .next <| .onlyIf fun _ => .after supplyLossFields_keeps rfl <| .after familySupplyLoss_keeps rfl <| .after fsField_keeps rfl dieOff_unapplied

theorem deviceReset_unapplied {cause : Nat} {s : State} {brownout : Bool} : Carries Unapplied s (deviceReset cause s brownout) :=
  .after (modPw_keeps _ _) rfl <| .comp dieOff_unapplied <| .frame (modFlt_keeps _ _) rfl

theorem execDeviceReset_unapplied {r : ResetSource} {s : State} : OutCarries Unapplied s (execDeviceReset r s) :=
  .next <| by
    split
    · exact .whenOn fun _ => deviceReset_unapplied
    · split
      · exact .ite (.comp deviceReset_unapplied <| .frame (modHw_keeps _ _) rfl) .refl
      · exact .refl
    · split
      · exact .ite deviceReset_unapplied .refl
      · exact .refl
    · split
      · exact .ite (.comp deviceReset_unapplied <| .frame unnamed_keeps rfl) .refl
      · exact .refl

theorem execVcoreBrownout_unapplied {s : State} : OutCarries Unapplied s (execVcoreBrownout s) :=
  .next <|
  .whenOn fun _ =>
    .after (raise_keeps _ _ _) rfl <|
    .comp deviceReset_unapplied <|
    .after (modFlt_keeps _ _) rfl <| .comp safeEntry_unapplied <| .after (modFlt_keeps _ _) rfl <| .frame (modPw_keeps _ _) rfl

/-! ### Register writes and stores (files 02 and 14) -/

theorem stgWrite_unapplied {off v : Nat} {s : State} : Carries Unapplied s (stgWrite off v s) := by
  unfold stgWrite
  split
  · exact stgCtrlWrite_unapplied
  · exact .modStg fun _ => rfl
  · exact stgDataWrite_unapplied
  · exact .modStg fun _ => rfl
  · exact .refl

theorem regWrite_unapplied {a v : Nat} {s : State} : Carries Unapplied s (regWrite a v s) :=
  .ite .refl <| by
    dsimp only
    split
    · split
      · exact .frame doorbellWrite_keeps rfl
      · exact .refl
    · split
      · exact .frame ringWordWrite_keeps rfl
      · exact .refl
    · exact .frame msixWrite_keeps rfl
    · exact .ite stgWrite_unapplied <| .ite (.frame hostWrite_keeps rfl) <|
        .ite (.frame powerWrite_keeps rfl) <| .ite (.frame (modUpd_keeps _ _) rfl) .refl

theorem writeWords_unapplied : ∀ (a : Nat) (l : List (Word × BitVec 4)) (s : State), Carries Unapplied s (writeWords a l s)
  | _, [], _ => .refl
  | a, (_, _) :: l, _ => .comp (writeWords_unapplied (a + 4) l _) <|
    .ite (.comp regWrite_unapplied <| .frame hostAccess_keeps rfl) <| .frame badWrite_keeps rfl

theorem execRegisterWrite_unapplied {p : HostPlace} {v : List Word} {be : List (BitVec 4)} {s : State} :
    OutCarries Unapplied s (execRegisterWrite p v be s) :=
  .next <|
  .whenOn fun _ => by
    split
    · exact .ite (.frame badWrite_keeps rfl) <| writeWords_unapplied _ _ _
    · split
      · exact .frame cfgWrite_keeps rfl
      · exact .refl

theorem commitStore_unapplied {e a n v wait : Nat} {s : State} : Carries Unapplied s (commitStore e a n v wait s) := by
  unfold commitStore
  split
  · exact .after (fabCount_keeps _ _ _ _ _ _ _) rfl <| .frame (sramWrite_keeps _ _) rfl
  · exact .comp (.ite (.frame (modHw_keeps _ _) rfl) .refl) <| .frame (fabCount_keeps _ _ _ _ _ _ _) rfl
  · exact .comp (.ite regWrite_unapplied .refl) <| .frame (fabCount_keeps _ _ _ _ _ _ _) rfl
  · exact .after windowStore_keeps rfl <| .frame (fabCount_keeps _ _ _ _ _ _ _) rfl
  · exact .refl

theorem drainOne_unapplied {e : Nat} {s : State} : Carries Unapplied s (drainOne e s) := by
  unfold drainOne
  split
  · exact .refl
  · exact .comp commitStore_unapplied <| .frame engField_keeps rfl

theorem drainBuf_unapplied (e : Nat) : ∀ (n : Nat) (s : State), Carries Unapplied s (drainBuf e n s)
  | 0, _ => .refl
  | n + 1, _ => .comp (drainBuf_unapplied e n _) drainOne_unapplied

theorem drained_unapplied {e : Nat} {s : State} : Carries Unapplied s (drained e s) := drainBuf_unapplied _ _ _

theorem leaveStore_unapplied {e a n v wait : Nat} {s : State} : Carries Unapplied s (leaveStore e a n v wait s) := by
  unfold leaveStore
  split
  · exact commitStore_unapplied
  · exact commitStore_unapplied
  · exact .after engField_keeps rfl <| .ite drainOne_unapplied .refl

theorem releaseItem_unapplied {k : Nat} {s : State} : Carries Unapplied s (releaseItem k s) := by
  unfold releaseItem
  split
  · exact .refl
  · exact .comp (by
        dsimp only
        split
        · exact leaveStore_unapplied
        · split
          · exact .frame pushDesc_keeps rfl
          · exact .refl) <|
      .frame setPair_keeps rfl

theorem releaseItems_unapplied (k : Nat) : ∀ (n : Nat) (s : State), Carries Unapplied s (releaseItems k n s)
  | 0, _ => .refl
  | n + 1, _ => .comp (releaseItems_unapplied k n _) releaseItem_unapplied

theorem shadowStep_unapplied {k : Nat} {s : State} : Carries Unapplied s (shadowStep k s) := by
  unfold shadowStep
  split
  · exact .refl
  · exact .comp (releaseItems_unapplied _ _ _) <|
      .comp (by
        split
        · exact .frame runCycles_keeps rfl
        · exact .refl) <|
      .after setEng_keeps rfl <| .frame setPair_keeps rfl

theorem shadowSteps_unapplied (k : Nat) : ∀ (n : Nat) (s : State), Carries Unapplied s (shadowSteps k n s)
  | 0, _ => .refl
  | n + 1, _ => .comp (shadowSteps_unapplied k n _) shadowStep_unapplied

theorem catchUp_unapplied {k : Nat} {s : State} : Carries Unapplied s (catchUp k s) := shadowSteps_unapplied _ _ _

theorem runShadow_unapplied (k : Nat) : ∀ (n : Nat) (s : State), Carries Unapplied s (runShadow k n s)
  | 0, _ => .refl
  | n + 1, _ => .ite (.comp (runShadow_unapplied k n _) shadowStep_unapplied) .refl

theorem holdItem_unapplied {k : Nat} {i : HeldItem} {s : State} : Carries Unapplied s (holdItem k i s) :=
  .after setPair_keeps rfl <| .comp (.ite .refl releaseItem_unapplied) <| .ite .refl catchUp_unapplied

theorem pushTrail_unapplied {k stall shadowStall : Nat} {t : TrailEntry} {s : State} :
    Carries Unapplied s (pushTrail k stall shadowStall t s) :=
  .comp (runShadow_unapplied _ _ _) <| .after setPair_keeps rfl <| .ite catchUp_unapplied .refl

theorem settled_unapplied {e : Nat} {s : State} : Carries Unapplied s (settled e s) :=
  .comp drained_unapplied <| .ite catchUp_unapplied .refl

theorem execPairMismatch_unapplied {k : Fin 8} {lane : Fin 4} {bit : Fin 128} {s : State} :
    OutCarries Unapplied s (execPairMismatch k lane bit s) :=
  .next <|
  .onlyIf fun _ =>
    .comp (by
        dsimp only
        split
        · exact endHandover_unapplied
        · exact .refl) <|
    .after (raise_keeps _ _ _) rfl <|
    .after stillEng_keeps rfl <|
    .after stillEng_keeps rfl <|
    .comp stopPair_unapplied <| .after setPair_keeps rfl <| .after engRecord_keeps rfl <| shadowSteps_unapplied _ _ _

/-! ### Computations of an instruction (file 14) -/

/-- A read through the fabric: what waits is settled and the access counted, before the area itself is read (R340, R489). -/
theorem fabricRead_unapplied {α : Type} {e : Nat} {p : Port} {m a n w : Nat} {ecc : Bool} {k : EngM α} (h : EngCarries Unapplied k) :
    EngCarries Unapplied (modCx (settled e) >>= fun _ => modCx (fabCount p m a n w ecc) >>= fun _ => k) :=
  .bind (.modCx fun _ => settled_unapplied) fun _ => .bind (.modCx fun _ => .frame (fabCount_keeps _ _ _ _ _ _ _) rfl) fun _ => h

theorem readArea_unapplied {x : Issue} {ar : Area} {a n : Nat} : EngCarries Unapplied (readArea x ar a n) := by
  unfold readArea
  split
  · exact .bind .get fun _ => .pure
  · exact fabricRead_unapplied <| .bind .get fun _ => .pure
  · exact fabricRead_unapplied <| .bind .get fun _ => .pure
  · exact fabricRead_unapplied <| .getSet (fun _ => .frame regRead_keeps rfl) fun _ => .pure
  · exact fabricRead_unapplied <| .frame windowLoad_keeps rfl

theorem memLoad_unapplied {x : Issue} {a n : Nat} : EngCarries Unapplied (memLoad x a n) :=
  .bind .get fun _ => by
    split
    · exact .stops
    · exact .stops
    · exact .ite .stops <| .bind readArea_unapplied fun _ => .bind (.frame addCost_keeps rfl) fun _ => .pure

theorem writeArea_unapplied {x : Issue} {ar : Area} {a n v : Nat} : EngCarries Unapplied (writeArea x ar a n v) := by
  unfold writeArea
  split
  · exact .frame modEng_keeps rfl
  · exact .modCx fun _ => .ite holdItem_unapplied leaveStore_unapplied

theorem memStore_unapplied {x : Issue} {a n v : Nat} : EngCarries Unapplied (memStore x a n v) :=
  .bind .get fun _ => by
    split
    · exact .stops
    · exact .stops
    · exact .bind (.frame addCost_keeps rfl) fun _ => writeArea_unapplied

theorem storeWords_unapplied (x : Issue) : ∀ (a : Nat) (l : List Word), EngCarries Unapplied (storeWords x a l)
  | _, [] => .pure
  | a, _ :: ws => .bind memStore_unapplied fun _ => storeWords_unapplied x (a + 4) ws

theorem loadWords_unapplied (x : Issue) : ∀ (a n : Nat), EngCarries Unapplied (loadWords x a n)
  | _, 0 => .pure
  | a, n + 1 => .bind memLoad_unapplied fun _ => .bind (loadWords_unapplied x (a + 4) n) fun _ => .pure

theorem atomic_unapplied {x : Issue} {a : Nat} {new : Nat → Option Word} : EngCarries Unapplied (atomic x a new) :=
  .bind .get fun _ => by
    split
    · exact .stops
    · refine .bind memLoad_unapplied fun _ => .ite (.bind (.frame noteInput_keeps rfl) fun _ => ?_) ?_
      all_goals
        split
        · exact .pure
        · split
          · exact .bind (.frame noteItem_keeps rfl) fun _ => .bind (.frame modEng_keeps rfl) fun _ => .pure
          · exact .bind (.frame noteItem_keeps rfl) fun _ => .bind (.modCx fun _ => commitStore_unapplied) fun _ => .pure
          · exact .pure

theorem earlierDone_unapplied {x : Issue} : EngCarries Unapplied (earlierDone x) :=
  .bind (.modCx fun _ => settled_unapplied) fun _ => .bind .get fun _ => .ite .stops .pure

theorem callTo_unapplied {x : Issue} {words : Nat} {mask : BitVec 11} {t : Word} : EngCarries Unapplied (callTo x words mask t) :=
  .ite .stops <|
  .bind (.frame getEng_keeps rfl) fun _ =>
  .bind (.frame addCost_keeps rfl) fun _ => .bind (.frame lowerSp_keeps rfl) fun _ => .bind (storeWords_unapplied _ _ _) fun _ => .pure

theorem storeFrame_unapplied {x : Issue} {pc : Word} : EngCarries Unapplied (storeFrame x pc) :=
  .bind (.frame getEng_keeps rfl) fun _ => .ite .stops <| .bind (.frame modEng_keeps rfl) fun _ => storeWords_unapplied _ _ _

theorem pickInt_unapplied (x : Issue) (ivec : Nat) : ∀ (l : List Nat) (best : Option (Nat × Nat × Word)) (ipl : Nat),
    EngCarries Unapplied (pickInt x ivec l best ipl)
  | [], _, _ => .pure
  | _ :: ns, _, _ => .bind (loadWords_unapplied _ _ _) fun _ => .ite (pickInt_unapplied x ivec ns _ _) <| pickInt_unapplied x ivec ns _ _

theorem enterInt_unapplied {x : Issue} {pc : Word} : EngCarries Unapplied (enterInt x pc) :=
  .bind .get fun _ =>
  .bind (.frame modEng_keeps rfl) fun _ =>
  .bind (pickInt_unapplied _ _ _ _ _) fun _ => by
    split
    · exact .pure
    · exact .bind (.frame modEng_keeps rfl) fun _ => .bind storeFrame_unapplied fun _ => .bind (.frame modEng_keeps rfl) fun _ => .pure

/-! ### Traps, completions and interrupts of an instruction (file 14) -/

theorem followed_unapplied {e : Fin 16} {check : Bool} {x : Issue} {charge : List Cycles} {items : List (Nat × Nat)} {samples : List Nat} {g : Eng}
    {s : State} : Carries Unapplied s (followed e check x charge items samples g s) :=
  .ite .refl <| .comp pushTrail_unapplied <| .ite (.frame setPair_keeps rfl) .refl

theorem taskTrap_unapplied {e : Nat} {h : Option Handler} {cause : Nat} {pc : Word} {s : State} :
    Carries Unapplied s (taskTrap e h cause pc s) :=
  .comp (by
      unfold taskTrap
      dsimp only
      split
      · exact stopProgs_unapplied
      · exact .refl) <|
  .after engRecord_keeps rfl <| .frame (raise_keeps _ _ _) rfl

theorem takeTrap_unapplied {x : Issue} {cause code : Nat} {addr : Option Nat} {pc : Word} {spent : Occur → Bool → List Cycles} {s : State} :
    Carries Unapplied s (takeTrap x cause code addr pc spent s) := by
  unfold takeTrap
  dsimp only
  refine .comp (t := nameSamples x.engine.val pc.toNat true
    (runCycles x.engine true (spent (occurOf (eng s x.engine.val) pc) true) (dropAsked x.engine.val 0 s))) ?_ <|
    .after nameSamples_keeps rfl <| .after runCycles_keeps rfl <| .frame dropAsked_keeps rfl
  split
  · exact .comp followed_unapplied <| .frame doubleTrap_keeps rfl
  · next c h =>
    exact .comp followed_unapplied <|
      .comp (.ite taskTrap_unapplied .refl) <| .after runCycles_keeps rfl <| .after setEng_keeps rfl <| storeFrame_unapplied _ _ c h

theorem complete_unapplied {x : Issue} {k : Kind} {a : After} {before : Eng} {cost : Cost} {s : State} :
    Carries Unapplied s (complete x k a before cost s) :=
  .comp followed_unapplied <|
  .after chargeStall_keeps rfl <|
  .after chargeHandler_keeps rfl <| .after runCycles_keeps rfl <| .after nameSamples_keeps rfl <| .after setAsked_keeps rfl <| .frame setEng_keeps rfl

theorem runInstr_unapplied {x : Issue} {k : Kind} {body : EngM After} {s : State} (h : EngCarries Unapplied body) :
    Carries Unapplied s (runInstr x k body s) := by
  unfold runInstr
  dsimp only
  split
  · exact takeTrap_unapplied
  · refine .ite .refl <| .ite (.comp takeTrap_unapplied <| .frame setEng_keeps rfl) ?_
    split
    · exact .refl
    · exact .frame askHost_keeps rfl
    · exact .comp takeTrap_unapplied <| .after setEng_keeps rfl <| .frame fillPorts_keeps rfl
    · next c e => exact .comp (.comp complete_unapplied <| .frame fillPorts_keeps rfl) (h _ _ c e)

theorem instrOut_unapplied {x : Issue} {k : Kind} {body : EngM After} {s : State} (h : EngCarries Unapplied body) :
    OutCarries Unapplied s (instrOut x k body s) := .next <| .onlyIf fun _ => runInstr_unapplied h

theorem execInterruptEntry_unapplied {x : Issue} {s : State} : OutCarries Unapplied s (execInterruptEntry x s) := by
  refine .next <| .onlyIf fun s => ?_
  dsimp only
  split
  · exact .refl
  · exact .frame awaitTable_keeps rfl
  · exact .comp followed_unapplied <| .after doubleTrap_keeps rfl <| .frame dropAsked_keeps rfl
  · exact .after setEng_keeps rfl <| .frame dropAsked_keeps rfl
  · next c h =>
    exact .comp followed_unapplied <|
      .after runCycles_keeps rfl <| .after nameSamples_keeps rfl <| .after setAsked_keeps rfl <|
      .after unnamed_keeps rfl <| enterInt_unapplied _ _ c h

theorem execHandlerCycleBudgetExceeded_unapplied {x : Issue} {s : State} : OutCarries Unapplied s (execHandlerCycleBudgetExceeded x s) :=
  .next <| .onlyIf fun _ => takeTrap_unapplied

/-! ### The instructions (file 14) -/

theorem binOp_unapplied {fn : Nat} {x : Issue} {d r t : RegCode} {f : Bool → Word → Word → Alu} {s : State} :
    OutCarries Unapplied s (binOp fn x d r t f s) :=
  instrOut_unapplied <| .bind (.frame getEng_keeps rfl) fun _ => .frame putAlu_keeps rfl

theorem unOp_unapplied {w : Word} {x : Issue} {d r : RegCode} {f : Word → Alu} {s : State} : OutCarries Unapplied s (unOp w x d r f s) :=
  instrOut_unapplied <| .bind (.frame getEng_keeps rfl) fun _ => .frame putAlu_keeps rfl

theorem mulOp_unapplied {fn n : Nat} {x : Issue} {d r t : RegCode} {f : Word → Word → Alu} {s : State} :
    OutCarries Unapplied s (mulOp fn n x d r t f s) :=
  instrOut_unapplied <| .bind (.frame addCost_keeps rfl) fun _ => .bind (.frame getEng_keeps rfl) fun _ => .frame putAlu_keeps rfl

theorem execLdl_unapplied {x : Issue} {d : RegCode} {ext : Word} {s : State} : OutCarries Unapplied s (execLdl x d ext s) :=
  instrOut_unapplied <| .bind (.frame addCost_keeps rfl) fun _ => .frame putAlu_keeps rfl

theorem execCmp_unapplied {x : Issue} {d r t : RegCode} {c : Cond} {s : State} : OutCarries Unapplied s (execCmp x d r t c s) :=
  instrOut_unapplied <| .ite (.bind (.frame getEng_keeps rfl) fun _ => .frame putAlu_keeps rfl) .stops

theorem execCmpi_unapplied {x : Issue} {d r : RegCode} {c : Cond} {imm : BitVec 15} {s : State} :
    OutCarries Unapplied s (execCmpi x d r c imm s) :=
  instrOut_unapplied <| .ite (.bind (.frame getEng_keeps rfl) fun _ => .frame putAlu_keeps rfl) .stops

theorem execLd_unapplied {x : Issue} {d b : RegCode} {m : Amode} {sz : Size} {sx : Bool} {s : State} :
    OutCarries Unapplied s (execLd x d b m sz sx s) :=
  instrOut_unapplied <|
    .ite .stops <|
    .bind (.frame getEng_keeps rfl) fun _ =>
    .bind (.frame address_keeps rfl) fun _ =>
    .bind memLoad_unapplied fun _ => .bind (.frame updateBase_keeps rfl) fun _ => .bind (.frame putReg_keeps rfl) fun _ => .pure

theorem execSt_unapplied {x : Issue} {d b : RegCode} {m : Amode} {sz : Size} {s : State} : OutCarries Unapplied s (execSt x d b m sz s) :=
  instrOut_unapplied <|
    .bind (.frame getEng_keeps rfl) fun _ =>
    .bind (.frame address_keeps rfl) fun _ => .bind memStore_unapplied fun _ => .bind (.frame updateBase_keeps rfl) fun _ => .pure

theorem execLea_unapplied {x : Issue} {d b : RegCode} {m : Amode} {s : State} : OutCarries Unapplied s (execLea x d b m s) :=
  instrOut_unapplied <| .ite .stops <| .bind (.frame address_keeps rfl) fun _ => .bind (.frame putReg_keeps rfl) fun _ => .pure

theorem execPushm_unapplied {x : Issue} {mask : BitVec 11} {s : State} : OutCarries Unapplied s (execPushm x mask s) :=
  instrOut_unapplied <|
    .bind (.frame addCost_keeps rfl) fun _ =>
    .bind (.frame getEng_keeps rfl) fun _ => .bind (.frame lowerSp_keeps rfl) fun _ => .bind (storeWords_unapplied _ _ _) fun _ => .pure

theorem execPopm_unapplied {x : Issue} {mask : BitVec 11} {s : State} : OutCarries Unapplied s (execPopm x mask s) :=
  instrOut_unapplied <|
    .bind (.frame addCost_keeps rfl) fun _ =>
    .bind (.frame getEng_keeps rfl) fun _ =>
    .bind (loadWords_unapplied _ _ _) fun _ => .bind (.frame (putWords_keeps _ _ _) rfl) fun _ => .bind (.frame putReg_keeps rfl) fun _ => .pure

theorem execMovs_unapplied {x : Issue} {d b : RegCode} {sz : Size} {s : State} : OutCarries Unapplied s (execMovs x d b sz s) :=
  instrOut_unapplied <|
    .ite .stops <|
    .bind (.frame getEng_keeps rfl) fun _ =>
    .ite .stops <|
    .bind memLoad_unapplied fun _ =>
    .bind memStore_unapplied fun _ =>
    .ite (.getSet (fun _ => .frame unnamed_keeps rfl) fun _ => .bind (.frame noteItem_keeps rfl) fun _ => .bind (.frame modEng_keeps rfl) fun _ =>
        .bind (.frame addCost_keeps rfl) fun _ => .pure) <|
    .bind (.frame updateBase_keeps rfl) fun _ => .bind (.frame updateBase_keeps rfl) fun _ => .bind (.frame addCost_keeps rfl) fun _ => .pure

theorem execXchg_unapplied {x : Issue} {d b : RegCode} {disp : BitVec 12} {s : State} : OutCarries Unapplied s (execXchg x d b disp s) :=
  instrOut_unapplied <|
    .bind (.frame getEng_keeps rfl) fun _ =>
    .bind (.frame addCost_keeps rfl) fun _ => .bind atomic_unapplied fun _ => .bind (.frame putReg_keeps rfl) fun _ => .pure

theorem execCas_unapplied {x : Issue} {d r t : RegCode} {s : State} : OutCarries Unapplied s (execCas x d r t s) :=
  instrOut_unapplied <|
    .bind .get fun _ =>
    .ite .stops <| .bind (.frame addCost_keeps rfl) fun _ => .bind atomic_unapplied fun _ => .bind (.frame putReg_keeps rfl) fun _ => .pure

theorem execFence_unapplied {x : Issue} {s : State} : OutCarries Unapplied s (execFence x s) :=
  instrOut_unapplied <| .bind earlierDone_unapplied fun _ => .bind (.modCx fun _ => .frame fenceLines_keeps rfl) fun _ => .pure

theorem execSend_unapplied {x : Issue} {d r : RegCode} {s : State} : OutCarries Unapplied s (execSend x d r s) :=
  instrOut_unapplied <|
    .ite .stops <|
    .bind (.frame getEng_keeps rfl) fun _ =>
    .bind (.frame addCost_keeps rfl) fun _ =>
    .bind (.frame descPlace_keeps rfl) fun _ =>
    .bind (loadWords_unapplied _ _ _) fun _ =>
    .bind .get fun _ =>
    .ite (.bind (.frame addCost_keeps rfl) fun _ => .bind (.frame putReg_keeps rfl) fun _ => .pure) <|
    .bind earlierDone_unapplied fun _ =>
    .bind (.modCx fun _ => .ite holdItem_unapplied <| .frame pushDesc_keeps rfl) fun _ =>
    .bind (.frame addCost_keeps rfl) fun _ => .bind (.frame putReg_keeps rfl) fun _ => .pure

theorem execRecv_unapplied {x : Issue} {d r : RegCode} {s : State} : OutCarries Unapplied s (execRecv x d r s) :=
  instrOut_unapplied <|
    .ite .stops <|
    .bind (.frame getEng_keeps rfl) fun _ =>
    .bind (.frame addCost_keeps rfl) fun _ =>
    .bind (.frame descPlace_keeps rfl) fun _ => by
      split
      · exact .bind (.frame putReg_keeps rfl) fun _ => .pure
      · exact .bind (.frame noteInput_keeps rfl) fun _ =>
          .bind (storeWords_unapplied _ _ _) fun _ => .bind (.frame modEng_keeps rfl) fun _ => .bind (.frame putReg_keeps rfl) fun _ => .pure

theorem execWait_unapplied {x : Issue} {s : State} : OutCarries Unapplied s (execWait x s) :=
  instrOut_unapplied <| .bind (.frame getEng_keeps rfl) fun _ => .ite .stops <| .bind (.frame modEng_keeps rfl) fun _ => .pure

theorem execYield_unapplied {x : Issue} {s : State} : OutCarries Unapplied s (execYield x s) :=
  instrOut_unapplied <|
    .bind (.frame getEng_keeps rfl) fun _ =>
    .ite .pure <| .getSet (fun _ => .after setEng_keeps rfl <| .frame unnamed_keeps rfl) fun _ => .pure

theorem execMfs_unapplied {x : Issue} {d : RegCode} {n : BitVec 8} {s : State} : OutCarries Unapplied s (execMfs x d n s) := by
  have puts {v : Word} : EngCarries Unapplied (putReg x.engine d v >>= fun _ => (pure .next : EngM After)) :=
    .bind (.frame putReg_keeps rfl) fun _ => .pure
  exact instrOut_unapplied <|
    .bind .get fun _ =>
    .ite .stops <|
    .ite .stops <|
    .bind (.frame addCost_keeps rfl) fun _ =>
    .ite (.bind (.frame modEng_keeps rfl) fun _ => .ite (.bind (.frame noteInput_keeps rfl) fun _ => puts) puts) <|
    .ite (.bind (.frame noteInput_keeps rfl) fun _ => puts) puts

theorem execMts_unapplied {x : Issue} {r : RegCode} {n : BitVec 8} {s : State} : OutCarries Unapplied s (execMts x r n s) :=
  instrOut_unapplied <|
    .bind (.frame getEng_keeps rfl) fun _ =>
    .ite .stops <| .ite .stops <| .bind (.frame addCost_keeps rfl) fun _ => .bind (.frame modEng_keeps rfl) fun _ => .pure

theorem execReti_unapplied {x : Issue} {s : State} : OutCarries Unapplied s (execReti x s) :=
  instrOut_unapplied <|
    .bind (.frame getEng_keeps rfl) fun _ =>
    .ite .stops <|
    .bind (loadWords_unapplied _ _ _) fun _ =>
    .ite .stops <| .bind (.frame addCost_keeps rfl) fun _ => .bind (.frame modEng_keeps rfl) fun _ => .pure

theorem execIllegalInstruction_unapplied {x : Issue} {w : Word} {s : State} : OutCarries Unapplied s (execIllegalInstruction x w s) :=
  .ite (.next .refl) <| instrOut_unapplied .stops

theorem execBr_unapplied {x : Issue} {off : BitVec 22} {s : State} : OutCarries Unapplied s (execBr x off s) :=
  instrOut_unapplied <| .bind (.frame getEng_keeps rfl) fun _ => .frame jumpTo_keeps rfl

theorem execJr_unapplied {x : Issue} {r : RegCode} {s : State} : OutCarries Unapplied s (execJr x r s) :=
  instrOut_unapplied <| .bind (.frame getEng_keeps rfl) fun _ => .frame jumpTo_keeps rfl

theorem condBranch_unapplied {x : Issue} {c : RegCode} {off : BitVec 22} {zero : Bool} {s : State} :
    OutCarries Unapplied s (condBranch x c off zero s) :=
  instrOut_unapplied <| .ite (.bind (.frame getEng_keeps rfl) fun _ => .ite (.frame jumpTo_keeps rfl) .pure) .stops

theorem execCall_unapplied {x : Issue} {mask : BitVec 11} {off : BitVec 15} {s : State} : OutCarries Unapplied s (execCall x mask off s) :=
  instrOut_unapplied <| .bind (.frame getEng_keeps rfl) fun _ => callTo_unapplied

theorem execCallr_unapplied {x : Issue} {mask : BitVec 11} {r : RegCode} {s : State} : OutCarries Unapplied s (execCallr x mask r s) :=
  instrOut_unapplied <| .bind (.frame getEng_keeps rfl) fun _ => callTo_unapplied

theorem execRet_unapplied {x : Issue} {s : State} : OutCarries Unapplied s (execRet x s) :=
  instrOut_unapplied <|
    .bind (.frame getEng_keeps rfl) fun _ =>
    .bind (loadWords_unapplied _ _ _) fun _ =>
    .ite .stops <|
    .ite .stops <|
    .bind (.frame addCost_keeps rfl) fun _ =>
    .bind (loadWords_unapplied _ _ _) fun _ =>
    .bind (.frame putFrame_keeps rfl) fun _ => .bind (.frame modEng_keeps rfl) fun _ => .bind (.frame putReg_keeps rfl) fun _ => .pure

theorem execLoop_unapplied {x : Issue} {r : RegCode} {last : BitVec 14} {s : State} : OutCarries Unapplied s (execLoop x r last s) :=
  instrOut_unapplied <| .bind (.frame getEng_keeps rfl) fun _ => .frame openLoop_keeps rfl

theorem execLeave_unapplied {x : Issue} {s : State} : OutCarries Unapplied s (execLeave x s) :=
  instrOut_unapplied <|
    .bind (.frame getEng_keeps rfl) fun _ =>
    .bind (.frame addCost_keeps rfl) fun _ => by
      split
      · exact .stops
      · exact .bind (.frame modEng_keeps rfl) fun _ => .pure

theorem execRep_unapplied {x : Issue} {r : RegCode} {ni : Bool} {s : State} : OutCarries Unapplied s (execRep x r ni s) := by
  have sets {f : Eng → Eng} {a : After} : EngCarries Unapplied (modEng x.engine f >>= fun _ => pure a) :=
    .bind (.frame modEng_keeps rfl) fun _ => .pure
  refine instrOut_unapplied <| .bind (.frame getEng_keeps rfl) fun _ => ?_
  split
  · exact .ite .pure .stops
  · exact .ite (.ite sets sets) <| .ite .stops <| .ite sets sets

/-! ### Every command but the commit's tick -/

/-- No command but COMMIT_TICK puts a set in force: those that work on the staging area by the lemmas above, the others of their
families by their own frames, and every other family by its parts. -/
theorem exec_unapplied {c : Instr} {s : State} (hc : c ≠ .commitTick) : OutCarries Unapplied s (exec c s) := by
  cases c
  case commitTick => exact absurd rfl hc
  -- Staging and commit.
  case stgCtrlCommit | stgCtrlCheck | stgCtrlDiscard => exact stgCtrlCommand_unapplied
  case autoCommit => exact execAutoCommit_unapplied
  case stageWrite => exact execStageWrite_unapplied
  case stageLoad => exact execStageLoad_unapplied
  case stageDiscard => exact execStageDiscard_unapplied
  case stgDataWrite => exact execStgDataWrite_unapplied
  case commitCheck => exact execCommitCheck_unapplied
  case commit => exact execCommit_unapplied
  case checkAndPlacementComplete => exact execCheckAndPlacementComplete_unapplied
  case newSetHeld => exact execNewSetHeld_unapplied
  case mramMarkCommitted => exact execMramMarkCommitted_unapplied
  -- Pairs, faults, safe states.
  case pairMismatch => exact execPairMismatch_unapplied
  case mergeSelftestDone => exact execMergeSelftestDone_unapplied
  case faultReset => exact execFaultReset_unapplied
  case faultInject => exact execFaultInject_unapplied
  case faultRaise => exact execFaultRaise_unapplied
  case runtimeWatchdog => exact execRuntimeWatchdog_unapplied
  case safeEntriesDelivered => exact execSafeEntriesDelivered_unapplied
  case linkFailure => exact execLinkFailure_unapplied
  -- Ends and starts of the digital die's run.
  case entryComplete => exact execEntryComplete_unapplied
  case digitalDieStart => exact execDigitalDieStart_unapplied
  case deviceReset => exact execDeviceReset_unapplied
  case vcoreBrownout => exact execVcoreBrownout_unapplied
  case rootIslandSupplyLoss => exact execRootIslandSupplyLoss_unapplied
  -- Register writes, and what an engine does.
  case registerWrite => exact execRegisterWrite_unapplied
  case interruptEntry => exact execInterruptEntry_unapplied
  case handlerCycleBudgetExceeded => exact execHandlerCycleBudgetExceeded_unapplied
  case ldl => exact execLdl_unapplied
  case cmp => exact execCmp_unapplied
  case cmpi => exact execCmpi_unapplied
  case ld => exact execLd_unapplied
  case st => exact execSt_unapplied
  case lea => exact execLea_unapplied
  case pushm => exact execPushm_unapplied
  case popm => exact execPopm_unapplied
  case movs => exact execMovs_unapplied
  case xchg => exact execXchg_unapplied
  case cas => exact execCas_unapplied
  case br => exact execBr_unapplied
  case jr => exact execJr_unapplied
  case call => exact execCall_unapplied
  case callr => exact execCallr_unapplied
  case ret => exact execRet_unapplied
  case loop => exact execLoop_unapplied
  case leave => exact execLeave_unapplied
  case rep => exact execRep_unapplied
  case fence => exact execFence_unapplied
  case send => exact execSend_unapplied
  case recv => exact execRecv_unapplied
  case wait => exact execWait_unapplied
  case yield => exact execYield_unapplied
  case mfs => exact execMfs_unapplied
  case mts => exact execMts_unapplied
  case reti => exact execReti_unapplied
  case illegalInstruction => exact execIllegalInstruction_unapplied
  case callx => exact instrOut_unapplied callTo_unapplied
  case loopi => exact instrOut_unapplied <| .frame openLoop_keeps rfl
  case ldi => exact instrOut_unapplied <| .frame putAlu_keeps rfl
  case nopInstruction => exact instrOut_unapplied .pure
  case trap => exact instrOut_unapplied .stops
  -- Instructions whose meaning is a use of a shared operation: `exec` is unfolded for the unifier to find it.
  case bz | bnz => delta exec; exact condBranch_unapplied
  case add | sub | adc | sbc | and | or | xor | min | max | minu | maxu | shl | shr | sar | rol | ror => delta exec; exact binOp_unapplied
  case not | neg | abs | mov | clz | popc | sxb | sxh | addi | andi | ori | xori | shi => delta exec; exact unOp_unapplied
  case mul | mulh | mulhu | div | divu | rem | remu => delta exec; exact mulOp_unapplied
  -- Commands that leave the staging area alone, of families that do not.
  case doorbellWrite => exact .frame execDoorbellWrite_keeps rfl
  case ringStart => exact .frame execRingStart_keeps rfl
  case ringStop => exact .frame execRingStop_keeps rfl
  case ringStopped => exact .frame execRingStopped_keeps rfl
  case ringSetupWrite => exact .frame execRingSetupWrite_keeps rfl
  case readClear => exact .frame execReadClear_keeps rfl
  case hostRead => exact .frame execHostRead_keeps rfl
  case descriptorFetch => exact .frame execDescriptorFetch_keeps rfl
  case irqTimerExpiry => exact .frame execIrqTimerExpiry_keeps rfl
  case stallTimeout => exact .frame execStallTimeout_keeps rfl
  case nop => exact .frame execNop_keeps rfl
  case echo => exact .frame execEcho_keeps rfl
  case placementQuery => exact .frame execPlacementQuery_keeps rfl
  case stageQuery => exact .frame execStageQuery_keeps rfl
  case pkgWrite => exact .frame execPkgWrite_keeps rfl
  case pkgErase => exact .frame execPkgErase_keeps rfl
  case pkgQuery => exact .frame execPkgQuery_keeps rfl
  case pairSplit => exact .frame execPairSplit_keeps rfl
  case pairMerge => exact .frame execPairMerge_keeps rfl
  case pairQuery => exact .frame execPairQuery_keeps rfl
  case mergeCopyDone => exact .frame execMergeCopyDone_keeps rfl
  case faultQuery => exact .frame execFaultQuery_keeps rfl
  case faultAck => exact .frame execFaultAck_keeps rfl
  case heartbeat => exact .frame execHeartbeat_keeps rfl
  case recoveryEnd => exact .frame execRecoveryEnd_keeps rfl
  case powerSet => exact .frame execPowerSet_keeps rfl
  case powerQuery => exact .frame execPowerQuery_keeps rfl
  case alarmSet => exact .frame execAlarmSet_keeps rfl
  case entryHandshakeAnswer => exact .frame execEntryHandshakeAnswer_keeps rfl
  case entryTimeout => exact .frame execEntryTimeout_keeps rfl
  case standbyExit => exact .frame execStandbyExit_keeps rfl
  case voutAcknowledge => exact .frame execVoutAcknowledge_keeps rfl
  case pmbusNoAck => exact .frame execPmbusNoAck_keeps rfl
  case pmAlert => exact .frame execPmAlert_keeps rfl
  case wakeLatch => exact .frame execWakeLatch_keeps rfl
  case rootTimerWake => exact .frame execRootTimerWake_keeps rfl
  case perstNWake => exact .frame execPerstNWake_keeps rfl
  case wakeNRelease => exact .frame execWakeNRelease_keeps rfl
  case regulatorRetry => exact .frame execRegulatorRetry_keeps rfl
  case xtal32Start => exact .frame execXtal32Start_keeps rfl
  case xtal32Fail => exact .frame execXtal32Fail_keeps rfl
  case xtal40Fail => exact .frame execXtal40Fail_keeps rfl
  case pfwFall => exact .frame execPfwFall_keeps rfl
  case pfwRise => exact .frame execPfwRise_keeps rfl
  case crank => exact .frame execCrank_keeps rfl
  case rootIslandPowerOn => exact .frame execRootIslandPowerOn_keeps rfl
  case graftBlock => exact .frame execGraftBlock_keeps rfl
  case linkReturn => exact .frame execLinkReturn_keeps rfl
  case loadDieSupplyLow => exact .frame execLoadDieSupplyLow_keeps rfl
  case lsSupplyHigh => exact .frame execLsSupplyHigh_keeps rfl
  case supplyReturn => exact .frame execSupplyReturn_keeps rfl
  case dieOvertemp => exact .frame execDieOvertemp_keeps rfl
  case xtal40Retry => exact .frame execXtal40Retry_keeps rfl
  case handlerDispatch => exact .frame execHandlerDispatch_keeps rfl
  case inboundQueueDelivery => exact .frame execInboundQueueDelivery_keeps rfl
  case localTimer => exact .frame execLocalTimer_keeps rfl
  -- The families that leave it alone.
  all_goals exact .frame (exec_keeps s _) rfl

/-- Settles O10: a set comes in force with COMMIT_TICK alone, and without one every output is held in SAFE. -/
theorem onlyCommitTickPutsInForce : Obligations.OnlyCommitTickPutsInForce := by
  intro c s t e hs hc
  have ht : Unapplied t := exec_unapplied hc t e hs
  exact ⟨ht, fun _ => safeHeld_of_unapplied ht⟩

end Sys2Proof.Frames
end

section
/-! SUPPORT. The state after reset, block by block, and the invariants that hold there. -/

namespace Sys2Proof.Frames

open Sys2Proof.Machine Sys2Proof.Safety Sys2Proof.Laws

/-! ### Blocks at their reset values -/

theorem reset_ring (n : Fin 64) : State.reset.rings[n] = {} := Vector.getElem_replicate n.isLt

theorem reset_ses (n : Fin 4) : State.reset.ses[n] = {} := Vector.getElem_replicate n.isLt

theorem reset_pair (k : Fin 8) : State.reset.pairs[k] = {} := Vector.getElem_replicate k.isLt

theorem reset_pkg (k : Fin 256) : State.reset.pkgs[k] = {} := Vector.getElem_replicate k.isLt

theorem reset_staged (i : Fin 16) : State.reset.stg.staged[i] = none := Vector.getElem_replicate i.isLt

theorem reset_engEntry (e : Fin 16) : State.reset.eng[e] = {} := Vector.getElem_replicate e.isLt

theorem reset_eng (e : Fin 16) : eng State.reset e = {} := by
  rw [eng, at?_lt _ e.isLt]
  exact reset_engEntry e

/-! ### The invariants -/

theorem timeFits_reset : TimeFits State.reset := ⟨Nat.two_pow_pos 64, Nat.two_pow_pos 48, by decide⟩

theorem memoryWf_reset : MemoryWf State.reset := ⟨rfl, rfl⟩

theorem programMemoryWf_reset : ProgramMemoryWf State.reset := by
  refine ⟨fun e => ?_, fun k => ?_, nofun, nofun, fun k x hx => ?_⟩
  · rw [reset_engEntry]
    rfl
  · rw [reset_pkg]
    rfl
  · rw [reset_pair] at hx
    cases hx

/-- Oniskent's delivery set is in canonical form (R63, log entry 26). -/
theorem memWf_deliveryTables : ∀ i : Fin 16, memWf deliveryTables[i] = true := by decide +kernel

theorem memWf_emptyTables (i : Fin 16) : memWf (Vector.replicate 16 ([] : Mem))[i] = true := by simp [memWf, memWfFrom]

theorem tablesWf_reset : TablesWf State.reset := by
  refine ⟨fun i x hx => ?_, fun c i => ?_, memWf_emptyTables, nofun⟩
  · rw [reset_staged] at hx
    cases hx
  · match c with
    | 0 => exact memWf_deliveryTables i
    | 1 => exact memWf_emptyTables i

/-- Settles O3. Of a ring it speaks of ACTIVE, the index, the base and the shadow index: R30 and R35 give the others reset values of
their own. -/
theorem resetState : Obligations.ResetState := by
  refine ⟨timeFits_reset, memoryWf_reset, programMemoryWf_reset, tablesWf_reset, rfl, rfl, rfl, rfl, rfl, rfl, fun n => ?ring, fun n => ?session,
    rfl, fun o => safeHeld_of_unapplied rfl, fun e => ?engine, fun k => ?pair⟩
  case ring => rw [reset_ring]; exact ⟨rfl, rfl, rfl, rfl⟩
  case session => rw [reset_ses]
  case engine => rw [reset_eng]; exact ⟨rfl, rfl⟩
  case pair => rw [reset_pair]

end Sys2Proof.Frames
end

section
/-! SUPPORT. Load channels: what a change of one channel leaves as it is. A channel's operations reach its own gang alone
(R93), and once a request is noted they leave the mode and duty that it asks for (R95). -/

namespace Sys2Proof.Loads

open Sys2Proof.Machine Sys2Proof.Safety Sys2Proof.Laws Sys2Proof.Frames

/-! ### Reading a channel -/

/-- A channel number beyond the last reads as the default and takes no change. -/
theorem lch_setLch_eq (n m : Nat) (f : Lch → Lch) (s : State) :
    lch (setLch n f s) m = if m = n ∧ n < 64 then f (lch s n) else lch s m := by
  split
  case isTrue h => rw [h.1, lch_setLch_same h.2]
  case isFalse h =>
    by_cases e : m = n
    · subst e
      have hn : 64 ≤ m := by omega
      rw [lch, lch, setLch_ld, at?_ge _ hn, at?_ge _ hn]
    · exact lch_setLch_other e f s

/-- Gangs stand in the acting tables (R92). -/
theorem membersOf_of_stg_eq {s t : State} (h : t.stg = s.stg) (n : Nat) : membersOf t n = membersOf s n := by
  simp only [membersOf, gangOf, gangs, storedU, h]

theorem lch_of_ld_eq {s t : State} (h : t.ld = s.ld) (n : Nat) : lch t n = lch s n := by rw [lch, lch, h]

/-! ### Changes within a gang -/

/-- A change that touches, of the channels, channel `n` and the members of its gang alone, and no table. -/
structure GangOnly (n : Nat) (s t : State) : Prop where
  stg : t.stg = s.stg
  others : ∀ m, m ∉ membersOf s n → m ≠ n → lch t m = lch s m

/-- Such a change that leaves what is asked of channel `n`. -/
structure RequestKept (n : Nat) (s t : State) : Prop extends GangOnly n s t where
  mode : (lch t n).mode = (lch s n).mode
  duty : (lch t n).duty = (lch s n).duty

section
variable {n m : Nat} {s t u : State}

theorem GangOnly.comp (k : GangOnly n t u) (h : GangOnly n s t) : GangOnly n s u where
  stg := k.stg.trans h.stg
  others m hm hn := (k.others m (by rwa [membersOf_of_stg_eq h.stg]) hn).trans (h.others m hm hn)

theorem GangOnly.setLch {f : Lch → Lch} : GangOnly n s (setLch n f s) where
  stg := rfl
  others _ _ hn := lch_setLch_other hn f s

theorem RequestKept.refl : RequestKept n s s := ⟨⟨rfl, fun _ _ _ => rfl⟩, rfl, rfl⟩

/-- The later of two changes first, as `g (f s)` is written. -/
theorem RequestKept.comp (k : RequestKept n t u) (h : RequestKept n s t) : RequestKept n s u where
  toGangOnly := k.toGangOnly.comp h.toGangOnly
  mode := k.mode.trans h.mode
  duty := k.duty.trans h.duty

theorem RequestKept.ite {c : Prop} [Decidable c] (h : RequestKept n s t) (k : RequestKept n s u) : RequestKept n s (if c then t else u) := by
  split <;> assumption

/-- Records touch no channel and no table. -/
theorem RequestKept.of_records (h : KeepsBut [.records] s t) : RequestKept n s t := by
  have hl (m : Nat) : lch t m = lch s m := lch_of_ld_eq (h .ld (by decide)) m
  exact ⟨⟨h .stg (by decide), fun m _ _ => hl m⟩, by rw [hl], by rw [hl]⟩

/-- A change of the channel or of a member of its gang. -/
theorem RequestKept.setLch {f : Lch → Lch} (hm : m ∈ membersOf s n ∨ m = n) (hmode : (f (lch s m)).mode = (lch s m).mode)
    (hduty : (f (lch s m)).duty = (lch s m).duty) : RequestKept n s (setLch m f s) := by
  refine ⟨⟨rfl, fun k hk hn => lch_setLch_other (fun e => ?outside) f s⟩, ?mode, ?duty⟩
  case outside =>
    subst e
    exact hm.elim hk hn
  all_goals
    rw [lch_setLch_eq]
    split
    case isTrue h => rw [h.1]; assumption
    case isFalse => rfl

/-- A change made for every member of the gang. -/
theorem RequestKept.foldl {f : State → Nat → State} (h : ∀ s m, m ∈ membersOf s n → RequestKept n s (f s m)) :
    ∀ (l : List Nat) (s : State), (∀ m ∈ l, m ∈ membersOf s n) → RequestKept n s (l.foldl f s)
  | [], _, _ => .refl
  | m :: l, s, hl => by
    have hm := h s m (hl m List.mem_cons_self)
    refine .comp (foldl h l (f s m) fun k hk => ?_) hm
    rw [membersOf_of_stg_eq hm.stg]
    exact hl k (List.mem_cons_of_mem m hk)

theorem RequestKept.foldl_members {f : State → Nat → State} (h : ∀ s m, m ∈ membersOf s n → RequestKept n s (f s m)) :
    RequestKept n s ((membersOf s n).foldl f s) := .foldl h _ s fun _ hm => hm

end

/-! ### The operations of LoadOps.lean -/

section
variable {n : Nat} {s : State}

theorem noteLimit_requestKept {was : Bool} : RequestKept n s (noteLimit n was s) := .of_records noteLimit_keeps

theorem noteSat_requestKept {was : Bool} : RequestKept n s (noteSat n was s) := .of_records noteSat_keeps

theorem syncGang_requestKept : RequestKept n s (syncGang n s) :=
  .foldl_members fun _ _ hm => .ite .refl <| .setLch (.inl hm) rfl rfl

theorem forceLeaves_requestKept : RequestKept n s (forceLeaves n s) :=
  .foldl_members fun _ _ hm => .setLch (.inl hm) (by split <;> rfl) (by split <;> rfl)

/-- Of a new period's channel, limits, duty and ramp are new, not what is asked (R97). -/
theorem newPeriod_requestKept : RequestKept n s (newPeriod n s) := by
  unfold newPeriod
  refine .comp syncGang_requestKept <| .comp noteSat_requestKept <| .comp noteLimit_requestKept <| .setLch (.inr rfl) ?mode ?duty
  all_goals
    dsimp only
    repeat' split
    all_goals rfl

theorem turnOff_requestKept : RequestKept n s (turnOff n s) :=
  .comp syncGang_requestKept <| .comp noteSat_requestKept <| .comp noteLimit_requestKept <| .setLch (.inr rfl) rfl rfl

theorem turnOn_requestKept {m d : Nat} : RequestKept n s (turnOn n m d s) :=
  .comp forceLeaves_requestKept <| .comp newPeriod_requestKept <| .setLch (.inr rfl) rfl rfl

theorem endWaits_requestKept {l : List NextReq} {status : Nat} {src : Option Nat} : RequestKept n s (endWaits l status src s) :=
  .of_records endWaits_keeps

theorem tookState_requestKept {l : List NextReq} {m d : Nat} {wasOff : Bool} : RequestKept n s (tookState n l m d wasOff s) := by
  refine .comp (.setLch (.inr rfl) ?mode ?duty) <| .of_records <| .foldl fun _ _ => ?completion
  case completion =>
    split
    · exact .ite (finish_keeps _ _ _ _) (finishFree_keeps _ _ _)
    · exact .refl
  all_goals
    repeat' split
    all_goals rfl

theorem applyLch_requestKept : RequestKept n s (applyLch n s) :=
  .ite (.comp (.ite (.comp endWaits_requestKept <| .setLch (.inr rfl) rfl rfl) .refl) <| .ite .refl turnOff_requestKept) <|
  .ite (.comp tookState_requestKept <| .comp turnOn_requestKept <| .setLch (.inr rfl) rfl rfl) <|
  .ite .refl <| .setLch (.inr rfl) rfl rfl

theorem asked_requestKept {uid : Nat} {timedMs : Option Nat} {wasOff : Bool} : RequestKept n s (asked n uid timedMs wasOff s) := by
  cases timedMs with
  | some k => exact .setLch (.inr rfl) rfl rfl
  | none => exact .ite (.of_records (finish_keeps _ _ _ _)) <| .setLch (.inr rfl) rfl rfl

theorem endTimed_requestKept {status : Nat} {src : Option Nat} : RequestKept n s (endTimed n status src s) := by
  unfold endTimed
  split
  · exact .refl
  · cases src with
    | some k => exact .comp (.of_records (finish_keeps _ _ _ _)) <| .setLch (.inr rfl) rfl rfl
    | none => exact .comp (.of_records (finishFree_keeps _ _ _)) <| .setLch (.inr rfl) rfl rfl

/-! ### A request -/

theorem request_gangOnly {m d : Nat} : GangOnly n s (request n m d s) :=
  .comp applyLch_requestKept.toGangOnly <| .comp .setLch endTimed_requestKept.toGangOnly

/-- What is asked of a channel after a request: its mode, and in PWM mode its duty (R95). -/
theorem request_asks (h : n < 64) (m d : Nat) :
    (lch (request n m d s) n).mode = m ∧ (lch (request n m d s) n).duty = if m = 2 then d else (lch s n).duty := by
  have hnoted := lch_setLch_same h (fun c => { c with mode := m, duty := if m == 2 then d else c.duty }) (endTimed n 0x10 none s)
  refine ⟨applyLch_requestKept.mode.trans ?_, applyLch_requestKept.duty.trans ?_⟩ <;> rw [hnoted]
  simp only [beq_iff_eq, endTimed_requestKept.duty]

end

/-! ### Descriptors of load channels -/

/-- A descriptor that passes the checks of R40 names what its operation allows (check 4). -/
theorem range_of_judge {s : State} {d : Desc} {f : OpForm} (h : judge s d f = none) : f.range = true := by
  cases hr : f.range with
  | true => rfl
  | false =>
    simp only [judge, hr, Bool.false_and, Bool.not_false, if_true] at h
    repeat' split at h
    all_goals cases h

/-- A target that LCH_SET allows is one of the 64 channels (R111). -/
theorem lch_lt_of_range {d : Desc} (h : lchRange d = true) : d.lch < 64 := by
  simp only [lchRange, Bool.and_eq_true, decide_eq_true_eq] at h
  unfold Desc.lch
  omega

/-- The start of a descriptor touches descriptors and the time at which its session was last named (R42, R83). -/
theorem begun_keeps {o : Origin} {d : Desc} {form : State → Desc → OpForm} {s : State} : KeepsBut [.records] s (begun o d form s) :=
  .comp (.ite (.mono (touchSession_keeps _ _) rfl) .refl) <| .comp (startRun_keeps _ _) (popHead_keeps _ _)

/-- What follows the request of an LCH_SET. -/
theorem retireUnknown_asked_requestKept {o : Origin} {k n uid : Nat} {timedMs : Option Nat} {wasOff : Bool} {s : State} :
    RequestKept n s (retireUnknown o k (asked n uid timedMs wasOff s)) :=
  .comp (.of_records (retireUnknown_keeps o k _)) asked_requestKept

/-- Settles O43: the request notes mode and duty, and every later part of LCH_SET keeps them and stays within the gang. That the
duty is kept in the other modes is the model's reading (log entry 13). -/
theorem lchSetEffect : Obligations.LchSetEffect := by
  intro o d s h
  have hexec : exec (.lchSet o) s = .next _ := runOut_took _ h (by decide)
  obtain ⟨-, -, -, -, hjudge⟩ := h
  have hrange := range_of_judge hjudge
  simp only [lchSetForm, Bool.and_eq_true] at hrange
  have hb : RequestKept d.lch s (begun o d lchSetForm s) := .of_records begun_keeps
  obtain ⟨hmode, hduty⟩ :=
    request_asks (s := begun o d lchSetForm s) (lch_lt_of_range hrange.1) (d.u 24 8) (fld (d.u 26 16) 0 12)
  rw [hb.duty] at hduty
  exact ⟨_, hexec, retireUnknown_asked_requestKept.mode.trans hmode, retireUnknown_asked_requestKept.duty.trans hduty,
    (retireUnknown_asked_requestKept.toGangOnly.comp <| request_gangOnly.comp hb.toGangOnly).others, execLchSet_keeps _ hexec⟩

end Sys2Proof.Loads
end

section
/-! SUPPORT. The heat budget's grants (R106) and the pre-heat ramp (R103). -/

namespace Sys2Proof.Loads

open Sys2Proof.Machine

/-! ### Grants -/

section
variable {s : State} {gone : List Nat}

/-- The minima of the channels among `l` that keep theirs (R106). -/
def minima (s : State) (gone l : List Nat) : Nat := ((l.filter fun n => !gone.contains n).map fun n => (demandOf s n).2).sum

theorem minima_cons_gone {n : Nat} (h : gone.contains n = true) (l : List Nat) : minima s gone (n :: l) = minima s gone l := by
  simp only [minima, List.filter_cons, h, Bool.not_true, Bool.false_eq_true, if_false]

theorem minima_cons_kept {n : Nat} (h : gone.contains n = false) (l : List Nat) :
    minima s gone (n :: l) = (demandOf s n).2 + minima s gone l := by
  simp only [minima, List.filter_cons, h, Bool.not_false, if_true, List.map_cons, List.sum_cons]

/-- What a channel that keeps its minimum gets above it, with `avail` left (R106). -/
def extra (s : State) (n : Nat) (avail : Int) : Nat := min ((demandOf s n).1 - (demandOf s n).2) avail.toNat

theorem extra_le {avail : Int} (h : 0 ≤ avail) (n : Nat) : (extra s n avail : Int) ≤ avail := by
  unfold extra
  omega

theorem grantAll_cons_gone {n : Nat} (h : gone.contains n = true) (l : List Nat) (avail : Int) :
    grantAll s gone (n :: l) avail = (n, 0) :: grantAll s gone l avail := by rw [grantAll, if_pos h]

theorem grantAll_cons_kept {n : Nat} (h : gone.contains n = false) (l : List Nat) (avail : Int) :
    grantAll s gone (n :: l) avail = (n, (demandOf s n).2 + extra s n avail) :: grantAll s gone l (avail - extra s n avail) := by
  rw [grantAll, if_neg (h ▸ Bool.false_ne_true)]
  rfl

/-- One grant for each channel, in order. -/
theorem grantAll_channels : ∀ (l : List Nat) (avail : Int), (grantAll s gone l avail).map (·.1) = l
  | [], _ => rfl
  | n :: l, avail => by
    cases h : gone.contains n with
    | true => rw [grantAll_cons_gone h, List.map_cons, grantAll_channels l]
    | false => rw [grantAll_cons_kept h, List.map_cons, grantAll_channels l]

/-- What a grant is allowed to be: 0 for a withdrawn channel, else from its minimum to its demand or minimum. -/
def GrantFits (s : State) (gone : List Nat) (x : Nat × Nat) : Prop :=
  (gone.contains x.1 = true → x.2 = 0) ∧
  (gone.contains x.1 = false → (demandOf s x.1).2 ≤ x.2 ∧ x.2 ≤ max (demandOf s x.1).1 (demandOf s x.1).2)

theorem grantFits_kept {n : Nat} (h : gone.contains n = false) (avail : Int) :
    GrantFits s gone (n, (demandOf s n).2 + extra s n avail) := by
  refine ⟨fun h' => absurd (h.symm.trans h') (by decide), fun _ => ?_⟩
  simp only [extra]
  omega

theorem grantAll_fits : ∀ (l : List Nat) (avail : Int), ∀ x ∈ grantAll s gone l avail, GrantFits s gone x
  | [], _, _, hx => absurd hx List.not_mem_nil
  | n :: l, avail, x, hx => by
    cases h : gone.contains n with
    | true =>
      rw [grantAll_cons_gone h, List.mem_cons] at hx
      obtain rfl | hx := hx
      · exact ⟨fun _ => rfl, fun h' => absurd (h.symm.trans h') (by decide)⟩
      · exact grantAll_fits l _ x hx
    | false =>
      rw [grantAll_cons_kept h, List.mem_cons] at hx
      obtain rfl | hx := hx
      · exact grantFits_kept h avail
      · exact grantAll_fits l _ x hx

/-- The grants share out the minima and at most the room above them. -/
theorem grantAll_sum_le : ∀ (l : List Nat) (avail : Int), 0 ≤ avail →
    (((grantAll s gone l avail).map (·.2)).sum : Nat) ≤ avail + minima s gone l
  | [], avail, h => by simpa [grantAll, minima] using h
  | n :: l, avail, h => by
    cases hg : gone.contains n with
    | true =>
      rw [grantAll_cons_gone hg, minima_cons_gone hg, List.map_cons, List.sum_cons, Nat.zero_add]
      exact grantAll_sum_le l avail h
    | false =>
      have hx := extra_le (s := s) h n
      have ih := grantAll_sum_le l (avail - extra s n avail) (by omega)
      rw [grantAll_cons_kept hg, minima_cons_kept hg, List.map_cons, List.sum_cons]
      push_cast at ih ⊢
      omega

end

/-- Settles O44, by induction on the channels in priority order: each takes from the room no more than is left. -/
theorem budgetGrantsFit : Obligations.BudgetGrantsFit := by
  intro s gone l avail h
  exact ⟨grantAll_channels l avail, fun x hx => (grantAll_fits l avail x hx).1, fun x hx => (grantAll_fits l avail x hx).2,
    grantAll_sum_le l avail h⟩

/-! ### The ramp -/

/-- The fraction of the way to the target that a ramp has gone, in 1/65536 (R103). -/
def rampDone (lvl t msLen : Nat) : Nat :=
  min 65536 (if lvl == 1 then t * 65536 / ms msLen else floorSqrt (t * 65536 * 65536 / ms msLen))

theorem rampDuty_eq (lvl d0 target t msLen : Nat) :
    rampDuty lvl d0 target t msLen = ((d0 : Int) + ((target : Int) - d0) * rampDone lvl t msLen / 65536).toNat := rfl

theorem rampDone_le (lvl t msLen : Nat) : rampDone lvl t msLen ≤ 65536 := Nat.min_le_left _ _

theorem rampDone_start (lvl msLen : Nat) : rampDone lvl 0 msLen = 0 := by
  have hroot : floorSqrt 0 = 0 := by decide +kernel
  simp [rampDone, hroot]

theorem rampDone_end (lvl : Nat) {msLen : Nat} (h : 0 < msLen) : rampDone lvl (ms msLen) msLen = 65536 := by
  have hlen : 0 < ms msLen := Nat.mul_pos (by decide) h
  have hroot : floorSqrt (65536 * 65536) = 65536 := by decide +kernel
  simp only [rampDone, Nat.mul_assoc, Nat.mul_div_cancel_left _ hlen, hroot, ite_self, Nat.min_self]

/-- A part of a rise or fall, rounded down, stays between none of it and the whole. -/
theorem partOf_between (x : Int) {f : Nat} (h : f ≤ 65536) : min 0 x ≤ x * f / 65536 ∧ x * f / 65536 ≤ max 0 x := by
  obtain hx | hx := Int.le_total 0 x
  · have h0 : 0 ≤ x * f := Int.mul_nonneg hx (Int.natCast_nonneg f)
    have h1 : x * f ≤ x * 65536 := Int.mul_le_mul_of_nonneg_left (by omega) hx
    omega
  · have h0 : x * f ≤ 0 := Int.mul_nonpos_of_nonpos_of_nonneg hx (Int.natCast_nonneg f)
    have h1 : x * 65536 ≤ x * f := Int.mul_le_mul_of_nonpos_left hx (by omega)
    omega

/-- Settles O45: the part of the way gone lies between 0 and 1, is 0 at the start and 1 after PRE_MS. -/
theorem rampStaysBetween : Obligations.RampStaysBetween := by
  intro lvl d0 target t msLen h
  have hpart := partOf_between ((target : Int) - d0) (rampDone_le lvl t msLen)
  refine ⟨?above, ?below, ?start, ?target⟩
  case above => rw [rampDuty_eq]; omega
  case below => rw [rampDuty_eq]; omega
  case start => rw [rampDuty_eq, rampDone_start]; simp
  case target =>
    rw [rampDuty_eq, rampDone_end lvl h]
    omega

end Sys2Proof.Loads
end

section
/-! SUPPORT. How the commands of load channels and wire fusing complete: a descriptor operation with its effect, an event with its own
where its occasion is there. -/

namespace Sys2Proof.Loads

open Sys2Proof.Machine Sys2Proof.Safety Sys2Proof.Laws

/-- A descriptor operation without a block ends with its effect, from where its descriptor has begun (R40, R42). -/
theorem ends_of_took {c : Instr} {s t : State} {o : Origin} {op : Nat} {form : State → Desc → OpForm} {eff : Desc → Nat → State → State}
    {d : Desc} (hc : exec c s = runOut o op form eff s) (hb : blockOp c = none) (hk : opKnown op = true) (h : Took s o op form d)
    (ht : eff d s.nextUid (begun o d form s) = t) : Ends c s o t := by
  rw [Ends, hb, hc, ← ht]
  exact runOut_took eff h hk

section
variable {f : State → State} {s t : State}

/-- An event of the digital die while it runs. -/
theorem whenOn_next (h : s.pw.dieOn = true) (hf : f s = t) : (.next (whenOn f s) : Out) = .next t := by
  rw [whenOn, onlyIf, if_pos h, hf]

/-- An event that needs the fast clocks, while they run. -/
theorem whenClocked_next (h : s.pw.clocks = true) (hf : f s = t) : (.next (whenClocked f s) : Out) = .next t := by
  rw [whenClocked, onlyIf, if_pos h, hf]

end

/-- Settles O15, command by command: each clause's hypotheses choose the branch of the command's meaning that it states. -/
theorem loadAndWireCommandsComplete : Obligations.LoadAndWireCommandsComplete := by
  refine ⟨?lchSet, ?lchTimed, ?lchSetMask, ?lchQuery, ?heatQuery, ?timedEnd, ?leafStepUp, ?leafStepDown, ?memberPeriodStart,
    ?pwmPeriodStart, ?inrushEnd, ?preheatEnd, ?budgetAllocation, ?gangImbalance, ?bankSenseImplausible, ?cpFreezeEnd,
    ?bankSensePlausible, ?wireModelUpdate, ?restartCountReset, ?heatSnapshot, ?ambientStale, ?shortCircuitLimit, ?envelopeTrip,
    ?switchOvertemp, ?onStateDiagnosis, ?reverseCurrent, ?offStateDiagnosis, ?protClear, ?wireQuery, ?wireAmbient, ?diagRun⟩
  -- Descriptor operations.
  case lchSet | lchTimed | lchSetMask | lchQuery | heatQuery | protClear | wireQuery | wireAmbient =>
    exact fun _ _ _ h => ends_of_took rfl rfl (by decide) h rfl
  case diagRun => exact fun _ _ _ _ _ h => ends_of_took rfl rfl (by decide) h rfl
  -- Events with a guard, written for the occasion or against it.
  case cpFreezeEnd | restartCountReset => exact fun _ _ hc hg => whenClocked_next hc (if_pos hg)
  case leafStepUp | envelopeTrip | reverseCurrent => exact fun _ _ _ hc hg => whenClocked_next hc (if_pos hg)
  case bankSenseImplausible | bankSensePlausible | offStateDiagnosis => exact fun _ _ _ _ hc hg => whenClocked_next hc (if_pos hg)
  case ambientStale => exact fun _ _ hd hg => whenOn_next hd (if_pos hg)
  case heatSnapshot => exact fun _ hd hg => whenOn_next hd (if_pos (decide_eq_true hg))
  case shortCircuitLimit | switchOvertemp => exact fun _ _ _ hc hg => whenClocked_next hc (if_neg hg)
  case wireModelUpdate => exact fun _ _ _ _ hc hg => whenClocked_next hc (if_neg hg)
  case budgetAllocation => exact fun _ _ hd hg => whenOn_next hd (if_neg hg)
  -- A period start, of a gang member and of another channel.
  case memberPeriodStart => exact fun _ _ _ _ hc hm hg => whenClocked_next hc ((if_pos hm).trans (if_pos hg))
  case pwmPeriodStart => exact fun _ _ _ _ hc hm hg => whenClocked_next hc ((if_neg hm).trans (if_neg hg))
  -- The end of a timer or dwell that has begun.
  case timedEnd => exact fun _ _ hd _ ht hg => whenOn_next hd (by simp only [ht, if_neg hg])
  case leafStepDown | inrushEnd | preheatEnd | gangImbalance =>
    exact fun _ _ hc _ ht hg => whenClocked_next hc (by simp only [ht, if_pos hg])
  case onStateDiagnosis => exact fun _ _ _ hc _ ht hg => whenClocked_next hc (by simp only [ht, if_pos hg])

end Sys2Proof.Loads
end

section
/-! SUPPORT. How the commands of the CAN FD controllers complete. A controller's events say what they do when the digital die runs and,
most of them, when an attempt runs or a guard holds. -/

namespace Sys2Proof.CanFd

open Sys2Proof.Machine Sys2Proof.Safety Sys2Proof.Laws Sys2Proof.Loads

/-- An operation whose block has come whole ends with its effect on that block (R37, R393). -/
theorem ends_of_block {c : Instr} {s t u : State} {o : Origin} {op : Nat} {form : State → Desc → OpForm} {place : BlockPlace}
    {eff : Desc → Nat → List Byte → State → State} {d : Desc} {bs : List Byte} (hc : exec c s = runBlockAt o op .run place form eff s)
    (hb : (blockOp c).isSome = true) (hk : opKnown op = true) (h : Took s o op form d) (there : BlockHere o d form place s bs t)
    (ht : eff d s.nextUid bs t = u) : Ends c s o u := by
  rw [Ends, if_pos hb, hc, ← ht]
  exact runBlockAt_took eff h there hk

/-- An event that needs its occasion as well as a running digital die. -/
theorem whenOn_onlyIf_next {f : State → State} {s t : State} {c : Bool} (hd : s.pw.dieOn = true) (hc : c = true) (hf : f s = t) :
    (.next (whenOn (onlyIf c f) s) : Out) = .next t :=
  whenOn_next hd (by rw [onlyIf, if_pos hc, hf])

/-- Settles O18, command by command: each clause's hypotheses choose the branch of the command's meaning that it states. Which steps the
counts take, and what a cancel answers, are the model's readings (log entries 44 and 18). -/
theorem canCommandsComplete : Obligations.CanCommandsComplete := by
  refine ⟨?diagnosticRequest, ?canTx, ?canTxCancel, ?canQuery, ?canRecover, ?canQueueQuery, ?frameReceived, ?frameRecordWrite,
    ?arbitrationStart, ?frameTransmitted, ?transmitAttemptFailed, ?cancelErrorFlag, ?txTimeout, ?busoffHoldExpiry,
    ?busoffRecoveryComplete, ?txdDominant, ?busIntegrated, ?receiveError⟩
  -- Descriptor operations. Data of at most 8 bytes stand in the descriptor, PLEN being 0 (R269).
  case canTx => exact fun _ _ _ _ _ h there => ends_of_block rfl rfl (by decide) h there (by simp only [beq_iff_eq])
  case canTxCancel | canQuery | canRecover | canQueueQuery => exact fun _ _ _ h => ends_of_took rfl rfl (by decide) h rfl
  -- Events whose occasion is a condition on the state, written for the occasion or against it.
  case frameReceived | receiveError => exact fun _ _ _ _ hd hg => whenOn_onlyIf_next hd hg rfl
  case busoffHoldExpiry | busoffRecoveryComplete | txdDominant | busIntegrated => exact fun _ _ hd hg => whenOn_onlyIf_next hd hg rfl
  case diagnosticRequest => exact fun _ _ _ hd hg => whenOn_next hd (if_neg hg)
  case arbitrationStart => exact fun _ _ hd hg => whenOn_next hd (if_neg hg)
  -- The timeouts that have expired, also where there is none.
  case txTimeout => exact fun _ _ hd => whenOn_next hd rfl
  -- The oldest held frame.
  case frameRecordWrite => exact fun _ _ hd _ _ hold => whenOn_next hd (by rewrite [hold]; rfl)
  -- Events of the attempt that runs.
  case transmitAttemptFailed => exact fun _ _ _ _ hd _ _ hr => whenOn_next hd (by rewrite [hr]; rfl)
  case frameTransmitted => exact fun _ _ _ hd _ _ hr hg => whenOn_next hd (by rewrite [hr]; exact if_neg hg)
  case cancelErrorFlag => exact fun _ _ hd _ _ hr _ hs hg => whenOn_next hd (by rewrite [hr]; dsimp only; rewrite [hs]; exact if_pos hg)

end Sys2Proof.CanFd
end

section
/-! SUPPORT. The canonical form of shared SRAM and MRAM (log entry 3): that every operation keeps it. Each lemma follows the
operation's own text; where an operation touches neither memory its frame is cited. -/

namespace Sys2Proof.Safety

open Sys2Proof.Machine

/-! ### How the form is carried -/

/-- A frame's parts hold neither shared SRAM, which is among the records, nor MRAM. For a list that is written out it holds by `rfl`. -/
abbrev Apart (may : List Safety.Part) : Prop := (may.contains .records || may.contains .mram) = false

section
variable {may : List Safety.Part} {s t u : State} {o : Out} {α : Type} {m : EngM α}

/-- A frame that leaves both memories out. -/
theorem Carries.apart (k : KeepsBut may s t) (hm : Apart may) : Carries MemoryWf s t := by
  simp only [Bool.or_eq_false_iff, List.contains_eq_mem, decide_eq_false_iff_not] at hm
  intro h
  rwa [MemoryWf, (k .records hm.1).1, k .mram hm.2]

/-- The same for the later of two changes. -/
theorem Carries.past (k : KeepsBut may t u) (hm : Apart may) (h : Carries MemoryWf s t) : Carries MemoryWf s u :=
  .comp (.apart k hm) h

theorem OutCarries.apart (k : OutKeeps may s o) (hm : Apart may) : OutCarries MemoryWf s o := fun t e => .apart (k t e) hm

theorem EngCarries.apart (k : EngKeeps may m) (hm : Apart may) : EngCarries MemoryWf m := fun c x c' e => .apart (k c x c' e) hm

theorem Carries.whenClocked {I : State → Prop} {f : State → State} (h : ∀ s, Carries I s (f s)) : Carries I s (Machine.whenClocked f s) :=
  .onlyIf h

end

end Sys2Proof.Safety

namespace Sys2Proof.Frames

open Sys2Proof.Machine Sys2Proof.Safety Sys2Proof.Laws

/-! ### Rings, records and completions (files 02 and 16) -/

/-- Rings, descriptors and records on their way, shared SRAM left out, with fields that no part names. -/
theorem recordFields_formed {rings : Vector Machine.Ring 64} {nextHigh nextNormal : Nat} {started : List Run} {nextUid : Nat}
    {engPipe : Vector (List Desc) 16} {diagPipe : Option Desc} {diagBusy : Bool} {diagAnswer : Option (List Byte)} {out : List LinkOut}
    {transit : List Inbound} {host : HostSt} {heldEvents : List (Die × Report)} {s : State} :
    Carries MemoryWf s { s with rings := rings, nextHigh := nextHigh, nextNormal := nextNormal, started := started, nextUid := nextUid,
                                engPipe := engPipe, diagPipe := diagPipe, diagBusy := diagBusy, diagAnswer := diagAnswer, out := out,
                                transit := transit, host := host, heldEvents := heldEvents } := .refl

/-- Bytes written into shared SRAM. -/
theorem sramBytes_formed {a : Nat} {bs : List Byte} {s : State} : Carries MemoryWf s { s with sram := memWriteL s.sram a bs } :=
  And.imp_left (memWriteL_wf a bs)

/-- Bytes written into MRAM. -/
theorem mramBytes_formed {a : Nat} {bs : List Byte} {s : State} : Carries MemoryWf s { s with mram := memWriteL s.mram a bs } :=
  And.imp_right (memWriteL_wf a bs)

theorem setRing_formed {n : Fin 64} {f : Machine.Ring → Machine.Ring} {s : State} : Carries MemoryWf s (setRing n f s) := recordFields_formed

theorem toPrograms_formed {r : Record} {s : State} : Carries MemoryWf s (toPrograms r s) := recordFields_formed

theorem startRun_formed {d : Desc} {s : State} : Carries MemoryWf s (startRun d s) := recordFields_formed

theorem popHead_formed {o : Origin} {s : State} : Carries MemoryWf s (popHead o s) := by
  cases o
  all_goals exact recordFields_formed

theorem toHost_formed {o : LinkOut} {s : State} : Carries MemoryWf s (toHost o s) := by
  unfold toHost
  split
  · exact recordFields_formed
  · cases o
    all_goals exact recordFields_formed

theorem sendVector_formed {v : Nat} {s : State} : Carries MemoryWf s (sendVector v s) :=
  .ite (.apart unnamed_keeps rfl) <| .ite .refl <| .ite toHost_formed <| .ite (.apart unnamed_keeps rfl) toHost_formed

theorem ringWrite_formed {o : LinkOut} {a : Nat} {b : List Byte} {s : State} : Carries MemoryWf s (ringWrite o a b s) :=
  .ite (.past (fabAccess_keeps _ _ _ _ _) rfl sramBytes_formed) toHost_formed

theorem dataOut_formed : ∀ {n a : Nat} {b : List Byte} {s : State}, Carries MemoryWf s (dataOut n a b s)
  | 0, _, _, _ => .refl
  | _ + 1, _, _, _ => .ite toHost_formed <| .comp dataOut_formed toHost_formed

theorem toBuffer_formed {host : Bool} {a : Nat} {b : List Byte} {s : State} : Carries MemoryWf s (toBuffer host a b s) :=
  .ite dataOut_formed <| .past (fabAccess_keeps _ _ _ _ _) rfl sramBytes_formed

theorem signalRing_formed {n : Fin 64} {s : State} : Carries MemoryWf s (signalRing n s) := .comp sendVector_formed setRing_formed

theorem putRecord_formed {n : Fin 64} {r : Record} {irq : Bool} {s : State} : Carries MemoryWf s (putRecord n r irq s) := by
  have written {s : State} {b : Bool} {o p : LinkOut} {a a' : Nat} {bs bs' : List Byte} {f : Machine.Ring → Machine.Ring} :
      Carries MemoryWf s (if b then setRing n f (ringWrite o a bs s) else ringWrite p a' bs' (setRing n f (ringWrite o a bs s))) :=
    .ite (.comp setRing_formed ringWrite_formed) <| .comp ringWrite_formed <| .comp setRing_formed ringWrite_formed
  exact .ite (.comp signalRing_formed written) written

theorem flushDrops_formed {n : Fin 64} {s : State} : Carries MemoryWf s (flushDrops n s) :=
  .ite (.comp setRing_formed putRecord_formed) .refl

theorem watchStalls_formed {s : State} : Carries MemoryWf s (watchStalls s) := .ite recordFields_formed .refl

theorem emitAt_formed {ring code target d1 d2 time : Nat} {tsRt : Bool} {s : State} :
    Carries MemoryWf s (emitAt ring code target d1 d2 time tsRt s) :=
  .comp toPrograms_formed <| by
    split
    · exact .refl
    · exact .ite (.comp watchStalls_formed putRecord_formed) setRing_formed

theorem emit_formed {ring code target d1 d2 : Nat} {s : State} : Carries MemoryWf s (emit ring code target d1 d2 s) := emitAt_formed

theorem emitOnAt_formed {die : Die} {ring code target d1 d2 time : Nat} {tsRt : Bool} {s : State} :
    Carries MemoryWf s (emitOnAt die ring code target d1 d2 time tsRt s) := .ite recordFields_formed emitAt_formed

theorem emitOn_formed {die : Die} {ring code target d1 d2 : Nat} {s : State} : Carries MemoryWf s (emitOn die ring code target d1 d2 s) :=
  emitOnAt_formed

theorem writeCompletion_formed {d : Desc} {x : Done} {s : State} : Carries MemoryWf s (writeCompletion d x s) := by
  unfold writeCompletion
  dsimp only
  split
  · split
    · exact .refl
    · exact .comp watchStalls_formed <| .comp putRecord_formed setRing_formed
  · exact .ite .refl recordFields_formed
  · exact recordFields_formed

theorem settle_formed {s : State} : Carries MemoryWf s (settle s) :=
  .comp (.foldl fun _ _ => writeCompletion_formed) recordFields_formed

theorem finish_formed {uid status result : Nat} {s : State} : Carries MemoryWf s (finish uid status result s) :=
  .comp settle_formed recordFields_formed

theorem finishGated_formed {uid status result : Nat} {s : State} : Carries MemoryWf s (finishGated uid status result s) :=
  .comp settle_formed recordFields_formed

theorem finishFree_formed {uid status : Nat} {s : State} : Carries MemoryWf s (finishFree uid status s) :=
  .comp finish_formed <| .apart (takeFree_keeps 64 _) rfl

theorem finishRecorded_formed {type : Nat} {payload : List Byte} {session : Option Nat} {uid status result : Nat} {s : State} :
    Carries MemoryWf s (finishRecorded type payload session uid status result s) := .comp finishGated_formed <| .apart hwPutAt_keeps rfl

theorem retireUnknown_formed {o : Origin} : ∀ {n : Nat} {s : State}, Carries MemoryWf s (retireUnknown o n s)
  | 0, _ => .refl
  | n + 1, s => by
    unfold retireUnknown
    split
    · exact .refl
    · exact .ite .refl <| .comp retireUnknown_formed <| .comp finishFree_formed <| .comp startRun_formed popHead_formed

/-- A descriptor operation keeps the form where its effect does (R40). -/
theorem runOp_formed {o : Origin} {op : Nat} {form : State → Desc → OpForm} {eff : Desc → Nat → State → State} {s : State}
    (h : ∀ d uid s, Carries MemoryWf s (eff d uid s)) : Carries MemoryWf s (runOp o op form eff s) := by
  have named {c : Bool} {n : Nat} {s : State} : Carries MemoryWf s (if c = true then touchSession n s else s) :=
    .ite (.apart (touchSession_keeps _ _) rfl) .refl
  have begins {d : Desc} {s : State} : Carries MemoryWf s (startRun d (popHead o s)) := .comp startRun_formed popHead_formed
  have retires {s : State} : Carries MemoryWf s (retireUnknown o pipeMax s) := retireUnknown_formed
  unfold runOp
  refine .comp ?_ retires
  dsimp only
  split
  · exact .refl
  · refine .ite .refl <| .comp retires ?_
    split
    · exact .comp finishFree_formed <| .comp named begins
    · exact .comp (h _ _ _) <| .comp named begins

end Sys2Proof.Frames

namespace Sys2Proof.Safety

open Sys2Proof.Machine

theorem OutCarries.operation {o : Origin} {op : Nat} {form : State → Desc → OpForm} {eff : Desc → Nat → State → State} {s : State}
    (h : ∀ d uid s, Carries MemoryWf s (eff d uid s)) : OutCarries MemoryWf s (Machine.runOut o op form eff s) :=
  .next <| .whenOn fun _ => Frames.runOp_formed h

end Sys2Proof.Safety
end

section
/-! SUPPORT. The canonical form of shared SRAM and MRAM: the operations of the blocks, chapter by chapter. -/

namespace Sys2Proof.Frames

open Sys2Proof.Machine Sys2Proof.Safety Sys2Proof.Laws

/-! ### Shared operations -/

theorem aerReport_formed {bit : Nat} {o : LinkOut} {s : State} : Carries MemoryWf s (aerReport bit o s) :=
  .comp toHost_formed <| .apart unnamed_keeps rfl

theorem retireTurns_formed {s : State} : Carries MemoryWf s (retireTurns s) := .foldl fun _ _ => .ite .refl retireUnknown_formed

/-! ### Switch inputs (file 08) -/

theorem cleanDone_formed {n : Nat} {s : State} : Carries MemoryWf s (cleanDone n s) := by
  unfold cleanDone
  dsimp only
  split
  · exact .comp finish_formed <| .apart setSwi_keeps rfl
  · exact .refl

theorem startClean_formed {n : Nat} {uid : Option Nat} {s : State} : Carries MemoryWf s (startClean n uid s) :=
  .past setSwi_keeps rfl cleanDone_formed

theorem serveClean_formed {s : State} : Carries MemoryWf s (serveClean s) :=
  .ite .refl <| by
    split
    · exact startClean_formed
    · exact .refl

theorem endClean_formed {n : Nat} {s : State} : Carries MemoryWf s (endClean n s) :=
  .ite .refl <| .comp serveClean_formed <| .past setSwi_keeps rfl cleanDone_formed

theorem execCleaningPulseEnd_formed {n : Fin 48} {s : State} : OutCarries MemoryWf s (execCleaningPulseEnd n s) :=
  .next <| .whenOn fun _ => by
    split
    · exact .ite endClean_formed .refl
    · exact .refl

theorem swiReport_formed {n t : Nat} {parked : Bool} {s : State} : Carries MemoryWf s (swiReport n t parked s) :=
  .comp emitOnAt_formed <| .apart setSwi_keeps rfl

theorem swiSettle_formed {n now : Nat} {s : State} : Carries MemoryWf s (swiSettle n now s) := by
  unfold swiSettle
  dsimp only
  split
  · exact .refl
  · exact .ite .refl <|
      .comp (.ite (.ite (.ite startClean_formed <| .apart setSwi_keeps rfl) .refl) <| .comp endClean_formed <| .apart setSwi_keeps rfl) <|
      .past setSwi_keeps rfl <| .comp (.ite swiReport_formed .refl) <| .apart setSwi_keeps rfl

theorem readSwitch_formed {n : Nat} {x : SwiReading} {s : State} : Carries MemoryWf s (readSwitch n x s) :=
  .ite .refl <| .past setSwi_keeps rfl swiSettle_formed

theorem execWetThermal_formed {t : Int} {s : State} : OutCarries MemoryWf s (execWetThermal t s) :=
  .next <| .whenOn fun _ => .ite (.past (raise_keeps _ _ _) rfl <| .comp (.foldl fun _ _ => endClean_formed) <| .apart modSw_keeps rfl) <|
  .ite (.comp (.foldl fun _ _ => serveClean_formed) <| .apart modSw_keeps rfl) .refl

theorem dropClean_formed {n : Nat} {s : State} : Carries MemoryWf s (dropClean n s) := by
  unfold dropClean
  split
  · exact .comp finishFree_formed <| .comp endClean_formed <| .apart setSwi_keeps rfl
  · exact endClean_formed

theorem swCommit_formed {first : Bool} {old new : Mem} {s : State} : Carries MemoryWf s (swCommit first old new s) :=
  .comp (.foldl fun _ _ => .ite (.ite .refl <| .apart setSwi_keeps rfl) <| .comp dropClean_formed <| .apart setSwi_keeps rfl) <|
  .apart modSw_keeps rfl

/-! ### Body-builder I/O (file 09) -/

theorem fsEventAt_formed {ring code target d1 d2 time : Nat} {s : State} : Carries MemoryWf s (fsEventAt ring code target d1 d2 time s) :=
  .ite emitOnAt_formed <| .apart unnamed_keeps rfl

theorem fioEvent_formed {n code d1 d2 : Nat} {s : State} : Carries MemoryWf s (fioEvent n code d1 d2 s) := fsEventAt_formed

theorem fsEvent_formed {code d1 d2 : Nat} {s : State} : Carries MemoryWf s (fsEvent code d1 d2 s) := fsEventAt_formed

theorem supplyCond_formed {k v : Nat} {s : State} : Carries MemoryWf s (supplyCond k v s) :=
  .past fsRaise_keeps rfl <| .comp fsEvent_formed <| .past applyFios_keeps rfl <| .past modFs_keeps rfl <| .apart noteFl_keeps rfl

theorem fioChange_formed {n : Nat} {level initial stamped : Bool} {bounces i time : Nat} {s : State} :
    Carries MemoryWf s (fioChange n level initial stamped bounces i time s) := fsEventAt_formed

theorem fioSettle_formed {n now : Nat} {s : State} : Carries MemoryWf s (fioSettle n now s) := by
  unfold fioSettle
  dsimp only
  split
  · exact .refl
  · exact .ite .refl <| .comp (.ite (.apart edgeIn_keeps rfl) <| .ite fioChange_formed .refl) <| .apart setFio_keeps rfl

theorem readField_formed {n : Nat} {x : FioReading} {s : State} : Carries MemoryWf s (readField n x s) :=
  .ite .refl <| .past noteFioCur_keeps rfl <| .past setFio_keeps rfl fioSettle_formed

theorem fioTrace_formed {n : Nat} {l : List FioReading} {s : State} : Carries MemoryWf s (fioTrace n l s) :=
  .comp fioSettle_formed <| .foldl fun _ _ => readField_formed

theorem debounceField_formed {n : Fin 32} {l : List FioReading} {s : State} : Carries MemoryWf s (debounceField n l s) :=
  .ite .refl fioTrace_formed

theorem execFioWire_formed {n : Fin 32} {i since : Nat} {s : State} : OutCarries MemoryWf s (execFioWire n i since s) :=
  .next <|
  .onlyIf fun _ =>
    .comp (.ite (.past fsRaise_keeps rfl <| .comp fioEvent_formed <| .apart setFio_keeps rfl) <|
      .ite (.comp fioEvent_formed <| .apart setFio_keeps rfl) .refl) <|
    .apart noteFioCur_keeps rfl

theorem execEdgeQueueDelivery_formed {s : State} : OutCarries MemoryWf s (execEdgeQueueDelivery s) :=
  .next <| .onlyIf fun _ => by
    split
    · exact .refl
    · exact .comp (.ite (.comp fsEvent_formed <| .apart modFs_keeps rfl) .refl) <| .comp fioChange_formed <| .apart modFs_keeps rfl

/-! ### Rings (file 02) -/

theorem publishIdx_formed {n : Fin 64} {s : State} : Carries MemoryWf s (publishIdx n s) := .ite .refl ringWrite_formed

theorem stallDrop_formed {n : Fin 64} {s : State} : Carries MemoryWf s (stallDrop n s) := by
  unfold stallDrop
  dsimp only
  split
  · exact .refl
  · exact .comp setRing_formed <| .comp putRecord_formed <| .comp publishIdx_formed setRing_formed

theorem stallDropsInto_formed (c : Fin 64) : ∀ (k : Nat) (l : List (Fin 64)) (s : State), Carries MemoryWf s (stallDropsInto c k l s)
  | 0, [], _ => .refl
  | 0, _ :: _, _ => .refl
  | _ + 1, [], _ => .refl
  | k + 1, _ :: ns, _ => .ite (.comp (stallDropsInto_formed c k ns _) stallDrop_formed) <| stallDropsInto_formed c (k + 1) ns _

theorem doorbellWrite_formed {n : Fin 64} {v : Nat} {s : State} : Carries MemoryWf s (doorbellWrite n v s) :=
  .ite (.past (raise_keeps _ _ _) rfl setRing_formed) <| .ite .refl <| .comp watchStalls_formed <|
  .comp (.ite (.comp flushDrops_formed <| stallDropsInto_formed _ _ _ _) .refl) setRing_formed

theorem startRing_formed {n : Fin 64} {s : State} : Carries MemoryWf s (startRing n s) :=
  .ite (.comp watchStalls_formed setRing_formed) <| .past (raise_keeps _ _ _) rfl setRing_formed

theorem cancelPipe_formed (n : Fin 64) : ∀ (k : Nat) (s : State), Carries MemoryWf s (cancelPipe n k s)
  | 0, _ => .refl
  | k + 1, s => by
    unfold cancelPipe
    split
    · exact .comp (cancelPipe_formed n k _) <| .comp finishFree_formed <| .comp startRun_formed <| .comp popHead_formed <|
        .apart dropBlock_keeps rfl
    · exact .refl

theorem stopRing_formed {n : Fin 64} {s : State} : Carries MemoryWf s (stopRing n s) :=
  .ite .refl <| .ite (.ite setRing_formed setRing_formed) <| .ite .refl <| .comp (cancelPipe_formed _ _ _) setRing_formed

theorem ringCfgWrite_formed {n : Fin 64} {v : Nat} {s : State} : Carries MemoryWf s (ringCfgWrite n v s) :=
  .ite setRing_formed <| .ite (.ite stopRing_formed setRing_formed) <| .comp (.ite startRing_formed .refl) setRing_formed

theorem ringSetup_formed {n : Fin 64} {f : Machine.Ring → Machine.Ring} {s : State} : Carries MemoryWf s (ringSetup n f s) :=
  .ite setRing_formed setRing_formed

theorem ringSetupWrite_formed {n : Fin 64} {g : RingReg} {v : Nat} {s : State} : Carries MemoryWf s (ringSetupWrite n g v s) := by
  unfold ringSetupWrite
  split
  · exact ringSetup_formed
  · exact ringSetup_formed
  · exact ringSetup_formed
  · exact ringSetup_formed
  · exact ringSetup_formed
  · exact ringCfgWrite_formed

theorem sendRead_formed {t : Fin 128} {rd : Reader} {addr bytes : Nat} {s : State} : Carries MemoryWf s (sendRead t rd addr bytes s) :=
  recordFields_formed

theorem fetchFrom_formed {n : Fin 64} {k : Nat} {s : State} : Carries MemoryWf s (fetchFrom n k s) :=
  .comp watchStalls_formed <| .comp (.ite (.comp retireUnknown_formed <| .past (fabAccess_keeps _ _ _ _ _) rfl setRing_formed) <| by
    split
    · exact .refl
    · exact .comp sendRead_formed setRing_formed) <|
  .comp publishIdx_formed <| .comp setRing_formed recordFields_formed

theorem fetchNext_formed {s : State} : Carries MemoryWf s (fetchNext s) :=
  .ite .refl <| by
    split
    · exact .comp fetchFrom_formed <| .apart unnamed_keeps rfl
    · split
      · exact .comp fetchFrom_formed <| .apart unnamed_keeps rfl
      · exact .refl

theorem deliverFetch_formed {n : Fin 64} {first k : Nat} {bytes : List Byte} {s : State} :
    Carries MemoryWf s (deliverFetch n first k bytes s) := .comp (.ite (cancelPipe_formed _ _ _) retireUnknown_formed) setRing_formed

theorem failFetch_formed {n : Fin 64} {first k : Nat} {s : State} : Carries MemoryWf s (failFetch n first k s) :=
  .comp (by
      unfold failFetch
      dsimp only
      split
      · exact .refl
      · exact .comp (.ite (cancelPipe_formed _ _ _) retireUnknown_formed) <| .comp watchStalls_formed <| .comp flushDrops_formed <|
          .comp putRecord_formed setRing_formed) <|
  setRing_formed

/-! ### Host bridge (file 16) -/

theorem reportReadFail_formed {t : Nat} {rd : Reader} {addr bytes : Nat} {why : ReadFail} {s : State} :
    Carries MemoryWf s (reportReadFail t rd addr bytes why s) := .comp sendVector_formed emit_formed

theorem unconfirmed_formed {e cause addr : Nat} {s : State} : Carries MemoryWf s (unconfirmed e cause addr s) :=
  .past (raise_keeps _ _ _) rfl emit_formed

theorem sendConfirm_formed {t : Fin 128} {e addr : Nat} {s : State} : Carries MemoryWf s (sendConfirm t e addr s) := recordFields_formed

theorem sendConfirms_formed : ∀ (n : Nat) (s : State), Carries MemoryWf s (sendConfirms n s)
  | 0, _ => .refl
  | n + 1, s => by
    unfold sendConfirms
    split
    · exact .ite (.comp (sendConfirms_formed n _) <| .comp sendConfirm_formed <| .apart unnamed_keeps rfl) .refl
    · exact .refl

theorem serveConfirms_formed {s : State} : Carries MemoryWf s (serveConfirms s) := sendConfirms_formed _ _

theorem requesterFails_formed {rd : Reader} {addr : Nat} {why : ReadFail} {s : State} :
    Carries MemoryWf s (requesterFails rd addr why s) := by
  unfold requesterFails
  split
  · split
    · exact failFetch_formed
    · exact .refl
  · exact .apart modBlock_keeps rfl
  · exact .apart setAsked_keeps rfl
  · exact .apart setAsked_keeps rfl
  · exact unconfirmed_formed

theorem readFails_formed {t : Nat} {rd : Reader} {addr bytes : Nat} {why : ReadFail} {s : State} :
    Carries MemoryWf s (readFails t rd addr bytes why s) := .comp requesterFails_formed reportReadFail_formed

theorem deliver_formed {rd : Reader} {addr : Nat} {bs : List Byte} {s : State} : Carries MemoryWf s (deliver rd addr bs s) := by
  unfold deliver
  split
  · exact .comp (by
          dsimp only
          split
          · exact deliverFetch_formed
          · exact .refl) <| by
        split
        · exact .ite (.apart holdData_keeps rfl) .refl
        · exact .refl
  · exact .apart deliverBlock_keeps rfl
  · exact .apart deliverLoad_keeps rfl
  · exact .apart deliverLoad_keeps rfl
  · exact .refl

theorem readCompletion_formed {t : Fin 128} {r : ReadResult} {s : State} : Carries MemoryWf s (readCompletion t r s) := by
  unfold readCompletion
  split
  · dsimp only
    split
    · exact .ite (.comp serveConfirms_formed <| .comp deliver_formed <| .past setTag_keeps rfl <| .apart unnamed_keeps rfl) .refl
    · exact .ite .refl <| .comp serveConfirms_formed <| .comp readFails_formed <| .past setTag_keeps rfl <| .apart unnamed_keeps rfl
  · exact .comp aerReport_formed <| .apart unnamed_keeps rfl

theorem blockSend_formed {o : Origin} {op : Nat} {form : State → Desc → OpForm} {place : BlockPlace} {s : State} :
    Carries MemoryWf s (blockSend o op form place s) := by
  unfold blockSend
  split
  · exact .ite .refl <| .comp sendRead_formed recordFields_formed
  · exact .refl

/-- What an operation does once its block has come, or with status 0x13 where it could not be read (R393). -/
theorem blockArrived_formed {o : Origin} {uid : Nat} {place : Bool × Nat × Nat} {eff : List Byte → State → State} {s : State}
    (h : ∀ bs s, Carries MemoryWf s (eff bs s)) :
    Carries MemoryWf s (match blockBytes o place.1 place.2.1 place.2.2 s with | (some bs, s) => eff bs s | (none, s) => finishFree uid 0x13 s) := by
  have read : Carries MemoryWf s (blockBytes o place.1 place.2.1 place.2.2 s).2 := .apart blockBytes_keeps rfl
  rcases h' : blockBytes o place.1 place.2.1 place.2.2 s with ⟨_ | bs, t⟩ <;> rw [h'] at read
  · exact .comp finishFree_formed read
  · exact .comp (h bs t) read

theorem runBlockAt_formed {o : Origin} {op : Nat} {b : BlockStep} {place : BlockPlace} {form : State → Desc → OpForm}
    {eff : Desc → Nat → List Byte → State → State} {s : State} (h : ∀ d uid bs s, Carries MemoryWf s (eff d uid bs s)) :
    OutCarries MemoryWf s (runBlockAt o op b place form eff s) := by
  refine .next <| .whenOn fun s => ?_
  extract_lets s₁
  refine .comp (t := s₁) ?_ retireUnknown_formed
  cases b with
  | read => exact blockSend_formed
  | run => exact .onlyIf fun s => .past clearBlock_keeps rfl <| runOp_formed fun d uid _ => blockArrived_formed (h d uid)

theorem runBlock_formed {o : Origin} {op : Nat} {b : BlockStep} {form : State → Desc → OpForm}
    {eff : Desc → Nat → List Byte → State → State} {s : State} (h : ∀ d uid bs s, Carries MemoryWf s (eff d uid bs s)) :
    OutCarries MemoryWf s (runBlock o op b form eff s) := runBlockAt_formed h

theorem sendPending_formed {s : State} : Carries MemoryWf s (sendPending s) :=
  .foldl fun _ _ => .ite (.comp toHost_formed <| .apart unnamed_keeps rfl) .refl

theorem stopHostRings_formed {s : State} : Carries MemoryWf s (stopHostRings s) :=
  .comp recordFields_formed <| .foldl fun _ _ => .ite stopRing_formed .refl

theorem returnTags_formed {s : State} : Carries MemoryWf s (returnTags s) :=
  .comp (.foldl fun _ _ => unconfirmed_formed) <| .past unnamed_keeps rfl <| .foldl fun _ _ => by
    split
    · exact .comp readFails_formed <| .past setTag_keeps rfl <| .apart unnamed_keeps rfl
    · exact .refl

theorem linkLoss_formed {s : State} : Carries MemoryWf s (linkLoss s) :=
  .past hwPutAt_keeps rfl <| .past (raise_keeps _ _ _) rfl <| .comp stopHostRings_formed <| .comp returnTags_formed <|
  .apart unnamed_keeps rfl

theorem execTagTimeout_formed {tag : Fin 128} {s : State} : OutCarries MemoryWf s (execTagTimeout tag s) :=
  .next <| .whenOn fun _ => by
    split
    · exact .ite (.comp serveConfirms_formed <| .past firstTimeout_keeps rfl <| .comp readFails_formed <| .past setTag_keeps rfl <|
            .apart unnamed_keeps rfl) <|
        .refl
    · exact .refl

theorem execTagQuarantineEnd_formed {tag : Fin 128} {s : State} : OutCarries MemoryWf s (execTagQuarantineEnd tag s) :=
  .next <| .whenOn fun _ => by
    split
    · exact .ite (.comp serveConfirms_formed <| .apart setTag_keeps rfl) .refl
    · exact .refl

theorem xspiEnd_formed {op : XspiOp} {r : XspiResult} {s : State} : Carries MemoryWf s (xspiEnd op r s) :=
  .comp (by
      unfold xspiEnd
      dsimp only
      split
      · exact .comp finish_formed toBuffer_formed
      · exact .comp finish_formed <| .apart xspiMem_keeps rfl
      · exact .past (raise_keeps _ _ _) rfl <| .comp finish_formed <| .past xspiMem_keeps rfl <| .apart (freeBytes_keeps _ _) rfl
      · exact .comp finish_formed <| .apart xspiMem_keeps rfl) <|
  .apart unnamed_keeps rfl

theorem execXspiOperationEnd_formed {cs : Fin 2} {r : XspiResult} {s : State} : OutCarries MemoryWf s (execXspiOperationEnd cs r s) :=
  .next <| .whenOn fun _ => by
    split
    · exact .ite xspiEnd_formed .refl
    · exact .refl

/-! ### What the networks share (files 10 to 13) -/

theorem txEnds_formed {b : TxBuf} {status result cancelOut : Nat} {s : State} : Carries MemoryWf s (txEnds b status result cancelOut s) :=
  .comp (.foldl fun _ _ => finish_formed) <| by
    split
    · exact finish_formed
    · exact recordFields_formed
    · exact .refl

theorem releaseEndDone_formed {s : State} : Carries MemoryWf s (releaseEndDone s) := by
  unfold releaseEndDone
  split
  · exact .ite (.comp finish_formed <| .apart modAcc_keeps rfl) .refl
  · exact .refl

theorem relSent_formed {s : State} : Carries MemoryWf s (relSent s) := .comp releaseEndDone_formed <| .apart modAcc_keeps rfl

theorem txAllFail_formed {n src : Nat} {s : State} : Carries MemoryWf s (txAllFail n src s) :=
  .comp (.foldl fun _ _ => txEnds_formed) <| .apart setCan_keeps rfl

theorem setCounts_formed {n tec errs : Nat} {s : State} : Carries MemoryWf s (setCounts n tec errs s) :=
  .comp (.ite .refl <|
    .comp (.ite (.ite (.apart (raise_keeps _ _ _) rfl) .refl) <|
      .ite (.comp txAllFail_formed <| .past (raise_keeps _ _ _) rfl <| .apart setCan_keeps rfl) .refl) <|
    emit_formed) <|
  .apart setCan_keeps rfl

theorem segState_formed {b : Nat} {new : SegSt} {cause : Nat} {s : State} : Carries MemoryWf s (segState b new cause s) :=
  .comp emit_formed <| .apart setSeg_keeps rfl

theorem endSleep_formed {b status result : Nat} {s : State} : Carries MemoryWf s (endSleep b status result s) := by
  unfold endSleep
  split
  · exact .comp finish_formed <| .apart setSeg_keeps rfl
  · exact .refl

theorem segWake_formed {b cause : Nat} {ann : Bool} {s : State} : Carries MemoryWf s (segWake b cause ann s) :=
  .comp segState_formed <| .past setSeg_keeps rfl <| .comp (.ite (.apart setSeg_keeps rfl) .refl) <|
  .past withdrawGrant_keeps rfl endSleep_formed

theorem netWakeSrc_formed {b cause : Nat} {replayed : Bool} {word data time : Nat} {tsRt : Bool} {s : State} :
    Carries MemoryWf s (netWakeSrc b cause replayed word data time tsRt s) := emitAt_formed

/-! ### CAN FD (file 10) -/

theorem dropFrame_formed {n q ring : Nat} {s : State} : Carries MemoryWf s (dropFrame n q ring s) :=
  .comp (.ite (.apart (raise_keeps _ _ _) rfl) .refl) <| .comp (by
    split
    · exact setRing_formed
    · exact .refl) <|
  .apart modQueue_keeps rfl

theorem filterFrame_formed {n : Nat} {f : CanFrame} {sof : Nat} {own : Bool} {s : State} :
    Carries MemoryWf s (filterFrame n f sof own s) := by
  unfold filterFrame
  dsimp only
  cases matchPair (canSetAt s n sof).1 f with
  | none => exact .apart setCan_keeps rfl
  | some _ => exact .comp (.ite dropFrame_formed <| .apart setCan_keeps rfl) <| .apart modQueue_keeps rfl

theorem goodReceive_formed {n : Nat} {s : State} : Carries MemoryWf s (goodReceive n s) :=
  .ite .refl <| .ite (.comp setCounts_formed <| .apart unnamed_keeps rfl) <| .ite .refl setCounts_formed

theorem receiveError_formed {n lec add : Nat} {s : State} : Carries MemoryWf s (receiveError n lec add s) :=
  .comp (.ite setCounts_formed .refl) <| .apart setCan_keeps rfl

theorem takeFrame_formed {n : Nat} {f : CanFrame} {sof : Nat} {s : State} : Carries MemoryWf s (takeFrame n f sof s) := by
  unfold takeFrame
  extract_lets s₁ s₂
  refine .comp (t := s₂) ?_ <| .comp (.ite .refl <| .apart routeFrom_keeps rfl) <| .comp filterFrame_formed goodReceive_formed
  split
  · exact .comp (.ite segWake_formed .refl) <| .apart setSeg_keeps rfl
  · exact .ite segWake_formed .refl
  · exact .refl

theorem execFrameRecordWrite_formed {n : Fin 8} {s : State} : OutCarries MemoryWf s (execFrameRecordWrite n s) :=
  .next <| .whenOn fun _ => by
    split
    · exact .refl
    · exact .comp (by
            dsimp only
            split
            · exact dropFrame_formed
            · exact .ite (.comp watchStalls_formed <| .past modQueue_keeps rfl <| .foldl fun _ _ => .comp toPrograms_formed <|
                    putRecord_formed) <|
                dropFrame_formed) <|
        .apart setCan_keeps rfl

theorem sidBad_formed {n : Nat} {f : CanFrame} {s : State} : Carries MemoryWf s (sidBad n f s) :=
  .comp (by
      unfold sidBad
      dsimp only
      split
      · exact .ite (.past (raise_keeps _ _ _) rfl <| .comp emit_formed <| .apart setCan_keeps rfl) .refl
      · exact .refl) <|
  .apart setCan_keeps rfl

theorem transmitCounts_formed {n tec : Nat} {s : State} : Carries MemoryWf s (transmitCounts n tec s) := .ite setCounts_formed .refl

theorem execFrameTransmitted_formed {n : Fin 8} {edges : List Nat} {s : State} :
    OutCarries MemoryWf s (execFrameTransmitted n edges s) := by
  refine .next <| .whenOn fun s => ?_
  split
  · exact .refl
  refine .ite .refl ?_
  extract_lets s₁ s₂ s₃ s₄
  refine .comp (t := s₄) ?_ <| .comp (.ite filterFrame_formed .refl) <| .comp transmitCounts_formed <| .past sidGood_keeps rfl <|
    .past measure_keeps rfl <| .past setCan_keeps rfl <| .apart dropBuf_keeps rfl
  split
  · exact .apart routeForwarded_keeps rfl
  · exact .apart setSeg_keeps rfl
  · exact relSent_formed
  · exact txEnds_formed

theorem attemptOver_formed {n : Nat} {b : TxBuf} {outcome : Nat} {s : State} : Carries MemoryWf s (attemptOver n b outcome s) :=
  .comp (by
      unfold attemptOver
      dsimp only
      split
      · exact .comp txEnds_formed <| .apart dropBuf_keeps rfl
      · split
        · split
          · exact .past routeDrop_keeps rfl <| .apart dropBuf_keeps rfl
          · exact .refl
        · exact .ite (.comp txEnds_formed <| .apart dropBuf_keeps rfl) <| .ite (.comp txEnds_formed <| .apart dropBuf_keeps rfl) .refl) <|
  .apart setCan_keeps rfl

theorem txError_formed {n : Nat} {exempt : Bool} {s : State} : Carries MemoryWf s (txError n exempt s) := .ite .refl transmitCounts_formed

theorem execTransmitAttemptFailed_formed {n : Fin 8} {why : AttemptFail} {edges : Option (List Nat)} {s : State} :
    OutCarries MemoryWf s (execTransmitAttemptFailed n why edges s) :=
  .next <| .whenOn fun _ => by
    split
    · exact .refl
    · exact .comp (by
            dsimp only
            split
            · exact attemptOver_formed
            · exact .comp txError_formed <| .comp attemptOver_formed <| .comp (.ite sidBad_formed .refl) <| .apart setCan_keeps rfl) <| by
          split
          · exact .apart measure_keeps rfl
          · exact .refl

theorem execCancelErrorFlag_formed {n : Fin 8} {s : State} : OutCarries MemoryWf s (execCancelErrorFlag n s) :=
  .next <| .whenOn fun _ => by
    split
    · exact .refl
    · split
      · exact .ite (.comp txError_formed attemptOver_formed) .refl
      · exact .refl

theorem registerStop_formed {n : Nat} {b : TxBuf} {timeout : Bool} {cancel : Option Nat} {s : State} :
    Carries MemoryWf s (registerStop n b timeout cancel s) := by
  unfold registerStop
  split
  · exact .ite (.apart setCan_keeps rfl) <| .comp txEnds_formed <| .apart dropBuf_keeps rfl
  · exact .comp txEnds_formed <| .apart dropBuf_keeps rfl

theorem execCanTxCancel_formed {o : Origin} {s : State} : OutCarries MemoryWf s (execCanTxCancel o s) :=
  .operation fun _ _ _ => by
    split
    · exact finish_formed
    · exact registerStop_formed

theorem execReceiveError_formed {n : Fin 8} {why : RxError} {eight : Bool} {s : State} :
    OutCarries MemoryWf s (execReceiveError n why eight s) :=
  .next <| .whenOn fun _ => .onlyIf fun _ => .comp (.ite .refl <| by
    split
    · exact receiveError_formed
    · exact .ite (.apart setCan_keeps rfl) receiveError_formed) <| .apart busActive_keeps rfl

/-! ### LIN and gateway (file 11) -/

theorem linEvent_formed {n code d1 d2 : Nat} {s : State} : Carries MemoryWf s (linEvent n code d1 d2 s) := emit_formed

theorem switchSched_formed {n : Nat} {new : Option Nat} {coll : Bool} {s : State} : Carries MemoryWf s (switchSched n new coll s) :=
  .comp linEvent_formed <| .apart setLin_keeps rfl

theorem takeScheds_formed (n : Nat) :
    ∀ (atEnd : Bool) (l : List (Nat × Nat × Bool)) (s : State), Carries MemoryWf s (takeScheds n atEnd l s)
  | _, [], _ => .refl
  | atEnd, (_, sch, _) :: rest, _ => .ite (takeScheds_formed n atEnd rest _) <| .comp (takeScheds_formed n (sch == 0xFF) rest _) <|
    .comp finish_formed <| .comp switchSched_formed <| .apart setLin_keeps rfl

theorem restartSched_formed {n : Nat} {s : State} : Carries MemoryWf s (restartSched n s) :=
  .comp (by
      unfold restartSched
      dsimp only
      split
      · exact .comp switchSched_formed <| .apart setLin_keeps rfl
      · exact .refl) <|
  .apart setLin_keeps rfl

theorem endSlot_formed {n : Nat} {s : State} : Carries MemoryWf s (endSlot n s) := by
  unfold endSlot
  extract_lets l good s₁ last s₂ l₂
  refine .comp (t := s₂) ?_ <| .comp (.ite .refl <| takeScheds_formed _ _ _ _) <| .apart setLin_keeps rfl
  split
  · split
    · exact .comp switchSched_formed <| .apart setLin_keeps rfl
    · exact .apart setLin_keeps rfl
  · split
    · exact .refl
    refine .ite .refl ?_
    split
    · exact .past setLin_keeps rfl <| .comp switchSched_formed <| .apart setLin_keeps rfl
    · exact .apart setLin_keeps rfl

theorem linFrame_formed {n i kind f : Nat} {s : State} : Carries MemoryWf s (linFrame n i kind f s) :=
  .ite (by
    split
    · exact .comp finish_formed <| .past setLin_keeps rfl <| .apart linSends_keeps rfl
    · exact .refl) <|
  .ite (.apart setLin_keeps rfl) <| .comp (.ite (.apart setPub_keeps rfl) .refl) <| .past linSends_keeps rfl <| .apart pubLatch_keeps rfl

theorem startSlot_formed {n : Nat} {s : State} : Carries MemoryWf s (startSlot n s) := by
  unfold startSlot
  extract_lets start s₁ pos
  refine .comp (t := s₁) ?_ endSlot_formed
  split
  · exact .refl
  extract_lets i kind fid s₂
  refine .comp (t := s₂) ?_ <| .apart setLin_keeps rfl
  cases hf : fid
  · exact .refl
  · exact linFrame_formed

theorem startSleepCmd_formed {n : Nat} {s : State} : Carries MemoryWf s (startSleepCmd n s) :=
  .comp (.foldl fun _ _ => finishFree_formed) <| .past linSends_keeps rfl <| .past setLin_keeps rfl endSlot_formed

theorem execLinRx_formed {n : Fin 8} {data : List Byte} {cks : Byte} {s : State} : OutCarries MemoryWf s (execLinRx n data cks s) :=
  .next <| .whenOn fun _ => by
    split
    · exact .refl
    · exact .ite .refl <| .past routeFrom_keeps rfl <| .comp emitAt_formed <| .past setPub_keeps rfl <| .apart setLin_keeps rfl

theorem execLinErr_formed {n : Fin 8} {code : Fin 7} {got : Nat} {header : Bool} {s : State} :
    OutCarries MemoryWf s (execLinErr n code got header s) :=
  .next <| .whenOn fun _ => by
    split
    · exact .refl
    · exact .ite .refl <|
        .comp (.ite (.apart (raise_keeps _ _ _) rfl) <| .ite (.apart (raise_keeps _ _ _) rfl) <|
          .ite (.apart (raise_keeps _ _ _) rfl) .refl) <|
        .comp emit_formed <| .past setLin_keeps rfl <| .apart setPub_keeps rfl

theorem execGwDrop_formed {r : Nat} {s : State} : OutCarries MemoryWf s (execGwDrop r s) :=
  .next <| .whenOn fun _ => by
    dsimp only
    split
    · exact .ite (.comp emit_formed <| .apart setRoute_keeps rfl) .refl
    · exact .refl

/-! ### Network sleep (file 12) -/

theorem segStarts_formed {b : Nat} {low : Bool} {s : State} : Carries MemoryWf s (segStarts b low s) :=
  .ite (.ite (.apart setCan_keeps rfl) .refl) <| .comp (.ite switchSched_formed <| .apart setLin_keeps rfl) <| .apart setLin_keeps rfl

theorem execNetSleep_formed {o : Origin} {s : State} : OutCarries MemoryWf s (execNetSleep o s) := by
  refine .operation fun d uid s => ?_
  extract_lets b s₁ s₂ s₃ run idle gone s₄ s₅ n s₆
  refine .comp (t := s₃) ?_ <| .comp segState_formed <| .past setSeg_keeps rfl <| .ite (.apart setCan_keeps rfl) .refl
  refine .ite (.past gwDropFor_keeps rfl <| .comp (.foldl fun _ _ => txEnds_formed) <| .apart setCan_keeps rfl) ?_
  subst s₆
  split
  · exact .comp finishFree_formed <| .apart setLin_keeps rfl
  · exact .refl

theorem execAgreeTimeout_formed {b : Fin 16} {s : State} : OutCarries MemoryWf s (execAgreeTimeout b s) :=
  .next <| .whenOn fun _ => by
    split
    · exact .ite (.past (raise_keeps _ _ _) rfl <| .comp finishFree_formed <| .apart setSeg_keeps rfl) .refl
    · exact .refl

theorem wakeSeen_formed {b cause word data : Nat} {s : State} : Carries MemoryWf s (wakeSeen b cause word data s) :=
  .past (modPw_keeps _ _) rfl <| .comp netWakeSrc_formed segWake_formed

theorem execDecoderErrorCount_formed {x : DecodedFrame} {s : State} : OutCarries MemoryWf s (execDecoderErrorCount x s) :=
  .next <|
  .ite .refl <|
  .comp (.ite (.apart setSeg_keeps rfl) <|
    .whenOn fun _ =>
      .onlyIf fun _ =>
        .ite (.apart setSeg_keeps rfl) <| .past (raise_keeps _ _ _) rfl <| .comp wakeSeen_formed <| .apart setSeg_keeps rfl) <|
  .apart decoderActive_keeps rfl

theorem execSegmentAwake_formed {b : Fin 16} {s : State} : OutCarries MemoryWf s (execSegmentAwake b s) :=
  .next <| .whenOn fun _ => .ite .refl <| .comp (.ite (.apart (raise_keeps _ _ _) rfl) .refl) <| .comp (.foldl fun _ _ => finish_formed) <|
  .comp segStarts_formed <| .comp segState_formed <| .apart setSeg_keeps rfl

theorem execNetAnnounce_formed {n : Fin 8} {s : State} : OutCarries MemoryWf s (execNetAnnounce n s) :=
  .next <| .whenOn fun _ => by
    split
    · exact .comp emit_formed <| .apart annOver_keeps rfl
    · exact .ite (.comp emit_formed <| .apart annOver_keeps rfl) .refl
    · exact .refl

theorem execMaxAwake_formed {b : Fin 16} {s : State} : OutCarries MemoryWf s (execMaxAwake b s) :=
  .next <| .whenOn fun _ => by
    dsimp only
    split
    · exact .ite .refl <| .past (raise_keeps _ _ _) rfl <| .past hwPutAt_keeps rfl <| .past gwDropFor_keeps rfl <|
        .comp (.ite (.apart setCan_keeps rfl) .refl) <| .comp endSleep_formed <| .comp segState_formed <| .apart setSeg_keeps rfl
    · exact .refl

theorem linRemoved_formed {n : Nat} {s : State} : Carries MemoryWf s (linRemoved n s) :=
  .comp (by
      unfold linRemoved
      dsimp only
      split
      · exact finishFree_formed
      · exact .refl) <|
  .comp (.foldl fun _ _ => finishFree_formed) <| .apart setLin_keeps rfl

theorem dropScheds_formed {n : Nat} {s : State} : Carries MemoryWf s (dropScheds n s) :=
  .comp (.foldl fun _ _ => finishFree_formed) <| .apart setLin_keeps rfl

theorem nsCommit_formed {first : Bool} {tick : Nat} {old new : Vector Mem 16} {oldPairs : Vector (List Pair) 8} {s : State} :
    Carries MemoryWf s (nsCommit first tick old new oldPairs s) :=
  .comp (.ite .refl <|
    .foldl fun _ _ =>
      .comp (.ite .refl <| .comp (.ite .refl switchSched_formed) restartSched_formed) <|
      .comp (.foldl fun _ _ => .comp (.foldl fun _ _ => .apart routeSuperseded_keeps rfl) <| .apart setPub_keeps rfl) <|
      dropScheds_formed) <|
  .comp (.foldl fun _ _ =>
      .ite .refl <|
      .comp (.foldl fun _ _ => txEnds_formed) <|
      .past gwDropCan_keeps rfl <| .comp (.ite (.apart setSeg_keeps rfl) .refl) <| .apart setCan_keeps rfl) <|
  .comp (.foldl fun _ _ =>
      .comp (.ite (.comp segStarts_formed <| .comp segState_formed <| .apart setSeg_keeps rfl) <|
        .ite (.past setSeg_keeps rfl <| .comp (.ite linRemoved_formed .refl) <| .comp (.foldl fun _ _ =>
            finishFree_formed) endSleep_formed) <|
        .refl) <|
      .apart setSeg_keeps rfl) <|
  .apart modNs_keeps rfl

theorem nsLinkLost_formed {src : Nat} {s : State} : Carries MemoryWf s (nsLinkLost src s) := by
  unfold nsLinkLost
  exact .past modNs_keeps rfl <| .foldl fun _ _ => txAllFail_formed

theorem nsLinkBack_formed {s : State} : Carries MemoryWf s (nsLinkBack s) := by
  unfold nsLinkBack
  exact .past modNs_keeps rfl <| .foldl fun _ _ => restartSched_formed

theorem netReplay_formed {s : State} : Carries MemoryWf s (netReplay s) :=
  .foldl fun _ _ => by
    split
    · exact .comp segWake_formed <| .comp netWakeSrc_formed <| .comp (.ite (.apart (raise_keeps _ _ _) rfl) .refl) <|
        .apart setSeg_keeps rfl
    · exact .refl

/-! ### Access and immobiliser (file 13) -/

theorem accEvent_formed {code target d1 d2 : Nat} {s : State} : Carries MemoryWf s (accEvent code target d1 d2 s) := emit_formed

theorem endRelSession_formed {cause door : Nat} {s : State} : Carries MemoryWf s (endRelSession cause door s) := by
  unfold endRelSession
  split
  · exact .comp accEvent_formed <| .apart modAcc_keeps rfl
  · exact .refl

theorem beginRelease_formed {basis : Nat} {s : State} : Carries MemoryWf s (beginRelease basis s) :=
  .comp accEvent_formed <| .comp releaseEndDone_formed <| .past modAcc_keeps rfl <| .past relWithdraw_keeps rfl <|
  .ite .refl endRelSession_formed

theorem nextCoil_formed {s : State} : Carries MemoryWf s (nextCoil s) := by
  unfold nextCoil
  split
  · exact .refl
  · exact .comp (by
          dsimp only
          split
          · exact .apart setOp_keeps rfl
          · exact .comp (.ite (.comp finish_formed beginRelease_formed) <| .ite finish_formed finish_formed) <| .apart airEnd_keeps rfl) <|
      .apart modAcc_keeps rfl

theorem nextHead_formed {s : State} : Carries MemoryWf s (nextHead s) := by
  unfold nextHead
  split
  · exact .refl
  · split
    · exact .apart setOp_keeps rfl
    · exact .ite nextCoil_formed <| .ite (.apart setOp_keeps rfl) <| .comp nextCoil_formed <| .apart (raise_keeps _ _ _) rfl

theorem airFails_formed {raised noAnswer : Bool} {s : State} : Carries MemoryWf s (airFails raised noAnswer s) := by
  unfold airFails
  split
  · exact .refl
  extract_lets s₁
  refine .comp (t := s₁) ?_ <| .ite (.apart (raise_keeps _ _ _) rfl) .refl
  split
  · exact .apart setOp_keeps rfl
  · exact .apart setOp_keeps rfl
  · exact .ite (.comp finishFree_formed <| .apart airEnd_keeps rfl) <| .comp finish_formed <| .apart airEnd_keeps rfl

theorem execFieldStart_formed {i : Nat} {s : State} : OutCarries MemoryWf s (execFieldStart i s) :=
  .next <| .whenOn fun _ => by
    split
    · exact .refl
    · exact .ite .refl <|
        .comp (.ite (.past setOp_keeps rfl <| .apart modAcc_keeps rfl) <|
          .comp nextCoil_formed <|
          .past setOp_keeps rfl <| .past (raise_keeps _ _ _) rfl <| .comp accEvent_formed <| .apart modAcc_keeps rfl) <|
        .apart modAcc_keeps rfl

theorem execHalt_formed {s : State} : OutCarries MemoryWf s (execHalt s) :=
  .next <| .whenOn fun _ => by
    split
    · exact .refl
    · exact .ite .refl <| .comp (by
      dsimp only
      split
      · exact .comp nextHead_formed <| .apart setOp_keeps rfl
      · exact .comp nextHead_formed <| .apart setOp_keeps rfl
      · exact .comp finish_formed <| .apart airEnd_keeps rfl) <| .apart modAcc_keeps rfl

theorem slotAnswer_formed {o : AirOp} {k start : Nat} {a : TokenAnswer} {s : State} : Carries MemoryWf s (slotAnswer o k start a s) := by
  unfold slotAnswer
  dsimp only
  split
  · exact .ite (.ite (.apart setOp_keeps rfl) <| .comp nextHead_formed <| .apart setOp_keeps rfl) .refl
  · exact .ite (.ite (.past setOp_keeps rfl <| .apart setOp_keeps rfl) <| .comp nextHead_formed <| .past setOp_keeps rfl <|
          .apart setOp_keeps rfl) <|
      .refl
  · exact .ite .refl <| by
        split
        · exact .ite (.past setOp_keeps rfl <| .apart setOp_keeps rfl) <| .comp nextHead_formed <| .past setOp_keeps rfl <|
            .apart setOp_keeps rfl
        · exact .comp (.ite (.past setOp_keeps rfl <| .apart setOp_keeps rfl) <|
              .comp nextHead_formed <| .past setOp_keeps rfl <| .apart setOp_keeps rfl) <|
            .ite (.apart (raise_keeps _ _ _) rfl) .refl

theorem tokenFound_formed {o : AirOp} {s : State} : Carries MemoryWf s (tokenFound o s) :=
  .comp finish_formed <| .comp (.ite beginRelease_formed .refl) <| .apart airEnd_keeps rfl

theorem answerLate_formed {s : State} : Carries MemoryWf s (answerLate s) := by
  unfold answerLate
  split
  · exact .refl
  · exact .comp (by
          dsimp only
          split
          · exact airFails_formed
          · exact airFails_formed
          · exact .apart setOp_keeps rfl) <|
      .apart (raise_keeps _ _ _) rfl

theorem exchange_formed {o : AirOp} {len : Nat} {a : TokenAnswer} {ok : List Byte → State → State} {s : State}
    (h : ∀ p s, Carries MemoryWf s (ok p s)) : Carries MemoryWf s (exchange o len a ok s) := by
  unfold exchange
  split
  · exact .ite airFails_formed .refl
  · exact .ite (.comp airFails_formed <| .apart setOp_keeps rfl) .refl
  · refine .ite .refl <| .ite (.comp answerLate_formed <| .apart setOp_keeps rfl) ?_
    split
    · exact .comp airFails_formed <| .apart setOp_keeps rfl
    · exact .comp (h _ _) <| .apart setOp_keeps rfl

theorem execTokenAnswer_formed {a : TokenAnswer} {s : State} : OutCarries MemoryWf s (execTokenAnswer a s) :=
  .next <| .whenOn fun _ => by
    split
    · exact .refl
    · split
      · exact slotAnswer_formed
      · exact exchange_formed fun _ _ => .ite (.apart setOp_keeps rfl) airFails_formed
      · exact exchange_formed fun _ _ => .ite (.ite tokenFound_formed <| .apart setOp_keeps rfl) airFails_formed
      · exact exchange_formed fun _ _ => .ite (.comp finish_formed <| .apart airEnd_keeps rfl) airFails_formed
      · exact .refl

theorem endRelease_formed {uid : Option Nat} {s : State} : Carries MemoryWf s (endRelease uid s) := by
  unfold endRelease
  split
  · exact .refl
  · exact .past modAcc_keeps rfl accEvent_formed

theorem execKeyWrite_formed {o : Origin} {b : BlockStep} {s : State} : OutCarries MemoryWf s (execKeyWrite o b s) :=
  runBlock_formed fun _ _ _ _ => by
    dsimp only
    split
    · exact .comp finishFree_formed <| .apart (raise_keeps _ _ _) rfl
    · exact .ite finishFree_formed <| .comp finishRecorded_formed <| .comp (.ite (.apart modAcc_keeps rfl) .refl) <|
        .apart keysField_keeps rfl

theorem execReleaseFrame_formed {s : State} : OutCarries MemoryWf s (execReleaseFrame s) :=
  .next <| .whenOn fun _ => by
    split
    · exact .ite (.past relPut_keeps rfl <| .past modAcc_keeps rfl <| .apart relWithdraw_keeps rfl) .refl
    · exact .ite (.comp (.ite releaseEndDone_formed <| .past relPut_keeps rfl <| .apart modAcc_keeps rfl) <|
            .past modAcc_keeps rfl <| .apart relWithdraw_keeps rfl) <|
        .refl

theorem doorOpened_formed {n : Nat} {before after : Swi} {s : State} : Carries MemoryWf s (doorOpened n before after s) :=
  .ite (.ite endRelSession_formed endRelSession_formed) .refl

theorem withDoor_formed {n : Nat} {f : State → State} {s : State} (h : ∀ s, Carries MemoryWf s (f s)) :
    Carries MemoryWf s (withDoor n f s) := .comp doorOpened_formed (h s)

theorem swiTrace_formed {n : Nat} {l : List SwiReading} {s : State} : Carries MemoryWf s (swiTrace n l s) :=
  .comp (withDoor_formed fun _ => swiSettle_formed) <| .foldl fun _ _ => withDoor_formed fun _ => readSwitch_formed

theorem execDebounceComplete_formed {n : DebIn} {t : DebTrace} {s : State} : OutCarries MemoryWf s (execDebounceComplete n t s) :=
  .next <| by
    split
    · exact .whenOn fun _ => swiTrace_formed
    · exact .whenClocked fun _ => debounceField_formed
    · exact .refl

theorem lfSafe_formed {src n : Nat} {s : State} : Carries MemoryWf s (lfSafe src n s) := by
  unfold lfSafe
  split
  · exact .ite (.comp finish_formed <| .apart airEnd_keeps rfl) .refl
  · exact .refl

theorem relSafe_formed {s : State} : Carries MemoryWf s (relSafe s) := .ite .refl endRelease_formed

theorem asReportLost_formed {s : State} : Carries MemoryWf s (asReportLost s) := .ite .refl <| .comp emit_formed <| .apart modAcc_keeps rfl

/-! ### What load channels and wire fusing share (files 04 and 05) -/

theorem lchEvent_formed {n code d1 d2 : Nat} {s : State} : Carries MemoryWf s (lchEvent n code d1 d2 s) := emitOn_formed

theorem noteLimit_formed {n : Nat} {was : Bool} {s : State} : Carries MemoryWf s (noteLimit n was s) := .ite .refl lchEvent_formed

theorem noteSat_formed {n : Nat} {was : Bool} {s : State} : Carries MemoryWf s (noteSat n was s) := .ite .refl lchEvent_formed

theorem newPeriod_formed {n : Nat} {s : State} : Carries MemoryWf s (newPeriod n s) :=
  .past syncGang_keeps rfl <| .comp noteSat_formed <| .comp noteLimit_formed <| .apart setLch_keeps rfl

theorem turnOff_formed {n : Nat} {s : State} : Carries MemoryWf s (turnOff n s) :=
  .past syncGang_keeps rfl <| .comp noteSat_formed <| .comp noteLimit_formed <| .apart setLch_keeps rfl

theorem turnOn_formed {n m d : Nat} {s : State} : Carries MemoryWf s (turnOn n m d s) :=
  .past forceLeaves_keeps rfl <| .comp newPeriod_formed <| .apart setLch_keeps rfl

theorem endWaits_formed {l : List NextReq} {status : Nat} {src : Option Nat} {s : State} : Carries MemoryWf s (endWaits l status src s) :=
  .foldl fun _ _ => by
    split
    · exact finish_formed
    · exact finishFree_formed
    · exact .refl

theorem tookState_formed {n : Nat} {l : List NextReq} {m d : Nat} {wasOff : Bool} {s : State} :
    Carries MemoryWf s (tookState n l m d wasOff s) :=
  .past setLch_keeps rfl <| .foldl fun _ _ => by
    split
    · exact .ite finish_formed finishFree_formed
    · exact .refl

theorem applyLch_formed {n : Nat} {s : State} : Carries MemoryWf s (applyLch n s) :=
  .ite (.comp (.ite (.comp endWaits_formed <| .apart setLch_keeps rfl) .refl) <| .ite .refl turnOff_formed) <|
  .ite (.comp tookState_formed <| .comp turnOn_formed <| .apart setLch_keeps rfl) <| .ite .refl <| .apart setLch_keeps rfl

theorem takeWaits_formed {n : Nat} {s : State} : Carries MemoryWf s (takeWaits n s) := by
  unfold takeWaits
  dsimp only
  split
  · exact newPeriod_formed
  · exact .comp tookState_formed <| .comp newPeriod_formed <| .apart setLch_keeps rfl

theorem asked_formed {n uid : Nat} {timedMs : Option Nat} {wasOff : Bool} {s : State} :
    Carries MemoryWf s (asked n uid timedMs wasOff s) := by
  unfold asked
  dsimp only
  split
  · exact .apart setLch_keeps rfl
  · exact .ite finish_formed <| .apart setLch_keeps rfl

theorem endTimed_formed {n status : Nat} {src : Option Nat} {s : State} : Carries MemoryWf s (endTimed n status src s) := by
  unfold endTimed
  split
  · exact .refl
  · exact .comp (by
          dsimp only
          split
          · exact finish_formed
          · exact finishFree_formed) <|
      .apart setLch_keeps rfl

theorem lchSafe_formed {src n : Nat} {s : State} : Carries MemoryWf s (lchSafe src n s) :=
  .ite .refl <| .comp (.ite (.past resumeDwell_keeps rfl newPeriod_formed) <| .apart syncGang_keeps rfl) <|
  .comp (.ite (.apart setLch_keeps rfl) .refl) <| .comp applyLch_formed <| .past setLch_keeps rfl <| .comp endWaits_formed <|
  .past setLch_keeps rfl endTimed_formed

theorem lchUnsafe_formed {n : Nat} {s : State} : Carries MemoryWf s (lchUnsafe n s) :=
  .ite .refl <| .past syncGang_keeps rfl <| .comp applyLch_formed <| .apart setLch_keeps rfl

theorem protOff_formed {m cause cur : Nat} {s : State} : Carries MemoryWf s (protOff m cause cur s) :=
  .comp (.ite (.comp endTimed_formed <| .past (raise_keeps _ _ _) rfl lchEvent_formed) .refl) <| .comp endWaits_formed <|
  .comp applyLch_formed <| .comp (.ite (.apart setLch_keeps rfl) .refl) <| .past setLch_keeps rfl <|
  .past (raise_keeps _ _ _) rfl lchEvent_formed

theorem tryRestart_formed {n : Nat} {s : State} : Carries MemoryWf s (tryRestart n s) :=
  .ite .refl <| .ite .refl <| .ite (.past syncGang_keeps rfl <| .comp applyLch_formed <| .apart setLch_keeps rfl) <|
  .comp lchEvent_formed <| .past syncGang_keeps rfl <| .comp applyLch_formed <| .apart setLch_keeps rfl

/-! ### Bridges (file 06) -/

theorem hbEvent_formed {h code d1 d2 : Nat} {s : State} : Carries MemoryWf s (hbEvent h code d1 d2 s) := emitOn_formed

theorem finishOp_formed {h : Nat} {o : BrOp} {s : State} : Carries MemoryWf s (finishOp h o s) :=
  .comp (by
      unfold finishOp
      dsimp only
      split
      · exact finish_formed
      · exact .refl) <| by
    split
    · exact finish_formed
    · exact .refl

theorem dropOp_formed {h : Nat} {f : BrOp → BrOp} {s : State} : Carries MemoryWf s (dropOp h f s) := by
  unfold dropOp
  split
  · exact .comp finishOp_formed <| .apart setHb_keeps rfl
  · exact .refl

theorem coastEnd_formed {h : Nat} {s : State} : Carries MemoryWf s (coastEnd h s) :=
  .comp dropOp_formed <| .past mirrorPos_keeps rfl <| .apart toCoast_keeps rfl

theorem endNow_formed {h status reason src : Nat} {s : State} : Carries MemoryWf s (endNow h status reason src s) :=
  .comp coastEnd_formed <| .apart endsWith_keeps rfl

theorem inEffect_formed {h : Nat} {s : State} : Carries MemoryWf s (inEffect h s) := by
  unfold inEffect
  split
  · exact .ite (.comp finishOp_formed <| .apart setHb_keeps rfl) .refl
  · exact .refl

theorem takeDuty_formed {h : Nat} {s : State} : Carries MemoryWf s (takeDuty h s) := .comp inEffect_formed <| .apart setHb_keeps rfl

theorem startDrive_formed {h dir : Nat} {s : State} : Carries MemoryWf s (startDrive h dir s) :=
  .comp takeDuty_formed <| .apart setHb_keeps rfl

theorem driveDir_formed {h dir : Nat} {s : State} : Carries MemoryWf s (driveDir h dir s) := by
  unfold driveDir
  extract_lets b s₁
  refine .ite (.comp (t := s₁) ?_ <| .apart setHb_keeps rfl) <| .ite startDrive_formed ?_
  · split
    · exact .ite takeDuty_formed <| .apart setHb_keeps rfl
    · exact .refl
  · split
    · exact .apart setHb_keeps rfl
    · exact .apart brakeFor_keeps rfl

theorem replaced_formed {h : Nat} {s : State} : Carries MemoryWf s (replaced h s) := dropOp_formed

theorem startOp_formed {h : Nat} {o : BrOp} {s : State} : Carries MemoryWf s (startOp h o s) := .past setHb_keeps rfl replaced_formed

theorem withBridge_formed {d : Desc} {f : BrCfg → State → State} {s : State} (h : ∀ c s, Carries MemoryWf s (f c s)) :
    Carries MemoryWf s (withBridge d f s) := by
  unfold withBridge
  split
  · exact h _ s
  · exact .refl

theorem brDone_formed {d : Desc} {uid : Nat} {c : BrCfg} {s : State} : Carries MemoryWf s (brDone d uid c s) := finish_formed

theorem execBrDrive_formed {o : Origin} {s : State} : OutCarries MemoryWf s (execBrDrive o s) :=
  .operation fun _ _ _ => withBridge_formed fun _ _ => by
    dsimp only
    split
    · exact .comp brDone_formed <| .comp coastEnd_formed replaced_formed
    · exact .comp brDone_formed <| .past brakeHold_keeps rfl startOp_formed
    · exact .comp driveDir_formed startOp_formed

theorem execWiperSet_formed {o : Origin} {s : State} : OutCarries MemoryWf s (execWiperSet o s) :=
  .operation fun _ _ _ => withBridge_formed fun _ _ => by
    dsimp only
    split
    · exact .past setHb_keeps rfl finishOp_formed
    · exact .comp driveDir_formed startOp_formed

theorem endSet_formed {h status : Nat} {s : State} : Carries MemoryWf s (endSet h status s) := by
  unfold endSet
  split
  · exact .comp finish_formed <| .apart setHb_keeps rfl
  · exact .refl

theorem applyHb_formed {h : Nat} {s : State} : Carries MemoryWf s (applyHb h s) :=
  .ite .refl <| .comp (.ite endSet_formed .refl) <| .apart setHb_keeps rfl

theorem dutyIn_formed {h : Nat} {s : State} : Carries MemoryWf s (dutyIn h s) := .ite takeDuty_formed applyHb_formed

theorem dutyTick_formed {s : State} : Carries MemoryWf s (dutyTick s) := .foldl fun _ _ => dutyIn_formed

theorem hbTrip_formed {leg cause cur : Nat} {s : State} : Carries MemoryWf s (hbTrip leg cause cur s) :=
  .comp (.ite endNow_formed <| .comp applyHb_formed endSet_formed) <| .past setHb_keeps rfl <|
  .comp (.ite .refl <| .apart setHb_keeps rfl) <| .past (raise_keeps _ _ _) rfl hbEvent_formed

theorem dieHotHbs_formed {b : Nat} {s : State} : Carries MemoryWf s (dieHotHbs b s) :=
  .foldl fun _ _ => .ite (.past setHb_keeps rfl hbTrip_formed) .refl

theorem pinchReact_formed {h iRip : Nat} {s : State} : Carries MemoryWf s (pinchReact h iRip s) :=
  .past brakeFor_keeps rfl <| .past setHb_keeps rfl <| .past (raise_keeps _ _ _) rfl hbEvent_formed

theorem pinchJudge_formed {h i v : Nat} {s : State} : Carries MemoryWf s (pinchJudge h i v s) :=
  .ite .refl <| .comp (.ite pinchReact_formed .refl) <| .apart setHb_keeps rfl

theorem execRipple_formed {h : Fin 16} {i v period : Nat} {s : State} : OutCarries MemoryWf s (execRipple h i v period s) :=
  .next <| .whenClocked fun _ => by
    dsimp only
    split
    · exact .refl
    · exact .ite .refl <| .ite (.past mirrorPos_keeps rfl <| .apart setHb_keeps rfl) <|
        .comp (.ite (.past rippleArrive_keeps rfl pinchJudge_formed) .refl) <| .apart setHb_keeps rfl

theorem wiperEvent_formed {h : Nat} {s : State} : Carries MemoryWf s (wiperEvent h s) := by
  unfold wiperEvent
  split
  · exact hbEvent_formed
  · exact .refl

theorem execBrakeEnd_formed {h : Fin 16} {s : State} : OutCarries MemoryWf s (execBrakeEnd h s) :=
  .next <| .whenClocked fun _ => by
    dsimp only
    split
    · exact .refl
    · exact .ite .refl <| by
          split
          · exact startDrive_formed
          · exact .comp startDrive_formed <| .apart setHb_keeps rfl
          · exact .comp wiperEvent_formed <| .apart toCoast_keeps rfl
          · exact .comp coastEnd_formed wiperEvent_formed
          · exact coastEnd_formed

theorem reachPark_formed {h : Nat} {o : BrOp} {s : State} : Carries MemoryWf s (reachPark h o s) :=
  .comp (by
      unfold reachPark
      dsimp only
      split
      · exact .refl
      · exact .comp inEffect_formed <| .apart brakeFor_keeps rfl
      · exact .past brakeFor_keeps rfl <| .apart endsWith_keeps rfl) <|
  .apart setHb_keeps rfl

theorem parkSettle_formed {h now : Nat} {s : State} : Carries MemoryWf s (parkSettle h now s) := by
  unfold parkSettle
  extract_lets b active s₁
  refine .ite .refl <| .comp (t := s₁) ?_ <| .apart setHb_keeps rfl
  split
  · exact .refl
  · exact .ite reachPark_formed .refl

theorem parkRead_formed {h : Nat} {x : SwiReading} {s : State} : Carries MemoryWf s (parkRead h x s) := by
  unfold parkRead
  split
  · exact .refl
  · exact .ite .refl <| .past setHb_keeps rfl parkSettle_formed

theorem execWiperInterval_formed {h : Fin 16} {s : State} : OutCarries MemoryWf s (execWiperInterval h s) :=
  .next <| .whenClocked fun _ => by
    dsimp only
    split
    · exact .ite driveDir_formed .refl
    · exact .refl

theorem execParkTimeout_formed {h : Fin 16} {s : State} : OutCarries MemoryWf s (execParkTimeout h s) :=
  .next <| .whenClocked fun _ => by
    dsimp only
    split
    · exact .ite (.comp endNow_formed <| .apart (raise_keeps _ _ _) rfl) .refl
    · exact .refl

theorem execDriveTimeout_formed {h : Fin 16} {s : State} : OutCarries MemoryWf s (execDriveTimeout h s) :=
  .next <| .whenClocked fun _ => by
    split
    · split
      · exact .ite endNow_formed .refl
      · exact .refl
    · exact .refl

theorem hbDiagResult_formed {h res : Nat} {onState : Bool} {s : State} : Carries MemoryWf s (hbDiagResult h res onState s) :=
  .comp (.ite (.apart (raise_keeps _ _ _) rfl) <| .ite (.apart (raise_keeps _ _ _) rfl) .refl) <| .ite .refl <| .comp hbEvent_formed <|
  .apart setHb_keeps rfl

theorem execHbOnStateOpenLoad_formed {h : Fin 16} {s : State} : OutCarries MemoryWf s (execHbOnStateOpenLoad h s) :=
  .next <| .whenOn fun _ => by
    split
    · exact .ite (.comp hbDiagResult_formed <| .apart setHb_keeps rfl) .refl
    · exact .refl

theorem hbSafe_formed {src h : Nat} {s : State} : Carries MemoryWf s (hbSafe src h s) := by
  unfold hbSafe
  split
  · exact .comp applyHb_formed <| .past setHb_keeps rfl endSet_formed
  · exact .comp (by
          dsimp only
          split
          · exact .refl
          · exact .ite .refl <| .ite endNow_formed <| .past brakeHold_keeps rfl <| .past setHb_keeps rfl dropOp_formed
          · exact .ite .refl <| .ite endNow_formed <| .comp driveDir_formed <| .past setHb_keeps rfl dropOp_formed
          · exact endNow_formed) <|
      .apart setHb_keeps rfl

theorem hbUnsafe_formed {h : Nat} {s : State} : Carries MemoryWf s (hbUnsafe h s) :=
  .ite .refl <| .comp (.ite endNow_formed applyHb_formed) <| .apart setHb_keeps rfl

/-! ### Load channels (file 04) -/

theorem request_formed {n m d : Nat} {s : State} : Carries MemoryWf s (request n m d s) :=
  .comp applyLch_formed <| .past setLch_keeps rfl endTimed_formed

theorem execTimedEnd_formed {n : Fin 64} {s : State} : OutCarries MemoryWf s (execTimedEnd n s) :=
  .next <| .whenOn fun _ => by
    split
    · exact .refl
    · exact .ite .refl <| .comp finish_formed <| .comp lchEvent_formed <| .comp applyLch_formed <| .apart setLch_keeps rfl

theorem execPwmPeriodStart_formed {n : Fin 64} {i vs : Nat} {s : State} : OutCarries MemoryWf s (execPwmPeriodStart n i vs s) :=
  .next <| .whenClocked fun _ => .ite (.ite (.apart noteCurrent_keeps rfl) .refl) <| .ite .refl <| .comp takeWaits_formed <|
  .past setLch_keeps rfl <| .comp (.ite (.apart setBank_keeps rfl) .refl) <| .ite (.apart setLch_keeps rfl) <| .apart noteCurrent_keeps rfl

theorem applyGrant_formed {x : Nat × Nat} {s : State} : Carries MemoryWf s (applyGrant x s) :=
  .past syncGang_keeps rfl <| .comp noteLimit_formed <| .past setLch_keeps rfl <| .apart setLch_keeps rfl

/-! ### Ends of a commit (file 03) -/

theorem commitEnds_formed {c : CommitRun} {status result : Nat} {f : CheckFail} {s : State} :
    Carries MemoryWf s (commitEnds c status result f s) :=
  .comp (by
      unfold commitEnds
      dsimp only
      split
      · exact .comp finishGated_formed <| .apart hwPutAt_keeps rfl
      · exact .apart hwPutAt_keeps rfl) <|
  .apart (modStg_keeps _ _) rfl

theorem commitLinkLost_formed {src : Nat} {s : State} : Carries MemoryWf s (commitLinkLost src s) := by
  unfold commitLinkLost
  split
  · exact .ite .refl commitEnds_formed
  · exact .refl

/-! ### Pairs (file 15) -/

theorem retarget_formed {s : State} : Carries MemoryWf s (retarget s) := recordFields_formed

/-! ### Heartwood records (file 19) -/

theorem releaseReport_formed {r : Report} {s : State} : Carries MemoryWf s (releaseReport r s) := by
  unfold releaseReport
  split
  · exact emitAt_formed
  · exact sendVector_formed
  · exact .comp settle_formed recordFields_formed

theorem hwWrite_formed {archived : Bool} {s : State} : Carries MemoryWf s (hwWrite archived s) := by
  unfold hwWrite
  split
  · exact .refl
  · exact .comp (.foldl fun _ _ => releaseReport_formed) <| .past (modHw_keeps _ _) rfl <| .past (fabAccess_keeps _ _ _ _ _) rfl <|
      .comp mramBytes_formed <| .ite (.apart archiveBlock_keeps rfl) .refl

theorem hwWriteAll_formed : ∀ (n : Nat) (s : State), Carries MemoryWf s (hwWriteAll n s)
  | 0, _ => .refl
  | n + 1, _ => .ite .refl <| .comp (hwWriteAll_formed n _) hwWrite_formed

/-! ### Valves (file 07) -/

theorem vlvEvent_formed {v code d1 d2 : Nat} {s : State} : Carries MemoryWf s (vlvEvent v code d1 d2 s) := emitOn_formed

theorem fireEnds_formed {f : Fire} {status src : Nat} {s : State} : Carries MemoryWf s (fireEnds f status src s) := by
  unfold fireEnds
  extract_lets s₁
  refine .comp (t := s₁) ?_ <| .ite vlvEvent_formed .refl
  split
  · exact .ite finishFree_formed finish_formed
  · exact .refl

theorem enterHold_formed {v : Nat} {s : State} : Carries MemoryWf s (enterHold v s) := by
  unfold enterHold
  split
  · exact .refl
  · exact .comp fireEnds_formed <| .past freeSlot_keeps rfl <| .apart setVlv_keeps rfl

theorem enterRelease_formed {v : Nat} {slow : Bool} {status src : Nat} {s : State} :
    Carries MemoryWf s (enterRelease v slow status src s) :=
  .past setVlv_keeps rfl <| by
    split
    · exact fireEnds_formed
    · exact .refl

theorem releaseEarly_formed {v : Nat} {slow : Bool} {status src : Nat} {s : State} :
    Carries MemoryWf s (releaseEarly v slow status src s) := .comp enterRelease_formed <| .apart cutPhase_keeps rfl

theorem dropWaiting_formed {v status src : Nat} {s : State} : Carries MemoryWf s (dropWaiting v status src s) := by
  unfold dropWaiting
  split
  · exact .comp (by
          dsimp only
          split
          · exact finish_formed
          · exact .refl) <|
      .comp fireEnds_formed <| .past setVlv_keeps rfl <| .apart setVg_keeps rfl
  · exact .refl

theorem requestFire_formed {f : Fire} {s : State} : Carries MemoryWf s (requestFire f s) :=
  .ite fireEnds_formed <| .ite (.comp enterHold_formed <| .apart setVlv_keeps rfl) <| .ite (.apart grantSlot_keeps rfl) <|
  .ite (.comp fireEnds_formed <| .apart (raise_keeps _ _ _) rfl) <| .past setVg_keeps rfl <| .apart setVlv_keeps rfl

theorem execFireRequestedStart_formed {v : Fin 24} {s : State} : OutCarries MemoryWf s (execFireRequestedStart v s) :=
  .next <| .whenOn fun _ => by
    split
    · exact .comp requestFire_formed <| .apart modVs_keeps rfl
    · exact .refl

theorem execDeferTimeout_formed {v : Fin 24} {s : State} : OutCarries MemoryWf s (execDeferTimeout v s) :=
  .next <| .whenClocked fun _ => by
    split
    · exact .ite .refl <| .ite (.comp dropWaiting_formed <| .apart (raise_keeps _ _ _) rfl) <| .comp dropWaiting_formed <|
        .apart (raise_keeps _ _ _) rfl
    · exact .refl

theorem vlvDiag_formed {v res : Nat} {onState : Bool} {s : State} : Carries MemoryWf s (vlvDiag v res onState s) := by
  unfold vlvDiag
  extract_lets x s₁ s₂
  refine .ite .refl <| .comp (t := s₂) ?_ <| .comp vlvEvent_formed <| .apart setVlv_keeps rfl
  split
  · exact .apart (raise_keeps _ _ _) rfl
  · exact .apart (raise_keeps _ _ _) rfl
  · exact .apart (raise_keeps _ _ _) rfl
  · exact .refl

theorem execHoldEnd_formed {v : Fin 24} {s : State} : OutCarries MemoryWf s (execHoldEnd v s) :=
  .next <| .whenClocked fun _ => by
    split
    · exact .ite (.comp vlvEvent_formed enterRelease_formed) .refl
    · exact .refl

theorem reachOff_formed {v q : Nat} {s : State} : Carries MemoryWf s (reachOff v q s) :=
  .comp (by
      unfold reachOff
      dsimp only
      split
      · exact finish_formed
      · exact .refl) <|
  .comp (.foldl fun _ _ => finish_formed) <| .past freeSlot_keeps rfl <| .apart setVlv_keeps rfl

theorem execVlvRelease_formed {o : Origin} {s : State} : OutCarries MemoryWf s (execVlvRelease o s) :=
  .operation fun _ _ _ => by
    dsimp only
    split
    · exact finish_formed
    · exact .comp finish_formed dropWaiting_formed
    · exact .apart setVlv_keeps rfl
    · exact .past setVlv_keeps rfl releaseEarly_formed

theorem execPeriodicFiring_formed {v : Fin 24} {s : State} : OutCarries MemoryWf s (execPeriodicFiring v s) :=
  .next <| .whenOn fun _ => by
    split
    · exact .ite .refl <| .comp requestFire_formed <| .past takeOrder_keeps rfl <| .apart setVlv_keeps rfl
    · exact .refl

theorem boostTo_formed {b : Boost} {s : State} : Carries MemoryWf s (boostTo b s) :=
  .ite .refl <| .comp emitOn_formed <| .comp (.ite (.apart modVs_keeps rfl) .refl) <| .apart modVs_keeps rfl

theorem tripValve_formed {src : Nat} {fast : Bool} {v : Nat} {s : State} : Carries MemoryWf s (tripValve src fast v s) :=
  .comp (by
      unfold tripValve
      dsimp only
      split
      · exact .refl
      · exact dropWaiting_formed
      · exact .refl
      · exact releaseEarly_formed) <|
  .apart setVlv_keeps rfl

theorem execValveShortCircuit_formed {t : VsTrip} {s : State} : OutCarries MemoryWf s (execValveShortCircuit t s) :=
  .next <| .whenClocked fun _ => by
    split
    · exact .ite (.comp tripValve_formed <| .comp (.ite vlvDiag_formed .refl) <| .past (raise_keeps _ _ _) rfl <|
        .apart setVlv_keeps rfl) <|
        .refl
    · exact .ite .refl <| .comp (.foldl fun _ _ => tripValve_formed) <| .past (raise_keeps _ _ _) rfl <| .apart noteVgCur_keeps rfl
    · exact .ite .refl <| .comp (.foldl fun _ _ => tripValve_formed) <| .apart (raise_keeps _ _ _) rfl

theorem vgDiagnose_formed {g : Nat} {m : VgDiag} {vs : List Nat} {s : State} : Carries MemoryWf s (vgDiagnose g m vs s) :=
  .comp (.foldl fun _ _ => vlvDiag_formed) <| .apart setVg_keeps rfl

theorem execValveOnStateDiagnosis_formed {f : VsFinding} {s : State} : OutCarries MemoryWf s (execValveOnStateDiagnosis f s) :=
  .next <| .whenClocked fun _ => .onlyIf fun _ => by
    split
    · exact .ite (.comp releaseEarly_formed vlvDiag_formed) .refl
    · exact .ite .refl <| .foldl fun _ _ => vlvDiag_formed

theorem dropPending_formed {v status src : Nat} {s : State} : Carries MemoryWf s (dropPending v status src s) :=
  .comp (.foldl fun _ _ => fireEnds_formed) <| .apart modVs_keeps rfl

theorem vlvSafeOff_formed {src v : Nat} {s : State} : Carries MemoryWf s (vlvSafeOff src v s) :=
  .comp (by
      unfold vlvSafeOff
      dsimp only
      split
      · exact .refl
      · exact dropWaiting_formed
      · exact .refl
      · exact releaseEarly_formed) <|
  .past setVlv_keeps rfl dropPending_formed

theorem vlvSafe_formed {src v : Nat} {s : State} : Carries MemoryWf s (vlvSafe src v s) :=
  .comp (by
      unfold vlvSafe
      dsimp only
      split
      · exact .comp (.ite (.comp requestFire_formed <| .apart takeOrder_keeps rfl) .refl) <| .past setVlv_keeps rfl dropPending_formed
      · exact .refl
      · exact vlvSafeOff_formed) <|
  .apart setVlv_keeps rfl

theorem vlvUnsafe_formed {v : Nat} {s : State} : Carries MemoryWf s (vlvUnsafe v s) :=
  .ite .refl <| .comp vlvSafeOff_formed <| .apart setVlv_keeps rfl

/-! ### Wire fusing (file 05) -/

theorem wireJudge_formed {n : Nat} {s : State} : Carries MemoryWf s (wireJudge n s) :=
  .comp (.ite .refl <| .comp tryRestart_formed <| .ite protOff_formed .refl) <|
  .ite (.past (raise_keeps _ _ _) rfl <| .comp lchEvent_formed <| .apart setLch_keeps rfl) <|
  .ite (.comp lchEvent_formed <| .apart setLch_keeps rfl) .refl

theorem execWireModelUpdate_formed {m : Vector ChSample 64} {b : Vector BankSample 8} {h : Vector HbSample 16} {s : State} :
    OutCarries MemoryWf s (execWireModelUpdate m b h s) :=
  .next <| .whenClocked fun _ => .ite .refl <| .past mirrorAll_keeps rfl <| .comp (.foldl fun _ _ => .apart balanceGang_keeps rfl) <|
  .comp (.foldl fun _ _ => .apart setLch_keeps rfl) <| .comp (.foldl fun _ _ => .ite wireJudge_formed .refl) <| .past ldField_keeps rfl <|
  .comp (.foldl fun _ _ => .apart noteHb_keeps rfl) <| .comp (.foldl fun _ _ => .ite (.apart noteSample_keeps rfl) .refl) <|
  .foldl fun _ _ => .apart noteBank_keeps rfl

theorem dieHotChs_formed {b : Nat} {s : State} : Carries MemoryWf s (dieHotChs b s) :=
  .foldl fun _ _ => .ite .refl <| .past setLch_keeps rfl protOff_formed

theorem diagResult_formed {n res r : Nat} {onState : Bool} {s : State} : Carries MemoryWf s (diagResult n res r onState s) := by
  unfold diagResult
  extract_lets c s₁
  refine .comp (t := s₁) ?_ <| .ite .refl <| .comp lchEvent_formed <| .apart setLch_keeps rfl
  split
  · exact .apart (raise_keeps _ _ _) rfl
  · exact .refl

theorem offDiag_formed {n v1 v2 : Nat} {s : State} : Carries MemoryWf s (offDiag n v1 v2 s).2.2 :=
  .comp (by
      unfold offDiag
      dsimp only
      split
      · exact .comp diagResult_formed <| .apart unnamed_keeps rfl
      · exact .comp diagResult_formed <| .apart setLch_keeps rfl) <|
  .apart setLch_keeps rfl

theorem execOnStateDiagnosis_formed {n : Fin 64} {v : Nat} {s : State} : OutCarries MemoryWf s (execOnStateDiagnosis n v s) :=
  .next <| .whenClocked fun _ => by
    dsimp only
    split
    · exact .ite (.comp diagResult_formed <| .apart setLch_keeps rfl) .refl
    · exact .refl

end Sys2Proof.Frames
end

section
/-! SUPPORT. The canonical form of shared SRAM and MRAM: what works on the whole device, that is safe states, faults, power, grafting, starts
and registers. -/

namespace Sys2Proof.Frames

open Sys2Proof.Machine Sys2Proof.Safety Sys2Proof.Laws

/-! ### Safe states (files 01 and 17) -/

theorem segSafe_formed {b : Nat} {s : State} : Carries MemoryWf s (segSafe b s) :=
  .ite (.past gwDropFor_keeps rfl <| .comp (.foldl fun _ _ => txEnds_formed) <| .apart setCan_keeps rfl) <|
  .comp (.foldl fun _ _ => finishFree_formed) <| .apart setLin_keeps rfl

theorem safeOne_formed {src : Nat} {o : OutId} {s : State} : Carries MemoryWf s (safeOne src o s) := by
  unfold safeOne
  split
  · exact lchSafe_formed
  · exact hbSafe_formed
  · exact vlvSafe_formed
  · exact .refl
  · exact .refl
  · exact .apart fioSafe_keeps rfl
  · exact lfSafe_formed
  · exact relSafe_formed
  · exact segSafe_formed
  · exact .apart stopPair_keeps rfl

theorem safeEntry_formed {outs : List OutId} {src : Nat} {s : State} : Carries MemoryWf s (safeEntry outs src s) :=
  .foldl fun _ _ => safeOne_formed

theorem safeRelease_formed {outs : List OutId} {s : State} : Carries MemoryWf s (safeRelease outs s) :=
  .foldl fun _ _ => by
    split
    · exact lchUnsafe_formed
    · exact hbUnsafe_formed
    · exact vlvUnsafe_formed
    · exact .apart fioUnsafe_keeps rfl
    · exact .refl

theorem sleepCommit_formed {s : State} : Carries MemoryWf s (sleepCommit s) :=
  .past fsPark_keeps rfl <| .comp (.foldl fun _ _ => .ite endNow_formed <| .comp applyHb_formed <| .apart setHb_keeps rfl) <|
  .comp (.foldl fun _ _ => .comp applyLch_formed <| .apart setLch_keeps rfl) <| .past nsSleepCommit_keeps rfl <| .apart armPolls_keeps rfl

theorem dieLost_formed {d : Die} {src : Nat} {s : State} : Carries MemoryWf s (dieLost d src s) :=
  .comp (.ite (.comp nsLinkLost_formed <| .apart swLinkLost_keeps rfl) .refl) safeEntry_formed

theorem dieBack_formed {d : Die} {s : State} : Carries MemoryWf s (dieBack d s) :=
  .ite nsLinkBack_formed <| .ite (.apart fsLinkBack_keeps rfl) <| .apart mirrorAll_keeps rfl

/-! ### Faults (file 17) -/

theorem enterC2_formed {src target : Nat} {s : State} : Carries MemoryWf s (enterC2 src target s) :=
  .ite .refl <| .past faultState_keeps rfl <| .comp safeEntry_formed <| .apart (modFlt_keeps _ _) rfl

theorem enterC3_formed {src : Nat} {s : State} : Carries MemoryWf s (enterC3 src s) :=
  .past faultState_keeps rfl <| .past hwPutAt_keeps rfl <| .comp safeEntry_formed <| .apart (modFlt_keeps _ _) rfl

theorem powerAborted_formed {src : Nat} {s : State} : Carries MemoryWf s (powerAborted src s) := by
  unfold powerAborted
  split
  · exact .refl
  · exact .ite .refl <| .comp finish_formed <| .apart (modPw_keeps _ _) rfl

theorem setSticky_formed {n : Fin 256} {target : Nat} {injected : Bool} {time : Nat} {tsRt : Bool} {more : List Report} {s : State} :
    Carries MemoryWf s (setSticky n target injected time tsRt more s) :=
  .comp (.ite (.comp powerAborted_formed <| .apart (modPw_keeps _ _) rfl) .refl) <| .comp (.ite enterC3_formed .refl) <|
  .comp (.ite enterC2_formed .refl) <| .past hwPutAt_keeps rfl <| .apart (modFlt_keeps _ _) rfl

theorem pairAgain_formed {n target : Nat} {s : State} : Carries MemoryWf s (pairAgain n target s) := .ite enterC2_formed .refl

theorem collect_formed {n : Fin 256} {target : Nat} {injected : Bool} {time : Nat} {tsRt : Bool} {more : List Report} {s : State} :
    Carries MemoryWf s (collect n target injected time tsRt more s) :=
  .comp (.ite (.apart conditionsLeft_keeps rfl) .refl) <|
  .comp (.ite (.comp (.ite .refl pairAgain_formed) <| .apart (modFlt_keeps _ _) rfl) setSticky_formed) <| .apart (modFlt_keeps _ _) rfl

theorem arrive_formed {n : Fin 256} {s : State} : Carries MemoryWf s (arrive n s) := by
  unfold arrive
  split
  · exact .comp collect_formed <| .apart (modFlt_keeps _ _) rfl
  · exact .ite collect_formed .refl

theorem execFaultReset_formed {o : Origin} {failed : List (Fin 203)} {s : State} : OutCarries MemoryWf s (execFaultReset o failed s) :=
  .operation fun _ _ _ => .ite (.comp finish_formed <| .apart (modFlt_keeps _ _) rfl) <|
  .ite (.comp finish_formed <| .apart pairTestFailed_keeps rfl) <| .comp finish_formed <|
  .comp (.ite (.apart restartPair_keeps rfl) .refl) <| .comp safeRelease_formed <| .apart leaveC2_keeps rfl

theorem execFaultInject_formed {o : Origin} {s : State} : OutCarries MemoryWf s (execFaultInject o s) :=
  .operation fun _ _ _ => by
    split
    · exact .refl
    · exact .comp (.ite finish_formed finishGated_formed) collect_formed

/-! ### Power states (file 18) -/

theorem powerEvent_formed {new old : PState} {cause dt : Nat} {s : State} : Carries MemoryWf s (powerEvent new old cause dt s) :=
  .comp sendVector_formed emit_formed

theorem sleepCommitPoint_formed {p : PowerRun} {s : State} : Carries MemoryWf s (sleepCommitPoint p s) :=
  .comp sleepCommit_formed <| .past (modPw_keeps _ _) rfl <| .apart (modFlt_keeps _ _) rfl

theorem handshakeDone_formed {p : PowerRun} {s : State} : Carries MemoryWf s (handshakeDone p s) :=
  .ite (.past changeState_keeps rfl <| .apart (modPw_keeps _ _) rfl) sleepCommitPoint_formed

theorem endEntry_formed {uid status blk cause src : Nat} {s : State} : Carries MemoryWf s (endEntry uid status blk cause src s) :=
  .comp finish_formed <| .comp watchStalls_formed <| .past (modPw_keeps _ _) rfl watchStalls_formed

theorem execEntryHandshakeAnswer_formed {block : Fin 11} {a : BlockAnswer} {s : State} :
    OutCarries MemoryWf s (execEntryHandshakeAnswer block a s) :=
  .next <| by
    split
    · exact .refl
    · exact .ite .refl <| by
          split
          · exact .ite .refl <| .comp (.ite handshakeDone_formed .refl) <| .apart (modPw_keeps _ _) rfl
          · exact .ite (.apart (modPw_keeps _ _) rfl) .refl
          · exact .ite endEntry_formed .refl
          · split
            · exact endEntry_formed
            · exact .refl

theorem execEntryTimeout_formed {s : State} : OutCarries MemoryWf s (execEntryTimeout s) :=
  .next <| by
    split
    · exact .refl
    · split
      · exact .refl
      · exact .ite endEntry_formed .refl

theorem dieOff_formed {park brownout : Bool} {s : State} : Carries MemoryWf s (dieOff park brownout s) := by
  intro ⟨_, mram⟩
  have same : (dieOff park brownout s).mram = s.mram := (familyDieOff_keeps (park := park) (brownout := brownout)) .mram (by decide)
  exact ⟨rfl, same ▸ mram⟩

theorem entryStep4_formed {p : PowerRun} {s : State} : Carries MemoryWf s (entryStep4 p s) :=
  .comp powerEvent_formed <| .comp finish_formed <| .past (modPw_keeps _ _) rfl <| .past (modHw_keeps _ _) rfl <|
  .comp (hwWriteAll_formed _ _) <| .past heatExact_keeps rfl <| .apart mirrorAll_keeps rfl

theorem entryTick_formed {s : State} : Carries MemoryWf s (entryTick s) := by
  unfold entryTick
  split
  · split
    · exact .ite entryStep4_formed .refl
    · exact .refl
  · exact .refl

theorem entryComplete_formed {s : State} : Carries MemoryWf s (entryComplete s) :=
  .comp (.ite (.apart riseForWake_keeps rfl) .refl) <| .past (modPw_keeps _ _) rfl dieOff_formed

theorem execEntryComplete_formed {s : State} : OutCarries MemoryWf s (execEntryComplete s) :=
  .next <| by
    split
    · split
      · exact .ite entryComplete_formed .refl
      · exact .refl
    · exact .refl

theorem execVoutAcknowledge_formed {vout status : Nat} {s : State} : OutCarries MemoryWf s (execVoutAcknowledge vout status s) := by
  refine .next ?_
  split
  · exact .refl
  extract_lets s₁ s₂ s₃ s₄
  refine .ite .refl <|
    .comp (t := s₁) (.ite .refl <| .comp (t := s₂) (.ite .refl <| .comp (t := s₄) ?_ ?_) <| .apart (modPw_keeps _ _) rfl) <|
    .apart (modPw_keeps _ _) rfl
  · split
    · exact finish_formed
    · exact .refl
  · exact .comp powerEvent_formed <| .ite (.apart (modPw_keeps _ _) rfl) .refl

theorem execPmbusNoAck_formed {s : State} : OutCarries MemoryWf s (execPmbusNoAck s) := by
  refine .next ?_
  split
  · exact .refl
  extract_lets s₁ s₂
  have noted : Carries MemoryWf s s₁ := .past (raise_keeps _ _ _) rfl <| .apart (modPw_keeps _ _) rfl
  refine .ite .refl <| .ite (.apart (modPw_keeps _ _) rfl) <| .ite (.comp ?_ noted) (.comp (t := s₂) ?_ <| .comp powerEvent_formed noted)
  all_goals
    split
    · exact finish_formed
    · exact .refl

theorem xtal40Failed_formed {s : State} : Carries MemoryWf s (xtal40Failed s) :=
  .past (raise_keeps _ _ _) rfl <| .past (modPw_keeps _ _) rfl <| .comp (.foldl fun _ _ => applyLch_formed) <| .apart stopClocks_keeps rfl

theorem execXtal40Retry_formed {runs : Bool} {s : State} : OutCarries MemoryWf s (execXtal40Retry runs s) := by
  refine .next <| .onlyIf fun _ => .comp (.ite ?_ .refl) <| .apart (modPw_keeps _ _) rfl
  exact .comp (.foldl fun _ _ => applyLch_formed) <| .past (modPw_keeps _ _) rfl <| .past decayAll_keeps rfl <| .apart timeField_keeps rfl

theorem powerFailEvent_formed {fell : Bool} {vbat : Nat} {s : State} : Carries MemoryWf s (powerFailEvent fell vbat s) := emit_formed

/-! ### Grafting (file 19) -/

theorem reportNow_formed {l : List Report} {s : State} : Carries MemoryWf s (reportNow l s) := .foldl fun _ _ => releaseReport_formed

theorem graftBlock_formed {writeOk : Bool} {s : State} : Carries MemoryWf s (graftBlock writeOk s).2 := by
  unfold graftBlock
  extract_lets u slot
  split
  · split
    · exact .apart fallBack_keeps rfl
    extract_lets size total n key plain tgt s₁ s₂ s₃ copy s₄ s₅
    refine .comp (t := s₃) ?_ <| .comp (.ite reportNow_formed .refl) <| .past (modUpd_keeps _ _) rfl <| .apart setPart_keeps rfl
    split
    · exact .refl
    split
    · exact .apart fallBack_keeps rfl
    refine .comp (t := s₄) ?_ <| .apart flipPart_keeps rfl
    split
    · exact .apart (modUpd_keeps _ _) rfl
    · exact .comp reportNow_formed <| .apart (modUpd_keeps _ _) rfl
  · exact .apart fallBack_keeps rfl

theorem execUpdArm_formed {o : Origin} {s : State} : OutCarries MemoryWf s (execUpdArm o s) :=
  .operation fun _ _ _ => .ite finishFree_formed <| by
    split
    · exact finish_formed
    · exact .comp finishRecorded_formed <| .apart (modUpd_keeps _ _) rfl

/-! ### Performance counters (file 20) -/

theorem execPerfSet_formed {o : Origin} {s : State} : OutCarries MemoryWf s (execPerfSet o s) :=
  .operation fun _ _ _ => by
    dsimp only
    split
    · exact .refl
    · exact .comp finish_formed <| .apart unnamed_keeps rfl

theorem execPerfSample_formed {s : State} : OutCarries MemoryWf s (execPerfSample s) :=
  .next <| .whenOn fun _ => by
    split
    · exact .refl
    · exact .comp sendVector_formed <| .comp emit_formed <| .apart unnamed_keeps rfl

/-! ### Sessions (file 03) -/

theorem execSessionOpen_formed {o : Origin} {s : State} : OutCarries MemoryWf s (execSessionOpen o s) :=
  .operation fun _ _ _ => by
    dsimp only
    split
    · exact .comp finishRecorded_formed <| .past (raise_keeps _ _ _) rfl <| .apart unnamed_keeps rfl
    · exact .ite (.comp finishGated_formed <| .past hwPutAt_keeps rfl <| .apart sessionOpened_keeps rfl) <| .comp finishRecorded_formed <|
        .past (raise_keeps _ _ _) rfl <| .past unnamed_keeps rfl <| .apart sessionFailure_keeps rfl

/-! ### Starts and resets (files 01 and 18) -/

theorem deliverHeld_formed {d : Die → Bool} {s : State} : Carries MemoryWf s (deliverHeld d s) :=
  .comp (.foldl fun _ _ => releaseReport_formed) <| .past (modFlt_keeps _ _) rfl <| .apart unnamed_keeps rfl

theorem startStep7_formed {s : State} : Carries MemoryWf s (startStep7 s) := by
  unfold startStep7
  extract_lets lost s₁ s₂ s₃ s₄ s₅ s₆ s₇
  refine .comp (t := s₇) ?_ <| .comp powerEvent_formed <| .past (modPw_keeps _ _) rfl <| .comp netReplay_formed <|
    .past (modPw_keeps _ _) rfl <| .comp asReportLost_formed <| .comp (.ite .refl <| .apart openRuntimeSession_keeps rfl) <|
    .comp deliverHeld_formed <| .past hbStart_keeps rfl <| .past nsStart_keeps rfl <| .past fsStart_keeps rfl <|
    .past (modPw_keeps _ _) rfl <| .past pairModes_keeps rfl <| .past reportEnded_keeps rfl <| .past stageStored_keeps rfl <|
    .past restoreFaults_keeps rfl <| .past heatRestore_keeps rfl <| .apart linksField_keeps rfl
  split
  · exact .refl
  · exact .comp (.ite .refl emitAt_formed) <| .apart (modPw_keeps _ _) rfl

theorem startTick_formed {s : State} : Carries MemoryWf s (startTick s) := by
  unfold startTick
  split
  · exact .ite startStep7_formed .refl
  · exact .refl

theorem digitalDieStart_formed_of_noXtal {found : StartFindings} {s : State} (h : found.xtalRuns = false) :
    Carries MemoryWf s (digitalDieStart found s) := by
  unfold digitalDieStart
  rw [if_pos (by simp [h])]
  exact .past (modFlt_keeps _ _) rfl xtal40Failed_formed

theorem digitalDieStart_formed_of_setTime {found : StartFindings} {s : State} (h : found.xtalRuns = true) :
    Carries MemoryWf (setTime (dropDamaged found s)) (digitalDieStart found s) := by
  unfold digitalDieStart
  rw [if_neg (by simp [h])]
  exact .past bootChecks_keeps rfl <| .comp (.foldl fun _ _ => .apart pairSelfTestFailed_keeps rfl) <| .past asStart_keeps rfl <|
    .past discoverXspi_keeps rfl <| .past closeSessions_keeps rfl <| .past startRecord_keeps rfl <| .past heartwoodScan_keeps rfl <|
    .past requestVcore_keeps rfl <| .past (modPw_keeps _ _) rfl <| .apart (modFlt_keeps _ _) rfl

theorem digitalDieStart_formed {found : StartFindings} {s : State} : Carries MemoryWf s (digitalDieStart found s) := by
  cases h : found.xtalRuns
  · exact digitalDieStart_formed_of_noXtal h
  · exact .comp (digitalDieStart_formed_of_setTime h) <| .past setTime_keeps rfl <| .apart dropDamaged_keeps rfl

theorem safeDelivered_formed {d : Die} {s : State} : Carries MemoryWf s (safeDelivered d s) :=
  .ite (.apart fsSafeEntries_keeps rfl) safeEntry_formed

theorem deviceReset_formed {cause : Nat} {s : State} {brownout : Bool} : Carries MemoryWf s (deviceReset cause s brownout) :=
  .past (modPw_keeps _ _) rfl <| .comp dieOff_formed <| .apart (modFlt_keeps _ _) rfl

theorem execDeviceReset_formed {r : ResetSource} {s : State} : OutCarries MemoryWf s (execDeviceReset r s) :=
  .next <| by
    split
    · exact .whenOn fun _ => deviceReset_formed
    · split
      · exact .ite (.comp deviceReset_formed <| .apart (modHw_keeps _ _) rfl) .refl
      · exact .refl
    · split
      · exact .ite deviceReset_formed .refl
      · exact .refl
    · split
      · exact .ite (.comp deviceReset_formed <| .apart unnamed_keeps rfl) .refl
      · exact .refl

/-! ### Registers (files 02 and 16) -/

theorem msixWrite_formed {v o x : Nat} {s : State} : Carries MemoryWf s (msixWrite v o x s) :=
  .comp sendPending_formed <| .apart (modHost_keeps _ _) rfl

theorem ringWordWrite_formed {n : Fin 64} {o v : Nat} {s : State} : Carries MemoryWf s (ringWordWrite n o v s) := by
  unfold ringWordWrite
  split
  · exact ringSetupWrite_formed
  · exact ringSetupWrite_formed
  · exact ringSetupWrite_formed
  · exact ringSetupWrite_formed
  · exact ringSetupWrite_formed
  · exact ringSetupWrite_formed
  · exact setRing_formed
  · exact .refl

theorem regWrite_formed {a v : Nat} {s : State} : Carries MemoryWf s (regWrite a v s) :=
  .ite .refl <| by
    dsimp only
    split
    · split
      · exact doorbellWrite_formed
      · exact .refl
    · split
      · exact ringWordWrite_formed
      · exact .refl
    · exact msixWrite_formed
    · exact .ite (.apart stgWrite_keeps rfl) <| .ite (.apart hostWrite_keeps rfl) <| .ite (.apart powerWrite_keeps rfl) <|
        .ite (.apart (modUpd_keeps _ _) rfl) .refl

theorem cfgWrite_formed {off v be : Nat} {s : State} : Carries MemoryWf s (cfgWrite off v be s) := by
  unfold cfgWrite
  dsimp only
  split
  · exact .apart (modHost_keeps _ _) rfl
  · exact .apart (modHost_keeps _ _) rfl
  · exact .apart (modHost_keeps _ _) rfl
  · exact .apart (modHost_keeps _ _) rfl
  · exact .apart (modHost_keeps _ _) rfl
  · exact .comp sendPending_formed <| .apart (modHost_keeps _ _) rfl
  · exact .apart (modHost_keeps _ _) rfl
  · exact .apart (modHost_keeps _ _) rfl
  · exact .refl

theorem badWrite_formed {s : State} : Carries MemoryWf s (badWrite s) :=
  .past (raise_keeps _ _ _) rfl <| .comp aerReport_formed <| .apart (modHost_keeps _ _) rfl

theorem writeWords_formed : ∀ (a : Nat) (l : List (Word × BitVec 4)) (s : State), Carries MemoryWf s (writeWords a l s)
  | _, [], _ => .refl
  | a, (_, _) :: l, _ => .comp (writeWords_formed (a + 4) l _) <|
    .ite (.comp regWrite_formed <| .apart hostAccess_keeps rfl) badWrite_formed

theorem execRegisterWrite_formed {p : HostPlace} {v : List Word} {be : List (BitVec 4)} {s : State} :
    OutCarries MemoryWf s (execRegisterWrite p v be s) :=
  .next <| .whenOn fun _ => by
    split
    · exact .ite badWrite_formed <| writeWords_formed _ _ _
    · split
      · exact cfgWrite_formed
      · exact .refl

theorem execHostRead_formed {p : HostPlace} {len : Nat} {s : State} : OutCarries MemoryWf s (execHostRead p len s) :=
  .next <| .whenOn fun _ => by
    split
    · exact toHost_formed
    · exact .ite .refl <| .ite (.apart (modHost_keeps _ _) rfl) <| .past (raise_keeps _ _ _) rfl aerReport_formed

theorem answerRead_formed {r : InRead} {s : State} : Carries MemoryWf s (answerRead r s) :=
  .ite (.comp toHost_formed <| .past regRead_keeps rfl <| .apart hostAccess_keeps rfl) <| .comp toHost_formed <| .past regRead_keeps rfl <|
  .past regRead_keeps rfl <| .apart hostAccess_keeps rfl

theorem answerReads_formed : ∀ (n : Nat) (s : State), Carries MemoryWf s (answerReads n s)
  | 0, _ => .refl
  | n + 1, s => by
    unfold answerReads
    split
    · exact .refl
    · exact .ite (.comp (answerReads_formed n _) <| .comp answerRead_formed <| .apart (modHost_keeps _ _) rfl) .refl

end Sys2Proof.Frames
end

section
/-! SUPPORT. The canonical form of shared SRAM and MRAM: engines, pairs, commits, supplies and the passing of time. -/

namespace Sys2Proof.Frames

open Sys2Proof.Machine Sys2Proof.Safety Sys2Proof.Laws

/-! ### An engine's memory accesses (file 14) -/

theorem askHost_formed {e keep : Nat} {line : Bool} {addr n : Nat} {s : State} : Carries MemoryWf s (askHost e keep line addr n s) := by
  unfold askHost
  split
  · exact .refl
  · exact .comp sendRead_formed <| .past setAsked_keeps rfl <| .past dropAsked_keeps rfl recordFields_formed

theorem windowStore_formed {e a n v : Nat} {s : State} : Carries MemoryWf s (windowStore e a n v s) :=
  .comp (.ite (.comp (.ite unconfirmed_formed .refl) <| .apart (countLost_keeps _) rfl) <|
    .comp (.ite .refl <| .comp serveConfirms_formed <| .apart unnamed_keeps rfl) toHost_formed) <|
  .apart dropLines_keeps rfl

theorem commitStore_formed {e a n v wait : Nat} {s : State} : Carries MemoryWf s (commitStore e a n v wait s) := by
  unfold commitStore
  split
  · exact .past (fabCount_keeps _ _ _ _ _ _ _) rfl sramBytes_formed
  · exact .comp (.ite (.apart (modHw_keeps _ _) rfl) .refl) <| .apart (fabCount_keeps _ _ _ _ _ _ _) rfl
  · exact .comp (.ite regWrite_formed .refl) <| .apart (fabCount_keeps _ _ _ _ _ _ _) rfl
  · exact .comp windowStore_formed <| .apart (fabCount_keeps _ _ _ _ _ _ _) rfl
  · exact .refl

theorem drainOne_formed {e : Nat} {s : State} : Carries MemoryWf s (drainOne e s) := by
  unfold drainOne
  split
  · exact .refl
  · exact .comp commitStore_formed <| .apart engField_keeps rfl

theorem drainBuf_formed (e : Nat) : ∀ (n : Nat) (s : State), Carries MemoryWf s (drainBuf e n s)
  | 0, _ => .refl
  | n + 1, _ => .comp (drainBuf_formed e n _) drainOne_formed

theorem drained_formed {e : Nat} {s : State} : Carries MemoryWf s (drained e s) := drainBuf_formed _ _ _

theorem leaveStore_formed {e a n v wait : Nat} {s : State} : Carries MemoryWf s (leaveStore e a n v wait s) := by
  unfold leaveStore
  split
  · exact commitStore_formed
  · exact commitStore_formed
  · exact .past engField_keeps rfl <| .ite drainOne_formed .refl

theorem pushDesc_formed {e : Fin 16} {d : Desc} {s : State} : Carries MemoryWf s (pushDesc e d s) :=
  .comp retireUnknown_formed recordFields_formed

theorem releaseItem_formed {k : Nat} {s : State} : Carries MemoryWf s (releaseItem k s) := by
  unfold releaseItem
  split
  · exact .refl
  · exact .comp (by
          dsimp only
          split
          · exact leaveStore_formed
          · split
            · exact pushDesc_formed
            · exact .refl) <|
      .apart setPair_keeps rfl

theorem releaseItems_formed (k : Nat) : ∀ (n : Nat) (s : State), Carries MemoryWf s (releaseItems k n s)
  | 0, _ => .refl
  | n + 1, _ => .comp (releaseItems_formed k n _) releaseItem_formed

theorem shadowStep_formed {k : Nat} {s : State} : Carries MemoryWf s (shadowStep k s) := by
  unfold shadowStep
  split
  · exact .refl
  · exact .comp (releaseItems_formed _ _ _) <|
      .comp (by
        split
        · exact .apart runCycles_keeps rfl
        · exact .refl) <|
      .past setEng_keeps rfl <| .apart setPair_keeps rfl

theorem shadowSteps_formed (k : Nat) : ∀ (n : Nat) (s : State), Carries MemoryWf s (shadowSteps k n s)
  | 0, _ => .refl
  | n + 1, _ => .comp (shadowSteps_formed k n _) shadowStep_formed

theorem catchUp_formed {k : Nat} {s : State} : Carries MemoryWf s (catchUp k s) := shadowSteps_formed _ _ _

theorem runShadow_formed (k : Nat) : ∀ (n : Nat) (s : State), Carries MemoryWf s (runShadow k n s)
  | 0, _ => .refl
  | n + 1, _ => .ite (.comp (runShadow_formed k n _) shadowStep_formed) .refl

theorem holdItem_formed {k : Nat} {i : HeldItem} {s : State} : Carries MemoryWf s (holdItem k i s) :=
  .past setPair_keeps rfl <| .comp (.ite .refl releaseItem_formed) <| .ite .refl catchUp_formed

theorem pushTrail_formed {k stall shadowStall : Nat} {t : TrailEntry} {s : State} :
    Carries MemoryWf s (pushTrail k stall shadowStall t s) :=
  .comp (runShadow_formed _ _ _) <| .past setPair_keeps rfl <| .ite catchUp_formed .refl

theorem settled_formed {e : Nat} {s : State} : Carries MemoryWf s (settled e s) := .comp drained_formed <| .ite catchUp_formed .refl

/-- A read through the fabric: what waits is settled and the access counted, before the area itself is read (R340, R489). -/
theorem fabricRead_formed {α : Type} {e : Nat} {p : Port} {m a n w : Nat} {ecc : Bool} {k : EngM α} (h : EngCarries MemoryWf k) :
    EngCarries MemoryWf (modCx (settled e) >>= fun _ => modCx (fabCount p m a n w ecc) >>= fun _ => k) :=
  .bind (.modCx fun _ => settled_formed) fun _ => .bind (.modCx fun _ => .apart (fabCount_keeps _ _ _ _ _ _ _) rfl) fun _ => h

theorem readArea_formed {x : Issue} {ar : Area} {a n : Nat} : EngCarries MemoryWf (readArea x ar a n) := by
  unfold readArea
  split
  · exact .bind .get fun _ => .pure
  · exact fabricRead_formed <| .bind .get fun _ => .pure
  · exact fabricRead_formed <| .bind .get fun _ => .pure
  · exact fabricRead_formed <| .getSet (fun _ => .apart regRead_keeps rfl) fun _ => .pure
  · exact fabricRead_formed <| .apart windowLoad_keeps rfl

theorem memLoad_formed {x : Issue} {a n : Nat} : EngCarries MemoryWf (memLoad x a n) :=
  .bind .get fun _ => by
    split
    · exact .stops
    · exact .stops
    · exact .ite .stops <| .bind readArea_formed fun _ => .bind (.apart addCost_keeps rfl) fun _ => .pure

theorem writeArea_formed {x : Issue} {ar : Area} {a n v : Nat} : EngCarries MemoryWf (writeArea x ar a n v) := by
  unfold writeArea
  split
  · exact .apart modEng_keeps rfl
  · exact .modCx fun _ => .ite holdItem_formed leaveStore_formed

theorem memStore_formed {x : Issue} {a n v : Nat} : EngCarries MemoryWf (memStore x a n v) :=
  .bind .get fun _ => by
    split
    · exact .stops
    · exact .stops
    · exact .bind (.apart addCost_keeps rfl) fun _ => writeArea_formed

theorem storeWords_formed (x : Issue) : ∀ (a : Nat) (l : List Word), EngCarries MemoryWf (storeWords x a l)
  | _, [] => .pure
  | a, _ :: ws => .bind memStore_formed fun _ => storeWords_formed x (a + 4) ws

theorem loadWords_formed (x : Issue) : ∀ (a n : Nat), EngCarries MemoryWf (loadWords x a n)
  | _, 0 => .pure
  | a, n + 1 => .bind memLoad_formed fun _ => .bind (loadWords_formed x (a + 4) n) fun _ => .pure

/-! ### Traps and completions of instructions (file 14) -/

theorem followed_formed {e : Fin 16} {check : Bool} {x : Issue} {charge : List Cycles} {items : List (Nat × Nat)} {samples : List Nat}
    {g : Eng} {s : State} : Carries MemoryWf s (followed e check x charge items samples g s) :=
  .ite .refl <| .comp pushTrail_formed <| .ite (.apart setPair_keeps rfl) .refl

theorem storeFrame_formed {x : Issue} {pc : Word} : EngCarries MemoryWf (storeFrame x pc) :=
  .bind (.apart getEng_keeps rfl) fun _ => .ite .stops <| .bind (.apart modEng_keeps rfl) fun _ => storeWords_formed _ _ _

theorem takeTrap_formed {x : Issue} {cause code : Nat} {addr : Option Nat} {pc : Word} {spent : Occur → Bool → List Cycles} {s : State} :
    Carries MemoryWf s (takeTrap x cause code addr pc spent s) := by
  unfold takeTrap
  dsimp only
  refine .comp (t := nameSamples x.engine.val pc.toNat true
    (runCycles x.engine true (spent (occurOf (eng s x.engine.val) pc) true) (dropAsked x.engine.val 0 s))) ?_ <|
    .past nameSamples_keeps rfl <| .past runCycles_keeps rfl <| .apart dropAsked_keeps rfl
  split
  · exact .comp followed_formed <| .apart doubleTrap_keeps rfl
  · next c h =>
    exact .comp followed_formed <| .comp (.ite (.apart taskTrap_keeps rfl) .refl) <| .past runCycles_keeps rfl <| .past setEng_keeps rfl <|
      storeFrame_formed _ _ c h

theorem complete_formed {x : Issue} {k : Kind} {a : After} {before : Eng} {cost : Cost} {s : State} :
    Carries MemoryWf s (complete x k a before cost s) :=
  .comp followed_formed <| .past chargeStall_keeps rfl <| .past chargeHandler_keeps rfl <| .past runCycles_keeps rfl <|
  .past nameSamples_keeps rfl <| .past setAsked_keeps rfl <| .apart setEng_keeps rfl

theorem runInstr_formed {x : Issue} {k : Kind} {body : EngM After} {s : State} (h : EngCarries MemoryWf body) :
    Carries MemoryWf s (runInstr x k body s) := by
  unfold runInstr
  dsimp only
  split
  · exact takeTrap_formed
  · refine .ite .refl <| .ite (.comp takeTrap_formed <| .apart setEng_keeps rfl) ?_
    split
    · exact .refl
    · exact askHost_formed
    · exact .comp takeTrap_formed <| .past setEng_keeps rfl <| .apart fillPorts_keeps rfl
    · next c e => exact .comp (.comp complete_formed <| .apart fillPorts_keeps rfl) (h _ _ c e)

theorem instrOut_formed {x : Issue} {k : Kind} {body : EngM After} {s : State} (h : EngCarries MemoryWf body) :
    OutCarries MemoryWf s (instrOut x k body s) := .next <| .onlyIf fun _ => runInstr_formed h

/-! ### Loads and stores (file 14) -/

theorem execLd_formed {x : Issue} {d b : RegCode} {m : Amode} {sz : Size} {sx : Bool} {s : State} :
    OutCarries MemoryWf s (execLd x d b m sz sx s) :=
  instrOut_formed <| .ite .stops <| .bind (.apart getEng_keeps rfl) fun _ => .bind (.apart address_keeps rfl) fun _ =>
    .bind memLoad_formed fun _ => .bind (.apart updateBase_keeps rfl) fun _ => .bind (.apart putReg_keeps rfl) fun _ => .pure

theorem execPopm_formed {x : Issue} {mask : BitVec 11} {s : State} : OutCarries MemoryWf s (execPopm x mask s) :=
  instrOut_formed <| .bind (.apart addCost_keeps rfl) fun _ => .bind (.apart getEng_keeps rfl) fun _ =>
    .bind (loadWords_formed _ _ _) fun _ => .bind (.apart (putWords_keeps _ _ _) rfl) fun _ => .bind (.apart putReg_keeps rfl) fun _ =>
    .pure

theorem execMovs_formed {x : Issue} {d b : RegCode} {sz : Size} {s : State} : OutCarries MemoryWf s (execMovs x d b sz s) := by
  refine instrOut_formed <| .ite .stops <| .bind (.apart getEng_keeps rfl) fun _ => .ite .stops <| .bind memLoad_formed fun _ =>
    .bind memStore_formed fun _ => .ite ?_ ?_
  · exact .getSet (fun _ => .apart unnamed_keeps rfl) fun _ => .bind (.apart noteItem_keeps rfl) fun _ =>
      .bind (.apart modEng_keeps rfl) fun _ => .bind (.apart addCost_keeps rfl) fun _ => .pure
  · exact .bind (.apart updateBase_keeps rfl) fun _ => .bind (.apart updateBase_keeps rfl) fun _ =>
      .bind (.apart addCost_keeps rfl) fun _ => .pure

theorem atomic_formed {x : Issue} {a : Nat} {new : Nat → Option Word} : EngCarries MemoryWf (atomic x a new) := by
  refine .bind .get fun _ => ?_
  split
  · exact .stops
  · refine .bind memLoad_formed fun _ => .ite (.bind (.apart noteInput_keeps rfl) fun _ => ?_) ?_
    all_goals
      split
      · exact .pure
      · split
        · exact .bind (.apart noteItem_keeps rfl) fun _ => .bind (.apart modEng_keeps rfl) fun _ => .pure
        · exact .bind (.apart noteItem_keeps rfl) fun _ => .bind (.modCx fun _ => commitStore_formed) fun _ => .pure
        · exact .pure

/-! ### System instructions (file 14) -/

theorem earlierDone_formed {x : Issue} : EngCarries MemoryWf (earlierDone x) :=
  .bind (.modCx fun _ => settled_formed) fun _ => .bind .get fun _ => .ite .stops .pure

theorem execSend_formed {x : Issue} {d r : RegCode} {s : State} : OutCarries MemoryWf s (execSend x d r s) :=
  instrOut_formed <| .ite .stops <| .bind (.apart getEng_keeps rfl) fun _ => .bind (.apart addCost_keeps rfl) fun _ =>
    .bind (.apart descPlace_keeps rfl) fun _ => .bind (loadWords_formed _ _ _) fun _ => .bind .get fun _ =>
    .ite (.bind (.apart addCost_keeps rfl) fun _ => .bind (.apart putReg_keeps rfl) fun _ => .pure) <| .bind earlierDone_formed fun _ =>
    .bind (.modCx fun _ => .ite holdItem_formed pushDesc_formed) fun _ => .bind (.apart addCost_keeps rfl) fun _ =>
    .bind (.apart putReg_keeps rfl) fun _ => .pure

theorem execRecv_formed {x : Issue} {d r : RegCode} {s : State} : OutCarries MemoryWf s (execRecv x d r s) :=
  instrOut_formed <|
    .ite .stops <|
    .bind (.apart getEng_keeps rfl) fun _ =>
    .bind (.apart addCost_keeps rfl) fun _ =>
    .bind (.apart descPlace_keeps rfl) fun _ => by
      split
      · exact .bind (.apart putReg_keeps rfl) fun _ => .pure
      · exact .bind (.apart noteInput_keeps rfl) fun _ => .bind (storeWords_formed _ _ _) fun _ => .bind (.apart modEng_keeps rfl) fun _ =>
          .bind (.apart putReg_keeps rfl) fun _ => .pure

theorem execMfs_formed {x : Issue} {d : RegCode} {n : BitVec 8} {s : State} : OutCarries MemoryWf s (execMfs x d n s) := by
  have puts {v : Word} : EngCarries MemoryWf (putReg x.engine d v >>= fun _ => (pure .next : EngM After)) :=
    .bind (.apart putReg_keeps rfl) fun _ => .pure
  have noted {i : Nat} {v : Word} : EngCarries MemoryWf (noteInput i >>= fun _ => putReg x.engine d v >>= fun _ => (pure .next : EngM After)) :=
    .bind (.apart noteInput_keeps rfl) fun _ => puts
  exact instrOut_formed <| .bind .get fun _ => .ite .stops <| .ite .stops <| .bind (.apart addCost_keeps rfl) fun _ =>
    .ite (.bind (.apart modEng_keeps rfl) fun _ => .ite noted puts) <| .ite noted puts

theorem execReti_formed {x : Issue} {s : State} : OutCarries MemoryWf s (execReti x s) :=
  instrOut_formed <| .bind (.apart getEng_keeps rfl) fun _ => .ite .stops <| .bind (loadWords_formed _ _ _) fun _ => .ite .stops <|
    .bind (.apart addCost_keeps rfl) fun _ => .bind (.apart modEng_keeps rfl) fun _ => .pure

theorem pickInt_formed (x : Issue) (ivec : Nat) :
    ∀ (l : List Nat) (best : Option (Nat × Nat × Word)) (ipl : Nat), EngCarries MemoryWf (pickInt x ivec l best ipl)
  | [], _, _ => .pure
  | _ :: ns, _, _ => .bind (loadWords_formed _ _ _) fun _ => .ite (pickInt_formed x ivec ns _ _) <| pickInt_formed x ivec ns _ _

theorem enterInt_formed {x : Issue} {pc : Word} : EngCarries MemoryWf (enterInt x pc) :=
  .bind .get fun _ => .bind (.apart modEng_keeps rfl) fun _ => .bind (pickInt_formed _ _ _ _ _) fun _ => by
    split
    · exact .pure
    · exact .bind (.apart modEng_keeps rfl) fun _ => .bind storeFrame_formed fun _ => .bind (.apart modEng_keeps rfl) fun _ => .pure

theorem awaitTable_formed {e keep : Nat} {line : Bool} {addr len : Nat} {s : State} :
    Carries MemoryWf s (awaitTable e keep line addr len s) := .past setEng_keeps rfl askHost_formed

theorem execInterruptEntry_formed {x : Issue} {s : State} : OutCarries MemoryWf s (execInterruptEntry x s) := by
  refine .next <| .onlyIf fun s => ?_
  dsimp only
  split
  · exact .refl
  · exact awaitTable_formed
  · exact .comp followed_formed <| .past doubleTrap_keeps rfl <| .apart dropAsked_keeps rfl
  · exact .past setEng_keeps rfl <| .apart dropAsked_keeps rfl
  · next c h =>
    exact .comp followed_formed <| .past runCycles_keeps rfl <| .past nameSamples_keeps rfl <| .past setAsked_keeps rfl <|
      .past unnamed_keeps rfl <| enterInt_formed _ _ c h

theorem execInboundQueueDelivery_formed {e : Fin 16} {s : State} : OutCarries MemoryWf s (execInboundQueueDelivery e s) :=
  .next <| .whenOn fun _ => by
    split
    · exact .refl
    · exact .comp (.ite .refl <|
          .ite (.past mirrorShadow_keeps rfl <| .comp (.ite .refl <| .apart (raise_keeps _ _ _) rfl) <| .apart setEng_keeps rfl) <|
          .past mirrorShadow_keeps rfl <| .comp (.ite (.apart (modPw_keeps _ _) rfl) .refl) <| .apart setEng_keeps rfl) <|
        recordFields_formed

/-! ### Hand-overs of pairs (file 15) -/

theorem commitDone_formed {c : CommitRun} {s : State} : Carries MemoryWf s (commitDone c s) :=
  .comp commitEnds_formed <| .past leaveStart_keeps rfl <| .past writeReport_keeps rfl <| .apart (modStg_keeps _ _) rfl

theorem commitMaybeDone_formed {s : State} : Carries MemoryWf s (commitMaybeDone s) := by
  unfold commitMaybeDone
  split
  · exact .ite commitDone_formed .refl
  · exact .refl

theorem endHandover_formed {k : Nat} {h : HandOver} {status result : Nat} {s : State} :
    Carries MemoryWf s (endHandover k h status result s) :=
  .comp commitMaybeDone_formed <| .comp (by
    split
    · exact .comp finishGated_formed <| .apart engRecord_keeps rfl
    · exact .apart engRecord_keeps rfl) <|
  .apart setPair_keeps rfl

theorem splitNow_formed {k : Nat} {h : HandOver} {s : State} : Carries MemoryWf s (splitNow k h s) :=
  .past setPhase_keeps rfl <| .past rewriteReport_keeps rfl <| .comp retarget_formed <| .past setPair_keeps rfl <|
  .past mapProgs_keeps rfl <| .past setEng_keeps rfl <| .past setEng_keeps rfl <| .past setEng_keeps rfl <| .past setEng_keeps rfl <|
  .apart mapProgs_keeps rfl

theorem advancePair_formed {k : Nat} {s : State} : Carries MemoryWf s (advancePair k s) := by
  unfold advancePair
  dsimp only
  split
  · exact .refl
  · split
    · exact .ite (.apart setPhase_keeps rfl) .refl
    · exact .ite (.past setPhase_keeps rfl <| .comp drained_formed catchUp_formed) .refl
    · exact .ite (.ite splitNow_formed .refl) <| .ite (.past setPhase_keeps rfl <| .apart mergeMove_keeps rfl) .refl
    · exact .ite endHandover_formed .refl
    · exact .refl

theorem advancePairs_formed {s : State} : Carries MemoryWf s (advancePairs s) := .foldl fun _ _ => advancePair_formed

theorem couple_formed {k : Nat} {s : State} : Carries MemoryWf s (couple k s) :=
  .past setPhase_keeps rfl <| .past rewriteReport_keeps rfl <| .comp retarget_formed <| .past coupleEng_keeps rfl <|
  .past setPair_keeps rfl <| .past mapProgs_keeps rfl <| .apart setEng_keeps rfl

theorem mergeFails_formed {k : Nat} {h : HandOver} {s : State} : Carries MemoryWf s (mergeFails k h s) :=
  .comp endHandover_formed <| .past (raise_keeps _ _ _) rfl <| .past setPair_keeps rfl <| .past setEng_keeps rfl <| .apart setEng_keeps rfl

theorem execMergeSelftestDone_formed {k : Fin 8} {failed : List (Fin 203)} {s : State} :
    OutCarries MemoryWf s (execMergeSelftestDone k failed s) :=
  .next <| by
    split
    · exact .ite (.ite (.past testEnds_keeps rfl couple_formed) <| .past testEnds_keeps rfl mergeFails_formed) .refl
    · exact .refl

theorem execPairMismatch_formed {k : Fin 8} {lane : Fin 4} {bit : Fin 128} {s : State} :
    OutCarries MemoryWf s (execPairMismatch k lane bit s) :=
  .next <| .onlyIf fun _ => .comp (by
    dsimp only
    split
    · exact endHandover_formed
    · exact .refl) <|
    .past (raise_keeps _ _ _) rfl <|
    .past stillEng_keeps rfl <|
    .past stillEng_keeps rfl <|
    .past stopPair_keeps rfl <| .past setPair_keeps rfl <| .past engRecord_keeps rfl <| shadowSteps_formed _ _ _

/-! ### The tick of a commit (file 03) -/

theorem execCheckAndPlacementComplete_formed {s : State} : OutCarries MemoryWf s (execCheckAndPlacementComplete s) :=
  .next <| .whenOn fun _ => by
    split
    · exact .refl
    · exact .ite .refl <| by
          split
          · exact commitEnds_formed
          · exact .ite commitEnds_formed <| .apart setRun_keeps rfl

theorem execNewSetHeld_formed {s : State} : OutCarries MemoryWf s (execNewSetHeld s) :=
  .next <| .whenOn fun _ => by
    split
    · exact .refl
    · exact .ite .refl <| by
          split
          · exact commitEnds_formed
          · exact .past setRun_keeps rfl <| .apart (modStg_keeps _ _) rfl

theorem lchNoPwm_formed {n : Nat} {s : State} : Carries MemoryWf s (lchNoPwm n s) :=
  .ite .refl <| .comp (.ite (.comp tookState_formed <| .comp newPeriod_formed <| .apart setLch_keeps rfl) .refl) <| .apart setLch_keeps rfl

theorem lchCommit_formed {first : Bool} {oldGangs : List (Nat × Nat)} {new : Vector Mem 16} {s : State} :
    Carries MemoryWf s (lchCommit first oldGangs new s) :=
  .comp (.foldl fun _ _ =>
      .comp (.ite .refl <| .past syncGang_keeps rfl <| .comp applyLch_formed lchNoPwm_formed) <|
      .comp (.ite .refl <| .apart setLch_keeps rfl) <|
      .comp (.ite lchUnsafe_formed .refl) <| .ite (.comp endWaits_formed <| .comp endTimed_formed <| .apart setLch_keeps rfl) .refl) <|
  .comp (.foldl fun _ _ => .apart gangProtection_keeps rfl) <| .past gangHeat_keeps rfl <| .apart modLd_keeps rfl

theorem hbCommit_formed {first : Bool} {s : State} : Carries MemoryWf s (hbCommit first s) :=
  .foldl fun _ _ =>
    .comp (.ite .refl <| .comp applyHb_formed <| .ite (.comp endSet_formed <| .apart setHb_keeps rfl) .refl) <|
    .comp (.ite hbUnsafe_formed .refl) <| by
      split
      · exact .ite .refl endNow_formed
      · exact .refl

theorem vlvRemove_formed {v : Nat} {s : State} : Carries MemoryWf s (vlvRemove v s) :=
  .comp (by
      unfold vlvRemove
      dsimp only
      split
      · exact .refl
      · exact dropWaiting_formed
      · exact .refl
      · exact releaseEarly_formed) <|
  .comp dropPending_formed <| .apart setVlv_keeps rfl

theorem vsCommit_formed {first : Bool} {s : State} : Carries MemoryWf s (vsCommit first s) :=
  .comp (.ite boostTo_formed <| .ite (.ite (.apart modVs_keeps rfl) boostTo_formed) .refl) <| .past modVs_keeps rfl <| .foldl fun _ _ =>
  .comp (.ite vlvRemove_formed <| .ite (.apart setVlv_keeps rfl) .refl) <| .ite vlvUnsafe_formed .refl

theorem accCommit_formed {s : State} : Carries MemoryWf s (accCommit s) :=
  .comp (.ite .refl endRelease_formed) <| by
    split
    · exact .ite (.comp finishFree_formed <| .apart airEnd_keeps rfl) .refl
    · exact .refl

theorem progCommit_formed {ts : Vector Mem 16} {place : Placement} {s : State} : Carries MemoryWf s (progCommit ts place s) :=
  .past modeCommit_keeps rfl <| .comp retarget_formed <| .past moveRecords_keeps rfl <| .past fillPlaces_keeps rfl <|
  .past (modStg_keeps _ _) rfl <| .past endHandlers_keeps rfl <| .apart stopProgs_keeps rfl

theorem applySet_formed {c : CommitRun} {s : State} : Carries MemoryWf s (applySet c s) :=
  .comp progCommit_formed <| .comp accCommit_formed <| .comp nsCommit_formed <| .past fsCommit_keeps rfl <| .comp swCommit_formed <|
  .comp vsCommit_formed <| .comp hbCommit_formed <| .comp lchCommit_formed <| .past modLd_keeps rfl <|
  .comp (.ite .refl <| .apart hwPutAt_keeps rfl) <| .apart (modStg_keeps _ _) rfl

theorem execCommitTick_formed {s : State} : OutCarries MemoryWf s (execCommitTick s) :=
  .next <| .whenOn fun _ => by
    split
    · exact .refl
    · exact .ite .refl <| .comp applySet_formed <| .apart setRun_keeps rfl

theorem execMramMarkCommitted_formed {s : State} : OutCarries MemoryWf s (execMramMarkCommitted s) :=
  .next <| .whenOn fun _ => by
    split
    · exact .refl
    · exact .ite .refl <| .comp commitMaybeDone_formed <| .past setRun_keeps rfl <| .apart (modStg_keeps _ _) rfl

/-! ### Arithmetic instructions (file 14) -/

theorem binOp_formed {fn : Nat} {x : Issue} {d r t : RegCode} {f : Bool → Word → Word → Alu} {s : State} :
    OutCarries MemoryWf s (binOp fn x d r t f s) := instrOut_formed <| .bind (.apart getEng_keeps rfl) fun _ => .apart putAlu_keeps rfl

theorem unOp_formed {w : Word} {x : Issue} {d r : RegCode} {f : Word → Alu} {s : State} : OutCarries MemoryWf s (unOp w x d r f s) :=
  instrOut_formed <| .bind (.apart getEng_keeps rfl) fun _ => .apart putAlu_keeps rfl

theorem mulOp_formed {fn n : Nat} {x : Issue} {d r t : RegCode} {f : Word → Word → Alu} {s : State} :
    OutCarries MemoryWf s (mulOp fn n x d r t f s) :=
  instrOut_formed <| .bind (.apart addCost_keeps rfl) fun _ => .bind (.apart getEng_keeps rfl) fun _ => .apart putAlu_keeps rfl

/-! ### Control flow (file 14) -/

theorem condBranch_formed {x : Issue} {c : RegCode} {off : BitVec 22} {zero : Bool} {s : State} :
    OutCarries MemoryWf s (condBranch x c off zero s) :=
  instrOut_formed <| .ite (.bind (.apart getEng_keeps rfl) fun _ => .ite (.apart jumpTo_keeps rfl) .pure) .stops

theorem callTo_formed {x : Issue} {words : Nat} {mask : BitVec 11} {t : Word} : EngCarries MemoryWf (callTo x words mask t) :=
  .ite .stops <| .bind (.apart getEng_keeps rfl) fun _ => .bind (.apart addCost_keeps rfl) fun _ =>
  .bind (.apart lowerSp_keeps rfl) fun _ => .bind (storeWords_formed _ _ _) fun _ => .pure

theorem execRet_formed {x : Issue} {s : State} : OutCarries MemoryWf s (execRet x s) :=
  instrOut_formed <| .bind (.apart getEng_keeps rfl) fun _ => .bind (loadWords_formed _ _ _) fun _ => .ite .stops <| .ite .stops <|
    .bind (.apart addCost_keeps rfl) fun _ => .bind (loadWords_formed _ _ _) fun _ => .bind (.apart putFrame_keeps rfl) fun _ =>
    .bind (.apart modEng_keeps rfl) fun _ => .bind (.apart putReg_keeps rfl) fun _ => .pure

theorem execLeave_formed {x : Issue} {s : State} : OutCarries MemoryWf s (execLeave x s) :=
  instrOut_formed <| .bind (.apart getEng_keeps rfl) fun _ => .bind (.apart addCost_keeps rfl) fun _ => by
    split
    · exact .stops
    · exact .bind (.apart modEng_keeps rfl) fun _ => .pure

theorem execRep_formed {x : Issue} {r : RegCode} {ni : Bool} {s : State} : OutCarries MemoryWf s (execRep x r ni s) := by
  have sets {f : Eng → Eng} {a : After} : EngCarries MemoryWf (modEng x.engine f >>= fun _ => pure a) :=
    .bind (.apart modEng_keeps rfl) fun _ => .pure
  refine instrOut_formed <| .bind (.apart getEng_keeps rfl) fun _ => ?_
  split
  · exact .ite .pure .stops
  · exact .ite (.ite sets sets) <| .ite .stops <| .ite sets sets

/-! ### Supplies (file 21) -/

theorem applyDie_formed {d : Die} {s : State} : Carries MemoryWf s (applyDie d s) :=
  .comp (.foldl fun _ _ => applyHb_formed) <| .foldl fun _ _ => applyLch_formed

theorem lfOff_formed {s : State} : Carries MemoryWf s (lfOff s) := by
  unfold lfOff
  split
  · exact .comp finishFree_formed <| .apart airEnd_keeps rfl
  · exact .refl

theorem dieOutputsOff_formed {d : Die} {s : State} : Carries MemoryWf s (dieOutputsOff d s) := by
  unfold dieOutputsOff
  extract_lets ld s₁
  refine .comp (t := s₁) ?_ <| .apart ldField_keeps rfl
  cases d with
  | loadA => exact applyDie_formed
  | loadB => exact applyDie_formed
  | base => exact .comp lfOff_formed <| .foldl fun _ _ => vlvSafeOff_formed
  | _ => exact .refl

theorem execSupplyReturn_formed {x : DieSupply} {s : State} : OutCarries MemoryWf s (execSupplyReturn x s) := by
  refine .next <| .onlyIf fun _ => .comp (.ite ?valves .refl) <| .comp (.foldl fun _ _ => .comp hbSafe_formed <| .apart setHb_keeps rfl) <|
    .comp applyDie_formed <| .comp (.ite (.apart reloadMirror_keeps rfl) .refl) <| .past ldField_keeps rfl <| .apart noteSupply_keeps rfl
  exact .comp (.foldl fun _ _ => .comp vlvSafe_formed <| .apart setVlv_keeps rfl) <|
    .ite (.comp boostTo_formed <| .apart modVs_keeps rfl) .refl

/-! ### What passes with time alone -/

theorem ringTick_formed {s : State} : Carries MemoryWf s (ringTick s) := recordFields_formed

theorem followShadows_formed {s : State} : Carries MemoryWf s (followShadows s) :=
  .foldl fun _ _ => .ite .refl <| .comp (runShadow_formed _ _ _) <| .apart setPair_keeps rfl

theorem drainBuffers_formed {s : State} : Carries MemoryWf s (drainBuffers s) := .foldl fun _ _ => drained_formed

theorem dieTick_formed {s : State} : Carries MemoryWf s (dieTick s) := by
  unfold dieTick
  exact .past markConditions_keeps rfl <| .comp entryTick_formed <| .comp startTick_formed <| .comp watchStalls_formed <|
    .comp retireTurns_formed <| .comp (answerReads_formed _ _) <| .comp advancePairs_formed <| .comp drainBuffers_formed <|
    .comp followShadows_formed <| .comp ringTick_formed <| .apart quietTick_keeps rfl

end Sys2Proof.Frames
end

section
/-! SUPPORT. The canonical form of shared SRAM and MRAM: every command and every step. -/

namespace Sys2Proof.Frames

open Sys2Proof.Machine Sys2Proof.Safety Sys2Proof.Laws

/-! ### The commands

Every command keeps the form, family by family. Where a meaning is a short use of the operations above, its case says so; where it touches
neither memory, its frame is cited. -/

/-- Engines (file 14). Where the meaning is a use of a shared operation, `exec` is unfolded for the unifier to find it. -/
theorem exec_formed_of_engine {c : Instr} {s : State} (h : family c = .engine) : OutCarries MemoryWf s (exec c s) := by
  cases c
  case interruptEntry => exact execInterruptEntry_formed
  case handlerDispatch => exact .apart execHandlerDispatch_keeps rfl
  case handlerCycleBudgetExceeded => exact .next <| .onlyIf fun _ => takeTrap_formed
  case inboundQueueDelivery => exact execInboundQueueDelivery_formed
  case localTimer => exact .apart execLocalTimer_keeps rfl
  case add | sub | adc | sbc | and | or | xor | min | max | minu | maxu | shl | shr | sar | rol | ror => delta exec; exact binOp_formed
  case not | neg | abs | mov | clz | popc | sxb | sxh | addi | andi | ori | xori | shi => delta exec; exact unOp_formed
  case mul | mulh | mulhu | div | divu | rem | remu => delta exec; exact mulOp_formed
  case ldi => exact instrOut_formed <| .apart putAlu_keeps rfl
  case ldl => exact instrOut_formed <| .bind (.apart addCost_keeps rfl) fun _ => .apart putAlu_keeps rfl
  case cmp | cmpi => exact instrOut_formed <| .ite (.bind (.apart getEng_keeps rfl) fun _ => .apart putAlu_keeps rfl) .stops
  case ld => exact execLd_formed
  case st =>
    exact instrOut_formed <| .bind (.apart getEng_keeps rfl) fun _ => .bind (.apart address_keeps rfl) fun _ =>
      .bind memStore_formed fun _ => .bind (.apart updateBase_keeps rfl) fun _ => .pure
  case lea =>
    exact instrOut_formed <| .ite .stops <| .bind (.apart address_keeps rfl) fun _ => .bind (.apart putReg_keeps rfl) fun _ => .pure
  case pushm =>
    exact instrOut_formed <| .bind (.apart addCost_keeps rfl) fun _ => .bind (.apart getEng_keeps rfl) fun _ =>
      .bind (.apart lowerSp_keeps rfl) fun _ => .bind (storeWords_formed _ _ _) fun _ => .pure
  case popm => exact execPopm_formed
  case movs => exact execMovs_formed
  case xchg =>
    exact instrOut_formed <| .bind (.apart getEng_keeps rfl) fun _ => .bind (.apart addCost_keeps rfl) fun _ => .bind atomic_formed fun _ =>
      .bind (.apart putReg_keeps rfl) fun _ => .pure
  case cas =>
    exact instrOut_formed <| .bind .get fun _ => .ite .stops <| .bind (.apart addCost_keeps rfl) fun _ => .bind atomic_formed fun _ =>
      .bind (.apart putReg_keeps rfl) fun _ => .pure
  case br | jr => exact instrOut_formed <| .bind (.apart getEng_keeps rfl) fun _ => .apart jumpTo_keeps rfl
  case bz | bnz => delta exec; exact condBranch_formed
  case call | callr => exact instrOut_formed <| .bind (.apart getEng_keeps rfl) fun _ => callTo_formed
  case callx => exact instrOut_formed callTo_formed
  case ret => exact execRet_formed
  case loop => exact instrOut_formed <| .bind (.apart getEng_keeps rfl) fun _ => .apart openLoop_keeps rfl
  case loopi => exact instrOut_formed <| .apart openLoop_keeps rfl
  case leave => exact execLeave_formed
  case rep => exact execRep_formed
  case fence =>
    exact instrOut_formed <| .bind earlierDone_formed fun _ => .bind (.modCx fun _ => .apart fenceLines_keeps rfl) fun _ => .pure
  case send => exact execSend_formed
  case recv => exact execRecv_formed
  case wait =>
    exact instrOut_formed <| .bind (.apart getEng_keeps rfl) fun _ => .ite .stops <| .bind (.apart modEng_keeps rfl) fun _ => .pure
  case yield =>
    exact instrOut_formed <| .bind (.apart getEng_keeps rfl) fun _ => .ite .pure <|
      .getSet (fun _ => .past setEng_keeps rfl <| .apart unnamed_keeps rfl) fun _ => .pure
  case trap => exact instrOut_formed .stops
  case mfs => exact execMfs_formed
  case mts =>
    exact instrOut_formed <| .bind (.apart getEng_keeps rfl) fun _ => .ite .stops <| .ite .stops <|
      .bind (.apart addCost_keeps rfl) fun _ => .bind (.apart modEng_keeps rfl) fun _ => .pure
  case reti => exact execReti_formed
  case nopInstruction => exact instrOut_formed .pure
  case illegalInstruction => exact .ite (.next .refl) <| instrOut_formed .stops
  all_goals cases h

/-- Rings and register accesses (files 01, 02). -/
theorem exec_formed_of_ring {c : Instr} {s : State} (h : family c = .ring) : OutCarries MemoryWf s (exec c s) := by
  cases c
  case doorbellWrite => exact .next <| .whenOn fun _ => .comp doorbellWrite_formed <| .apart hostAccess_keeps rfl
  case ringStart | ringStop => exact .next <| .whenOn fun _ => .onlyIf fun _ => .comp ringCfgWrite_formed <| .apart hostAccess_keeps rfl
  case ringStopped => exact .next <| .onlyIf fun _ => setRing_formed
  case ringSetupWrite => exact .next <| .whenOn fun _ => .comp ringSetupWrite_formed <| .apart hostAccess_keeps rfl
  case registerWrite => exact execRegisterWrite_formed
  case readClear => exact .apart execReadClear_keeps rfl
  case hostRead => exact execHostRead_formed
  case descriptorFetch => exact .next <| .whenOn fun _ => fetchNext_formed
  case irqTimerExpiry => exact .next <| .onlyIf fun _ => signalRing_formed
  case stallTimeout => exact .next <| .onlyIf fun _ => .ite setRing_formed stallDrop_formed
  case nop | echo => exact .operation fun _ _ _ => finish_formed
  case placementQuery => exact .operation fun _ _ _ => .ite finishFree_formed <| .comp finish_formed toBuffer_formed
  all_goals cases h

/-- Staging and commit (file 03). -/
theorem exec_formed_of_staging {c : Instr} {s : State} (h : family c = .staging) : OutCarries MemoryWf s (exec c s) := by
  cases c
  case autoCommit => exact .apart execAutoCommit_keeps rfl
  case stageWrite => exact runBlock_formed fun _ _ _ _ => .comp finishRecorded_formed <| .apart stageBytes_keeps rfl
  case stageLoad => exact .operation fun _ _ _ => .comp finishRecorded_formed <| .apart (modStg_keeps _ _) rfl
  case stageDiscard => exact .operation fun _ _ _ => .comp finishRecorded_formed <| .apart discardTables_keeps rfl
  case stageQuery => exact .operation fun _ _ _ => finishRecorded_formed
  case stgDataWrite => exact .apart execStgDataWrite_keeps rfl
  case stgCtrlCommit => exact .apart execStgCtrlCommit_keeps rfl
  case stgCtrlCheck => exact .apart execStgCtrlCheck_keeps rfl
  case stgCtrlDiscard => exact .apart execStgCtrlDiscard_keeps rfl
  case commitCheck | commit => exact .operation fun _ _ _ => .apart acceptCommit_keeps rfl
  case checkAndPlacementComplete => exact execCheckAndPlacementComplete_formed
  case newSetHeld => exact execNewSetHeld_formed
  case commitTick => exact execCommitTick_formed
  case mramMarkCommitted => exact execMramMarkCommitted_formed
  all_goals cases h

/-- Sessions and heartwood (files 03, 19). -/
theorem exec_formed_of_session {c : Instr} {s : State} (h : family c = .session) : OutCarries MemoryWf s (exec c s) := by
  cases c
  case sessionChallenge => exact .operation fun _ _ _ => .comp finish_formed <| .past setSes_keeps rfl <| .apart unnamed_keeps rfl
  case sessionOpen => exact execSessionOpen_formed
  case sessionClose => exact .operation fun _ _ _ => .ite (.comp finishGated_formed <| .apart sessionClosed_keeps rfl) finish_formed
  case challengeExpiry => exact .apart execChallengeExpiry_keeps rfl
  case sessionLockExpiry => exact .apart execSessionLockExpiry_keeps rfl
  case sessionExpiry => exact .apart execSessionExpiry_keeps rfl
  case runtimeSessionOpen => exact .apart execRuntimeSessionOpen_keeps rfl
  case heartwoodRecordWrite => exact .next <| .whenOn fun _ => hwWrite_formed
  case hwRead => exact .operation fun _ _ _ => .comp finish_formed toBuffer_formed
  case hwQuery => exact .operation fun _ _ _ => finish_formed
  all_goals cases h

/-- Load channels (file 04). -/
theorem exec_formed_of_load {c : Instr} {s : State} (h : family c = .load) : OutCarries MemoryWf s (exec c s) := by
  cases c
  case lchSet | lchTimed => exact .operation fun _ _ _ => .comp asked_formed request_formed
  case lchSetMask => exact .operation fun _ _ _ => .comp finish_formed <| .foldl fun _ _ => request_formed
  case lchQuery | heatQuery => exact .operation fun _ _ _ => finish_formed
  case timedEnd => exact execTimedEnd_formed
  case leafStepUp => exact .apart execLeafStepUp_keeps rfl
  case leafStepDown => exact .apart execLeafStepDown_keeps rfl
  case pwmPeriodStart => exact execPwmPeriodStart_formed
  case inrushEnd => exact .apart execInrushEnd_keeps rfl
  case preheatEnd => exact .apart execPreheatEnd_keeps rfl
  case budgetAllocation =>
    exact .next <| .whenOn fun _ => .ite .refl <| .comp (.ite (.apart (raise_keeps _ _ _) rfl) .refl) <|
      .comp (.foldl fun _ _ => applyGrant_formed) <| .apart ldField_keeps rfl
  case gangImbalance => exact .apart execGangImbalance_keeps rfl
  case bankSenseImplausible => exact .apart execBankSenseImplausible_keeps rfl
  case cpFreezeEnd => exact .apart execCpFreezeEnd_keeps rfl
  case bankSensePlausible => exact .apart execBankSensePlausible_keeps rfl
  all_goals cases h

/-- Wire fusing (file 05). -/
theorem exec_formed_of_wire {c : Instr} {s : State} (h : family c = .wire) : OutCarries MemoryWf s (exec c s) := by
  cases c
  case wireModelUpdate => exact execWireModelUpdate_formed
  case restartCountReset => exact .next <| .whenClocked fun _ => .ite (.past setLch_keeps rfl tryRestart_formed) .refl
  case heatSnapshot => exact .apart execHeatSnapshot_keeps rfl
  case ambientStale => exact .apart execAmbientStale_keeps rfl
  case shortCircuitLimit =>
    exact .next <| .whenClocked fun _ => .ite .refl <| .past setLch_keeps rfl <| .comp protOff_formed <| .past freezeBank_keeps rfl <|
      .past forceLeaves_keeps rfl <| .apart setLch_keeps rfl
  case envelopeTrip => exact .next <| .whenClocked fun _ => .ite protOff_formed .refl
  case switchOvertemp => exact .next <| .whenClocked fun _ => .ite .refl <| .comp protOff_formed <| .apart setLch_keeps rfl
  case onStateDiagnosis => exact execOnStateDiagnosis_formed
  case reverseCurrent => exact .next <| .whenClocked fun _ => .ite diagResult_formed .refl
  case offStateDiagnosis => exact .next <| .whenClocked fun _ => .ite offDiag_formed .refl
  case protClear =>
    exact .operation fun _ _ _ => .comp finish_formed <| .past syncGang_keeps rfl <| .comp applyLch_formed <|
      .past setLch_keeps rfl endTimed_formed
  case wireQuery => exact .operation fun _ _ _ => finish_formed
  case wireAmbient => exact .operation fun _ _ _ => .comp finish_formed <| .apart modLd_keeps rfl
  case diagRun => exact .operation fun _ _ _ => .comp finish_formed offDiag_formed
  all_goals cases h

/-- Bridges (file 06). -/
theorem exec_formed_of_bridge {c : Instr} {s : State} (h : family c = .bridge) : OutCarries MemoryWf s (exec c s) := by
  cases c
  case brDrive => exact execBrDrive_formed
  case brMove =>
    exact .operation fun _ _ _ => withBridge_formed fun _ _ =>
      .ite (.comp brDone_formed <| .comp (.ite (.past brakeEnd_keeps rfl <| .apart setHb_keeps rfl) .refl) replaced_formed) <|
      .comp driveDir_formed startOp_formed
  case brPulse => exact .operation fun _ _ _ => withBridge_formed fun _ _ => .comp driveDir_formed startOp_formed
  case wiperSet => exact execWiperSet_formed
  case brQuery => exact .operation fun _ _ _ => finish_formed
  case brPosSet =>
    exact .operation fun _ _ _ => withBridge_formed fun _ _ => .comp brDone_formed <| .past mirrorPos_keeps rfl <| .apart setHb_keeps rfl
  case hbSet =>
    exact .operation fun _ _ _ => .comp (.ite (.apart setHb_keeps rfl) <| .comp finish_formed applyHb_formed) <|
      .past setHb_keeps rfl endSet_formed
  case hbDiagRun => exact .operation fun _ _ _ => .comp finish_formed <| .comp hbDiagResult_formed <| .apart setHb_keeps rfl
  case brakeEnd => exact execBrakeEnd_formed
  case peakTimeTrip => exact .next <| .whenClocked fun _ => .ite hbTrip_formed .refl
  case hbShortCircuit =>
    exact .next <| .whenClocked fun _ => .ite (.past setHb_keeps rfl <| .comp hbTrip_formed <| .apart setHb_keeps rfl) .refl
  case hbOvertemp => exact .next <| .whenClocked fun _ => .ite (.comp hbTrip_formed <| .apart setHb_keeps rfl) .refl
  case hbHeldClear => exact .apart execHbHeldClear_keeps rfl
  case ripple => exact execRipple_formed
  case pinchArm => exact .apart execPinchArm_keeps rfl
  case backEmfCountEnd => exact .apart execBackEmfCountEnd_keeps rfl
  case stall => exact .apart execStall_keeps rfl
  case wiperParked => exact .next <| .whenClocked fun _ => .comp parkSettle_formed <| .foldl fun _ _ => parkRead_formed
  case wiperInterval => exact execWiperInterval_formed
  case parkTimeout => exact execParkTimeout_formed
  case driveTimeout => exact execDriveTimeout_formed
  case pulseEnd => exact .apart execPulseEnd_keeps rfl
  case hbOffStateDiagnosis => exact .next <| .whenOn fun _ => .ite (.comp hbDiagResult_formed <| .apart setHb_keeps rfl) .refl
  case hbOnStateOpenLoad => exact execHbOnStateOpenLoad_formed
  all_goals cases h

/-- Valves (file 07). -/
theorem exec_formed_of_valve {c : Instr} {s : State} (h : family c = .valve) : OutCarries MemoryWf s (exec c s) := by
  cases c
  case vlvFire =>
    exact .operation fun _ _ _ => .ite (.comp requestFire_formed <| .apart takeOrder_keeps rfl) <| .past modVs_keeps rfl <|
      .apart takeOrder_keeps rfl
  case vlvRelease => exact execVlvRelease_formed
  case vlvPeriodic =>
    exact .operation fun _ _ _ => .ite (.comp finish_formed <| .apart setVlv_keeps rfl) <|
      .comp (.ite finish_formed <| .apart setVlv_keeps rfl) <| .apart setVlv_keeps rfl
  case vlvQuery | ledgerQuery => exact .operation fun _ _ _ => finish_formed
  case boostSet => exact .operation fun _ _ _ => .comp finish_formed <| .ite boostTo_formed <| .ite boostTo_formed .refl
  case vlvDiagRun => exact .operation fun _ _ _ => .comp finish_formed vgDiagnose_formed
  case fireRequestedStart => exact execFireRequestedStart_formed
  case slotGrant => exact .apart execSlotGrant_keeps rfl
  case deferTimeout => exact execDeferTimeout_formed
  case peakReached =>
    exact .next <| .whenClocked fun _ => .ite .refl <|
      .comp (.ite (.comp enterRelease_formed vlvDiag_formed) <| .apart enterPeak_keeps rfl) <| .past boostPhaseEnds_keeps rfl <|
      .apart noteVlvCur_keeps rfl
  case boostTimeout =>
    exact .next <| .whenClocked fun _ =>
      .ite (.comp enterRelease_formed <| .past (raise_keeps _ _ _) rfl <| .apart boostPhaseEnds_keeps rfl) .refl
  case peakEnd => exact .apart execPeakEnd_keeps rfl
  case decayEnd =>
    exact .next <| .whenClocked fun _ => .ite .refl <| .comp enterHold_formed <|
      .comp (.ite .refl <| .past ledgerAdd_keeps rfl <| .apart setVlv_keeps rfl) <| .apart noteVlvCur_keeps rfl
  case holdEnd => exact execHoldEnd_formed
  case valveOff =>
    exact .next <| .whenClocked fun _ => .ite .refl <| .past noteVlvCur_keeps rfl <| .comp reachOff_formed <| .ite .refl <|
      .past ledgerAdd_keeps rfl <| .apart setVlv_keeps rfl
  case releaseTimeout => exact .apart execReleaseTimeout_keeps rfl
  case periodicFiring => exact execPeriodicFiring_formed
  case prechargeDone =>
    exact .next <| .whenClocked fun _ => .ite .refl <|
      .comp (.ite boostTo_formed <| .ite (.past (raise_keeps _ _ _) rfl boostTo_formed) .refl) <| .apart noteCap_keeps rfl
  case measureDone =>
    exact .next <| .whenClocked fun _ => .ite .refl <| .comp (.ite boostTo_formed <| .past (raise_keeps _ _ _) rfl boostTo_formed) <|
      .past modVs_keeps rfl <| .apart noteCap_keeps rfl
  case boostReady => exact .next <| .whenClocked fun _ => .ite (.comp boostTo_formed <| .apart noteCap_keeps rfl) .refl
  case boostSuspend =>
    exact .next <| .whenClocked fun _ => .ite .refl <|
      .ite (.past (raise_keeps _ _ _) rfl <| .comp boostTo_formed <| .apart noteVbat_keeps rfl) <|
      .ite (.comp boostTo_formed <| .apart noteVbat_keeps rfl) .refl
  case boostResume => exact .next <| .whenClocked fun _ => .onlyIf fun _ => .comp boostTo_formed <| .apart noteVbat_keeps rfl
  case boostConverterFault => exact .next <| .whenClocked fun _ => .onlyIf fun _ => .past (raise_keeps _ _ _) rfl boostTo_formed
  case boostOvervoltage => exact .apart execBoostOvervoltage_keeps rfl
  case ledgerWindow => exact .apart execLedgerWindow_keeps rfl
  case valveShortCircuit => exact execValveShortCircuit_formed
  case valveHeldClear => exact .apart execValveHeldClear_keeps rfl
  case valveOffStateDiagnosis => exact .next <| .whenOn fun _ => .ite (.comp vgDiagnose_formed <| .apart setVg_keeps rfl) .refl
  case valveOnStateDiagnosis => exact execValveOnStateDiagnosis_formed
  case ledgerLoRead => exact .apart execLedgerLoRead_keeps rfl
  case ovSlowEnd => exact .apart execOvSlowEnd_keeps rfl
  all_goals cases h

/-- Switch inputs (file 08). -/
theorem exec_formed_of_switch {c : Instr} {s : State} (h : family c = .switch) : OutCarries MemoryWf s (exec c s) := by
  cases c
  case isSupplyLow => exact .apart execIsSupplyLow_keeps rfl
  case isSupplyReturn => exact .apart execIsSupplyReturn_keeps rfl
  case cleaningPulseEnd => exact execCleaningPulseEnd_formed
  case ladderInvalid => exact .next <| .whenOn fun _ => .past ladderJudge_keeps rfl swiTrace_formed
  case swiStuck =>
    exact .next <| .whenOn fun _ => .ite (.past (raise_keeps _ _ _) rfl <| .comp emitOn_formed <| .apart setSwi_keeps rfl) .refl
  case poll => exact .apart execPoll_keeps rfl
  case wetThermal => exact execWetThermal_formed
  case swiQuery | swiSnapshot => exact .operation fun _ _ _ => finish_formed
  case swiClean => exact .operation fun _ _ _ => startClean_formed
  all_goals cases h

/-- Body-builder I/O (file 09). -/
theorem exec_formed_of_field {c : Instr} {s : State} (h : family c = .field) : OutCarries MemoryWf s (exec c s) := by
  cases c
  case fioSet | fioClear => exact .operation fun _ _ _ => .comp finish_formed <| .past applyFio_keeps rfl <| .apart setFio_keeps rfl
  case fioQuery => exact .operation fun _ _ _ => .comp finish_formed <| .past noteFioCur_keeps rfl <| .apart setFio_keeps rfl
  case fioSnapshot => exact .operation fun _ _ _ => finish_formed
  case fsQuery => exact .operation fun _ _ _ => .comp finish_formed <| .past modFs_keeps rfl <| .apart noteFl_keeps rfl
  case fsSupplyLow =>
    exact .next <| .onlyIf fun _ => .comp (.ite (.apart fsUnpowered_keeps rfl) .refl) <| .ite (.apart noteFl_keeps rfl) supplyCond_formed
  case fsSupplyHigh => exact .next <| .onlyIf fun _ => supplyCond_formed
  case fsSupplyNormal =>
    exact .next <| .onlyIf fun _ => .comp fsEvent_formed <| .past applyFios_keeps rfl <| .past modFs_keeps rfl <| .apart noteFl_keeps rfl
  case barrierPowerFail => exact .apart execBarrierPowerFail_keeps rfl
  case fioWire => exact execFioWire_formed
  case fioChange => exact .next <| .onlyIf fun _ => fioTrace_formed
  case edgeQueueDelivery => exact execEdgeQueueDelivery_formed
  case fioProt =>
    exact .next <| .onlyIf fun _ => .comp (.ite (.apart fsRaise_keeps rfl) .refl) <| .past fsRaise_keeps rfl <| .comp fioEvent_formed <|
      .past applyFio_keeps rfl <| .past setFio_keeps rfl <| .apart noteFioCur_keeps rfl
  case fioRestart => exact .apart execFioRestart_keeps rfl
  case fioCountReset => exact .apart execFioCountReset_keeps rfl
  case fioDiag =>
    exact .next <| .onlyIf fun _ => .ite .refl <| .comp (.ite .refl <| .apart fsRaise_keeps rfl) <| .comp (.ite .refl fioEvent_formed) <|
      .past noteFioCur_keeps rfl <| .apart setFio_keeps rfl
  case silenceTimeout => exact .apart execSilenceTimeout_keeps rfl
  case fsSilence => exact .next <| .onlyIf fun _ => .past (raise_keeps _ _ _) rfl <| .comp fsEvent_formed <| .apart modFs_keeps rfl
  case barrierPowerReturn => exact .apart execBarrierPowerReturn_keeps rfl
  all_goals cases h

/-- CAN FD (file 10). -/
theorem exec_formed_of_can {c : Instr} {s : State} (h : family c = .can) : OutCarries MemoryWf s (exec c s) := by
  cases c
  case diagnosticRequest => exact .next <| .whenOn fun _ => .ite .refl recordFields_formed
  case canTx => exact runBlock_formed fun _ _ _ _ => .apart canTxPlace_keeps rfl
  case canTxCancel => exact execCanTxCancel_formed
  case canQuery | canQueueQuery => exact .operation fun _ _ _ => finish_formed
  case canRecover => exact .operation fun _ _ _ => .comp finish_formed <| .apart setCan_keeps rfl
  case frameReceived =>
    exact .next <| .whenOn fun _ => .onlyIf fun _ => .comp (.ite .refl <| .ite receiveError_formed takeFrame_formed) <|
      .apart busActive_keeps rfl
  case frameRecordWrite => exact execFrameRecordWrite_formed
  case arbitrationStart => exact .apart execArbitrationStart_keeps rfl
  case frameTransmitted => exact execFrameTransmitted_formed
  case transmitAttemptFailed => exact execTransmitAttemptFailed_formed
  case cancelErrorFlag => exact execCancelErrorFlag_formed
  case txTimeout => exact .next <| .whenOn fun _ => .foldl fun _ _ => registerStop_formed
  case busoffHoldExpiry => exact .apart execBusoffHoldExpiry_keeps rfl
  case busoffRecoveryComplete =>
    exact .next <| .whenOn fun _ => .onlyIf fun _ => .comp (.ite .refl <| .comp setCounts_formed <| .apart setCan_keeps rfl) <|
      .apart setCan_keeps rfl
  case txdDominant => exact .apart execTxdDominant_keeps rfl
  case busIntegrated => exact .apart execBusIntegrated_keeps rfl
  case receiveError => exact execReceiveError_formed
  all_goals cases h

/-- LIN and gateway (file 11). -/
theorem exec_formed_of_lin {c : Instr} {s : State} (h : family c = .lin) : OutCarries MemoryWf s (exec c s) := by
  cases c
  case linWrite => exact .operation fun _ _ _ => .comp finish_formed <| .apart pubWrite_keeps rfl
  case linSched => exact .operation fun _ _ _ => .comp (.ite (takeScheds_formed _ _ _ _) .refl) <| .apart setLin_keeps rfl
  case linDiagReq => exact .operation fun _ _ _ => .apart setLin_keeps rfl
  case linQuery | gwRouteQuery => exact .operation fun _ _ _ => finish_formed
  case gwIsolate =>
    exact .operation fun _ _ _ => .comp finish_formed <| .comp (.ite (.apart gwDropFor_keeps rfl) .refl) <| .apart setSeg_keeps rfl
  case linSlotStart => exact .next <| .whenOn fun _ => .onlyIf fun _ => .ite startSlot_formed <| .ite startSleepCmd_formed .refl
  case linRx => exact execLinRx_formed
  case linErr => exact execLinErr_formed
  case linBusDominant => exact .apart execLinBusDominant_keeps rfl
  case gatewayBufferAssign => exact .apart execGatewayBufferAssign_keeps rfl
  case gatewayMaxAge => exact .apart execGatewayMaxAge_keeps rfl
  case gwDrop => exact execGwDrop_formed
  case linBusRecessive => exact .apart execLinBusRecessive_keeps rfl
  all_goals cases h

/-- Network sleep (file 12). -/
theorem exec_formed_of_sleep {c : Instr} {s : State} (h : family c = .sleep) : OutCarries MemoryWf s (exec c s) := by
  cases c
  case netSleep => exact execNetSleep_formed
  case netWake => exact .operation fun _ _ _ => .ite finish_formed <| .comp (.ite .refl segWake_formed) <| .apart setSeg_keeps rfl
  case netListen =>
    exact .operation fun _ _ _ => .comp finish_formed <| .comp (.ite (.apart setCan_keeps rfl) .refl) <| .apart setSeg_keeps rfl
  case netQuery => exact .operation fun _ _ _ => finish_formed
  case drainEnd =>
    exact .next <| .whenOn fun _ => .ite .refl <| .comp segState_formed <| .past setSeg_keeps rfl <| .ite .refl <| .apart setLin_keeps rfl
  case segmentCommit =>
    exact .next <| .whenOn fun _ => .onlyIf fun _ => .comp endSleep_formed <| .comp segState_formed <| .apart setSeg_keeps rfl
  case agreeTimeout => exact execAgreeTimeout_formed
  case wakeUpPattern =>
    exact .next <| .ite (.apart startDecoder_keeps rfl) <| .whenOn fun _ => .onlyIf fun _ =>
      .ite (.apart startDecoder_keeps rfl) wakeSeen_formed
  case wakeUpFrame => exact .next <| .whenOn fun _ => .onlyIf fun _ => wakeSeen_formed
  case decoderErrorCount => exact execDecoderErrorCount_formed
  case decoderSilence => exact .apart execDecoderSilence_keeps rfl
  case linWake => exact .next <| .whenOn fun _ => .ite wakeSeen_formed <| .ite segWake_formed .refl
  case segmentAwake => exact execSegmentAwake_formed
  case netAnnounce => exact execNetAnnounce_formed
  case maxAwake => exact execMaxAwake_formed
  all_goals cases h

/-- Access and immobiliser (file 13). -/
theorem exec_formed_of_access {c : Instr} {s : State} (h : family c = .access) : OutCarries MemoryWf s (exec c s) := by
  cases c
  case debounceComplete => exact execDebounceComplete_formed
  case tokenSearch | releaseStart => exact .operation fun _ _ _ => .apart startSearch_keeps rfl
  case releaseEnd => exact .operation fun _ _ _ => endRelease_formed
  case tokenRead | tokenWrite => exact .operation fun _ _ _ => .apart startToken_keeps rfl
  case keyWrite => exact execKeyWrite_formed
  case keyQuery => exact .operation fun _ _ _ => finish_formed
  case fieldStart => exact execFieldStart_formed
  case wup => exact .apart execWup_keeps rfl
  case halt => exact execHalt_formed
  case authA => exact .apart execAuthA_keeps rfl
  case authB => exact .apart execAuthB_keeps rfl
  case read => exact .apart execRead_keeps rfl
  case write => exact .apart execWrite_keeps rfl
  case tokenAnswer => exact execTokenAnswer_formed
  case releaseFrame => exact execReleaseFrame_formed
  case releaseSessionTimeout => exact .next <| .whenOn fun _ => .onlyIf fun _ => endRelSession_formed
  all_goals cases h

/-- Pairs (file 15). -/
theorem exec_formed_of_pair {c : Instr} {s : State} (h : family c = .pair) : OutCarries MemoryWf s (exec c s) := by
  cases c
  case pairMismatch => exact execPairMismatch_formed
  case pkgWrite => exact runBlock_formed fun _ _ _ _ => .comp finish_formed <| .apart pkgsField_keeps rfl
  case pkgErase => exact .operation fun _ _ _ => .comp finish_formed <| .apart pkgsField_keeps rfl
  case pkgQuery | pairQuery => exact .operation fun _ _ _ => finish_formed
  case pairSplit | pairMerge => exact .operation fun _ _ _ => .apart startHandover_keeps rfl
  case mergeCopyDone => exact .apart execMergeCopyDone_keeps rfl
  case mergeSelftestDone => exact execMergeSelftestDone_formed
  all_goals cases h

/-- Host bridge (file 16). -/
theorem exec_formed_of_bridgeHost {c : Instr} {s : State} (h : family c = .bridgeHost) : OutCarries MemoryWf s (exec c s) := by
  cases c
  case hostLinkTimeout => exact .apart execHostLinkTimeout_keeps rfl
  case hostLinkUp => exact .next <| .whenOn fun _ => .onlyIf fun _ => .comp emit_formed <| .apart unnamed_keeps rfl
  case hbQuery | xspiQuery => exact .operation fun _ _ _ => finish_formed
  case xspiRead | xspiErase => exact .operation fun _ _ _ => .apart xspiStart_keeps rfl
  case xspiWrite => exact runBlockAt_formed fun _ _ _ _ => .apart xspiStart_keeps rfl
  case xspiNoAnswer =>
    exact .next <| .whenOn fun _ => .onlyIf fun _ => .past (raise_keeps _ _ _) rfl <| .comp (.foldl fun _ _ => finishFree_formed) <|
      .apart unnamed_keeps rfl
  case readCompletion => exact .next <| .whenOn fun _ => readCompletion_formed
  case tagTimeout => exact execTagTimeout_formed
  case tagQuarantineEnd => exact execTagQuarantineEnd_formed
  case delayedReadDiscard => exact .apart execDelayedReadDiscard_keeps rfl
  case hostLinkLoss => exact .next <| .whenOn fun _ => .onlyIf fun _ => linkLoss_formed
  case msixUnmask => exact .next <| .whenOn fun _ => .comp sendPending_formed <| .apart unnamed_keeps rfl
  case xspiOperationEnd => exact execXspiOperationEnd_formed
  all_goals cases h

/-- Faults (file 17). -/
theorem exec_formed_of_fault {c : Instr} {s : State} (h : family c = .fault) : OutCarries MemoryWf s (exec c s) := by
  cases c
  case faultQuery => exact .operation fun _ _ _ => finish_formed
  case faultAck => exact .operation fun _ _ _ => .comp finish_formed <| .apart (modFlt_keeps _ _) rfl
  case faultReset => exact execFaultReset_formed
  case faultInject => exact execFaultInject_formed
  case faultRaise => exact .next <| .whenOn fun _ => .foldl fun _ _ => arrive_formed
  case heartbeat => exact .apart execHeartbeat_keeps rfl
  case runtimeWatchdog =>
    exact .next <| .whenOn fun _ => .onlyIf fun _ => .comp safeEntry_formed <| .past (modFlt_keeps _ _) rfl <|
      .past (raise_keeps _ _ _) rfl <| .apart (modFlt_keeps _ _) rfl
  case recoveryEnd => exact .apart execRecoveryEnd_keeps rfl
  all_goals cases h

/-- Power states (file 18). -/
theorem exec_formed_of_power {c : Instr} {s : State} (h : family c = .power) : OutCarries MemoryWf s (exec c s) := by
  cases c
  case powerSet =>
    exact .operation fun _ _ _ => .ite finish_formed <| .ite (.apart (modPw_keeps _ _) rfl) <| .ite (.apart changeState_keeps rfl) <|
      .comp watchStalls_formed <| .apart (modPw_keeps _ _) rfl
  case powerQuery => exact .operation fun _ _ _ => finish_formed
  case alarmSet => exact .operation fun _ _ _ => .comp finish_formed <| .apart (modPw_keeps _ _) rfl
  case entryHandshakeAnswer => exact execEntryHandshakeAnswer_formed
  case entryTimeout => exact execEntryTimeout_formed
  case entryComplete => exact execEntryComplete_formed
  case standbyExit => exact .apart execStandbyExit_keeps rfl
  case voutAcknowledge => exact execVoutAcknowledge_formed
  case pmbusNoAck => exact execPmbusNoAck_formed
  case pmAlert => exact .apart execPmAlert_keeps rfl
  case wakeLatch => exact .apart execWakeLatch_keeps rfl
  case rootTimerWake => exact .apart execRootTimerWake_keeps rfl
  case perstNWake => exact .apart execPerstNWake_keeps rfl
  case wakeNRelease => exact .apart execWakeNRelease_keeps rfl
  case regulatorRetry => exact .apart execRegulatorRetry_keeps rfl
  case xtal32Start => exact .apart execXtal32Start_keeps rfl
  case xtal32Fail => exact .apart execXtal32Fail_keeps rfl
  case xtal40Fail => exact .next <| .onlyIf fun _ => xtal40Failed_formed
  case pfwFall =>
    exact .next <| .onlyIf fun _ => .comp sendVector_formed <| .comp powerFailEvent_formed <| .past (raise_keeps _ _ _) rfl <|
      .comp (hwWriteAll_formed _ _) <| .past heatExact_keeps rfl <| .apart (modPw_keeps _ _) rfl
  case pfwRise => exact .next <| .onlyIf fun _ => .comp powerFailEvent_formed <| .apart (modPw_keeps _ _) rfl
  case crank => exact .apart execCrank_keeps rfl
  all_goals cases h

/-- Grafting (file 19). -/
theorem exec_formed_of_update {c : Instr} {s : State} (h : family c = .update) : OutCarries MemoryWf s (exec c s) := by
  cases c
  case updWrite => exact runBlock_formed fun _ _ _ _ => .comp finish_formed <| .apart xspiMem_keeps rfl
  case updArm => exact execUpdArm_formed
  case updDisarm => exact .operation fun _ _ _ => .ite (.comp finishRecorded_formed <| .apart (modUpd_keeps _ _) rfl) finish_formed
  case updQuery => exact .operation fun _ _ _ => finish_formed
  case updConfirm => exact .operation fun _ _ _ => .comp finishGated_formed <| .apart confirmSet_keeps rfl
  case updReject => exact .operation fun _ _ _ => .comp finish_formed <| .apart (modFlt_keeps _ _) rfl
  case updKeySet =>
    exact runBlock_formed fun _ _ _ _ => .ite (.comp finishRecorded_formed <| .apart (modUpd_keeps _ _) rfl) finishFree_formed
  case trialTimeout => exact .apart execTrialTimeout_keeps rfl
  all_goals cases h

/-- Performance counters (file 20). -/
theorem exec_formed_of_perf {c : Instr} {s : State} (h : family c = .perf) : OutCarries MemoryWf s (exec c s) := by
  cases c
  case perfSet => exact execPerfSet_formed
  case fabSet | perfRing => exact .operation fun _ _ _ => .comp finish_formed <| .apart unnamed_keeps rfl
  case perfSnap => exact .operation fun _ _ _ => .comp finish_formed toBuffer_formed
  case perfSample => exact execPerfSample_formed
  case pcCyclesLoRead => exact .apart execPcCyclesLoRead_keeps rfl
  case fabLoRead => exact .apart execFabLoRead_keeps rfl
  all_goals cases h

/-- Start-up and supplies (files 01, 05, 18, 21). -/
theorem exec_formed_of_start {c : Instr} {s : State} (h : family c = .start) : OutCarries MemoryWf s (exec c s) := by
  cases c
  case rootIslandPowerOn => exact .apart execRootIslandPowerOn_keeps rfl
  case digitalDieStart => exact .next <| .onlyIf fun _ => digitalDieStart_formed
  case graftBlock => exact .next <| .onlyIf fun _ => graftBlock_formed
  case safeEntriesDelivered => exact .next <| .onlyIf fun _ => .comp safeDelivered_formed <| .apart linksField_keeps rfl
  case linkFailure =>
    exact .next <| .whenOn fun _ => .onlyIf fun _ => .comp commitLinkLost_formed <| .comp dieLost_formed <| .past (raise_keeps _ _ _) rfl <|
      .apart linksField_keeps rfl
  case linkReturn =>
    exact .next <| .whenOn fun _ => .onlyIf fun _ => .comp dieBack_formed <| .comp deliverHeld_formed <| .apart linksField_keeps rfl
  case deviceReset => exact execDeviceReset_formed
  case vcoreBrownout =>
    exact .next <| .whenOn fun _ => .past (raise_keeps _ _ _) rfl <| .comp deviceReset_formed <| .past (modFlt_keeps _ _) rfl <|
      .comp safeEntry_formed <| .past (modFlt_keeps _ _) rfl <| .apart (modPw_keeps _ _) rfl
  case loadDieSupplyLow =>
    exact .next <| .onlyIf fun _ => .comp dieOutputsOff_formed <| .past noteSupply_keeps rfl <| .ite (.apart ldField_keeps rfl) .refl
  case lsSupplyHigh =>
    exact .next <| .onlyIf fun _ => .comp (.foldl fun _ _ => .apart (raise_keeps _ _ _) rfl) <| .comp dieOutputsOff_formed <|
      .apart noteSupply_keeps rfl
  case supplyReturn => exact execSupplyReturn_formed
  case dieOvertemp =>
    exact .next <| .whenOn fun _ => .onlyIf fun _ => .past (raise_keeps _ _ _) rfl <| .comp dieHotHbs_formed <| .comp dieHotChs_formed <|
      .apart ldField_keeps rfl
  case rootIslandSupplyLoss =>
    exact .next <| .onlyIf fun _ => .past supplyLossFields_keeps rfl <| .past familySupplyLoss_keeps rfl <|
      .past fsField_keeps rfl dieOff_formed
  case xtal40Retry => exact execXtal40Retry_formed
  all_goals cases h

/-- Every command keeps the form. -/
theorem exec_formed {c : Instr} {s : State} : OutCarries MemoryWf s (exec c s) := by
  cases h : family c
  case ring => exact exec_formed_of_ring h
  case staging => exact exec_formed_of_staging h
  case session => exact exec_formed_of_session h
  case load => exact exec_formed_of_load h
  case wire => exact exec_formed_of_wire h
  case bridge => exact exec_formed_of_bridge h
  case valve => exact exec_formed_of_valve h
  case switch => exact exec_formed_of_switch h
  case field => exact exec_formed_of_field h
  case can => exact exec_formed_of_can h
  case lin => exact exec_formed_of_lin h
  case sleep => exact exec_formed_of_sleep h
  case access => exact exec_formed_of_access h
  case pair => exact exec_formed_of_pair h
  case bridgeHost => exact exec_formed_of_bridgeHost h
  case fault => exact exec_formed_of_fault h
  case power => exact exec_formed_of_power h
  case update => exact exec_formed_of_update h
  case perf => exact exec_formed_of_perf h
  case start => exact exec_formed_of_start h
  case engine => exact exec_formed_of_engine h

/-! ### Every step -/

theorem tick_formed {s : State} : Carries MemoryWf s (tick s) := by
  unfold tick
  exact .comp (.ite (.comp (.ite dieTick_formed .refl) dutyTick_formed) .refl) <| .past regTick_keeps rfl <| .apart clockTick_keeps rfl

/-- Settles O6: a step is a tick or a command, and both write the memories only through operations that keep the form. The form, with
rising addresses and no listed 0, is the model's own (log entry 3). -/
theorem memoryFormKept : Obligations.MemoryFormKept := by
  intro s t h e
  unfold step at e
  split at e
  · injection e with e
    exact e ▸ tick_formed h
  · next rest _ => exact exec_formed (s := { s with pending := rest }) t e h

end Sys2Proof.Frames
end

section
/-! SUPPORT. How the commands of the host bridge, xSPI and the performance counters complete. -/

namespace Sys2Proof.HostBridge

open Sys2Proof.Machine Sys2Proof.Safety Sys2Proof.Laws Sys2Proof.Loads Sys2Proof.CanFd

/-- Settles O21, command by command: each clause's hypotheses choose the branch of the command's meaning that it states. The free
RESULT of an xSPI operation that is given up (log entry 5) and HB_LINK at the loss of the link (log entry 32) are the model's readings. -/
theorem hostBridgeAndCounterCommandsComplete : Obligations.HostBridgeAndCounterCommandsComplete := by
  refine ⟨?hostLinkTimeout, ?hostLinkUp, ?hbQuery, ?xspiRead, ?xspiWrite, ?xspiErase, ?xspiQuery, ?xspiNoAnswer, ?readCompletion,
    ?tagTimeout, ?tagQuarantineEnd, ?delayedReadDiscard, ?hostLinkLoss, ?msixUnmask, ?xspiOperationEnd, ?perfSet, ?fabSet, ?perfRing,
    ?perfSnap, ?perfSample, ?pcCyclesLoRead, ?fabLoRead⟩
  -- Descriptor operations; XSPI_WRITE reads its data as a block (R407).
  case hbQuery | xspiRead | xspiErase | xspiQuery | perfSet | fabSet | perfRing | perfSnap =>
    exact fun _ _ _ h => ends_of_took rfl rfl (by decide) h rfl
  case xspiWrite => exact fun _ _ _ _ _ h there => ends_of_block rfl rfl (by decide) h there rfl
  -- Events whose occasion is a condition on the state.
  case hostLinkTimeout | hostLinkLoss => exact fun _ hd hg => whenOn_onlyIf_next hd hg rfl
  case hostLinkUp => exact fun _ _ _ hd hg => whenOn_onlyIf_next hd hg rfl
  case xspiNoAnswer => exact fun _ _ hd hg => whenOn_onlyIf_next hd hg rfl
  -- Events that need the digital die alone.
  case readCompletion => exact fun _ _ _ hd => whenOn_next hd rfl
  case delayedReadDiscard => exact fun _ hd => whenOn_next hd rfl
  case msixUnmask | pcCyclesLoRead | fabLoRead => exact fun _ _ hd => whenOn_next hd rfl
  -- A tag that is out, or in quarantine.
  case tagTimeout => exact fun _ _ hd _ _ _ _ ht hg => whenOn_next hd (by rewrite [ht]; exact if_pos hg)
  case tagQuarantineEnd => exact fun _ _ hd _ ht hg => whenOn_next hd (by rewrite [ht]; exact if_pos hg)
  -- The xSPI operation that runs, the sample that waits.
  case xspiOperationEnd => exact fun _ _ _ hd _ ho hg => whenOn_next hd (by rewrite [ho]; exact if_pos hg)
  case perfSample => exact fun _ hd _ hx => whenOn_next hd (by rewrite [hx]; rfl)

end Sys2Proof.HostBridge
end

section
/-! SUPPORT. How the commands of fault collection and of the power states complete. -/

namespace Sys2Proof.Faults

open Sys2Proof.Machine Sys2Proof.Safety Sys2Proof.Laws Sys2Proof.Loads Sys2Proof.CanFd

/-- An event with an occasion, while the occasion is there; the digital die may be off. -/
theorem onlyIf_next {f : State → State} {s t : State} {c : Bool} (hc : c = true) (hf : f s = t) : (.next (onlyIf c f s) : Out) = .next t := by
  rw [onlyIf, if_pos hc, hf]

/-- Settles O22, command by command: each clause's hypotheses choose the branch of the command's meaning that it states. Which bits of
STATUS_WORD PM_ALERT and a voltage change look at (log entry 10), that FAULT_RESET counts outputs and FAULT_INJECT waits for its record
(log entry 33), and the times of the voltage changes (log entry 34) are the model's readings. -/
theorem faultAndPowerCommandsComplete : Obligations.FaultAndPowerCommandsComplete := by
  refine ⟨?faultQuery, ?faultAck, ?faultReset, ?faultInject, ?faultRaise, ?heartbeat, ?runtimeWatchdog, ?recoveryEnd, ?powerSet,
    ?powerQuery, ?alarmSet, ?blockGrants, ?blockDelays, ?blockRefuses, ?blockWithdraws, ?entryTimeout, ?entryComplete, ?standbyExit,
    ?voutAcknowledge, ?pmbusNoAck, ?pmAlert, ?networkWake, ?switchWake, ?resetPinWake, ?rootTimerWake, ?perstNWake, ?wakeNRelease,
    ?regulatorRetry, ?xtal32Start, ?xtal32Fail, ?xtal40Fail, ?pfwFall, ?pfwRise, ?crank, ?xtal40Retry⟩
  -- Descriptor operations.
  case faultQuery | faultAck | faultInject | powerSet | powerQuery | alarmSet => exact fun _ _ _ h => ends_of_took rfl rfl (by decide) h rfl
  case faultReset => exact fun _ _ _ _ h => ends_of_took rfl rfl (by decide) h rfl
  -- Events of the running digital die.
  case heartbeat => exact fun _ hd => whenOn_next hd rfl
  case faultRaise | pmAlert => exact fun _ _ hd => whenOn_next hd rfl
  case runtimeWatchdog => exact fun _ hd hg => whenOn_onlyIf_next hd hg rfl
  -- Events whose occasion is a condition on the state, whatever the die does.
  case recoveryEnd => exact fun _ hg => onlyIf_next (decide_eq_true hg) rfl
  case standbyExit | rootTimerWake | perstNWake | wakeNRelease | regulatorRetry | xtal32Start | xtal32Fail | xtal40Fail =>
    exact fun _ hg => onlyIf_next hg rfl
  case pfwFall | pfwRise | crank | xtal40Retry => exact fun _ _ hg => onlyIf_next hg rfl
  -- A block's answer during the entry that runs, before its confirmation.
  case blockGrants =>
    rintro block _ s p hp ht rfl hg
    exact congrArg Host.Outcome.next (by rewrite [hp]; exact (if_neg ht).trans (if_neg hg))
  case blockDelays | blockRefuses =>
    rintro block _ s p hp ht rfl hg
    exact congrArg Host.Outcome.next (by rewrite [hp]; exact (if_neg ht).trans (if_pos hg))
  case blockWithdraws =>
    rintro block _ s p hp ht rfl cause hw
    exact congrArg Host.Outcome.next (by rewrite [hp]; exact (if_neg ht).trans (by dsimp only; rewrite [hw]; rfl))
  -- The end of the entry that runs, in time or not.
  case entryTimeout => exact fun _ _ hp _ hk hg => congrArg Host.Outcome.next (by rewrite [hp]; dsimp only; rewrite [hk]; exact if_pos hg)
  case entryComplete => exact fun _ _ hp _ ht hg => congrArg Host.Outcome.next (by rewrite [hp]; dsimp only; rewrite [ht]; exact if_pos hg)
  -- The voltage change that runs.
  case voutAcknowledge => exact fun _ _ _ _ hr hg => congrArg Host.Outcome.next (by rewrite [hr]; exact if_neg hg)
  case pmbusNoAck => exact fun _ _ hr hg => congrArg Host.Outcome.next (by rewrite [hr]; exact if_neg hg)
  -- Wake sources, while they are watched.
  case networkWake => rintro _ s hw b wuf rfl hn; exact onlyIf_next hw (if_pos hn)
  case switchWake => rintro _ s hw g i rfl hp hl; exact onlyIf_next hw ((if_pos hp).trans (if_neg hl))
  case resetPinWake => rintro _ s hw rfl; exact onlyIf_next hw rfl

end Sys2Proof.Faults
end

section
/-! SUPPORT. The frames of the command families and the step on a waiting command. A frame speaks of the parts of `Safety.Part` alone: the
host bridge, the counters, the engines' interrupt state and the held events are no part. -/

namespace Sys2Proof.Frames

open Sys2Proof.Machine Sys2Proof.Safety

/-- The commands of a family keep every part but those of the family, where none of them sets DT or RT. -/
theorem familyFrame_of_ne_start (f : Family) (hf : f ≠ .start) : FamilyFrame [f] (familyParts f) := by
  intro c s t hc e
  rw [List.mem_singleton] at hc
  subst hc
  exact commandParts_of_ne_start hf ▸ exec_keeps s c t e

/-- What a command of the start family may change: three of them set DT or RT too. -/
theorem commandParts_start_within {c : Instr} (h : family c = .start) : Within (commandParts c) (.time :: familyParts .start) := by
  unfold commandParts
  split
  · decide
  · decide
  · decide
  · rw [h]
    decide

theorem familyFrame_start : FamilyFrame [.start] (.time :: familyParts .start) := by
  intro c s t hc e
  exact .mono (exec_keeps s c t e) (commandParts_start_within (List.mem_singleton.mp hc))

/-- Settles O27: the frame of every command of these families. -/
theorem loadDieFrames : Obligations.LoadDieFrames :=
  ⟨familyFrame_of_ne_start .load (by decide), familyFrame_of_ne_start .wire (by decide), familyFrame_of_ne_start .bridge (by decide),
   familyFrame_of_ne_start .valve (by decide)⟩

/-- Settles O28: the frame of every command of these families. -/
theorem inputFrames : Obligations.InputFrames :=
  ⟨familyFrame_of_ne_start .switch (by decide), familyFrame_of_ne_start .field (by decide), familyFrame_of_ne_start .access (by decide)⟩

/-- Settles O29: the frame of every command of these families. -/
theorem networkFrames : Obligations.NetworkFrames :=
  ⟨familyFrame_of_ne_start .can (by decide), familyFrame_of_ne_start .lin (by decide), familyFrame_of_ne_start .sleep (by decide)⟩

/-- Settles O30: the frame of every command of these families. -/
theorem controlFrames : Obligations.ControlFrames :=
  ⟨familyFrame_of_ne_start .ring (by decide), familyFrame_of_ne_start .bridgeHost (by decide), familyFrame_of_ne_start .perf (by decide),
   familyFrame_of_ne_start .staging (by decide), familyFrame_of_ne_start .session (by decide)⟩

/-- Settles O31: the frame of every command of these families; that of the start family names DT and RT too. -/
theorem systemFrames : Obligations.SystemFrames :=
  ⟨familyFrame_of_ne_start .fault (by decide), familyFrame_of_ne_start .power (by decide), familyFrame_of_ne_start .update (by decide),
   familyFrame_start, familyFrame_of_ne_start .pair (by decide)⟩

/-- Settles O32: the frame of every command of the engines. -/
theorem engineFrames : Obligations.EngineFrames := familyFrame_of_ne_start .engine (by decide)

/-- Settles O1: a queue that is not empty sends the step to its front command. -/
theorem stepRunsFrontCommand : Obligations.StepRunsFrontCommand := by
  intro c rest s h
  rw [step, h]

end Sys2Proof.Frames
end

section
/-! SUPPORT. How the commands of bridges, valve groups, the boost converter and the charge ledger complete. -/

namespace Sys2Proof.Bridges

open Sys2Proof.Machine Sys2Proof.Safety Sys2Proof.Laws Sys2Proof.Loads Sys2Proof.CanFd

/-- An event that needs its occasion as well as the fast clocks. -/
theorem whenClocked_onlyIf_next {f : State → State} {s t : State} {c : Bool} (hc : s.pw.clocks = true) (hg : c = true) (hf : f s = t) :
    (.next (whenClocked (onlyIf c f) s) : Out) = .next t :=
  whenClocked_next hc (by rw [onlyIf, if_pos hg, hf])

/-- Settles O16, command by command: each clause's hypotheses choose the branch of the command's meaning that it states. The brake at a
target already reached, what a replaced operation completes with (log entry 14) and a release in the slow decay (log entry 15) are the
model's readings. A BR_PULSE that stalls at its end stop has status 0x02 here, as R164 gives it; log entry 14 says 0. -/
theorem bridgeAndValveCommandsComplete : Obligations.BridgeAndValveCommandsComplete := by
  refine ⟨?brDrive, ?brMove, ?brPulse, ?wiperSet, ?brQuery, ?brPosSet, ?hbSet, ?hbDiagRun, ?brakeEnd, ?peakTimeTrip, ?hbShortCircuit,
    ?hbOvertemp, ?hbHeldClear, ?ripple, ?pinchArm, ?backEmfCountEnd, ?stall, ?wiperParked, ?wiperInterval, ?parkTimeout, ?driveTimeout,
    ?pulseEnd, ?hbOffStateDiagnosis, ?hbOnStateOpenLoad, ?vlvFire, ?vlvRelease, ?vlvPeriodic, ?vlvQuery, ?boostSet, ?ledgerQuery,
    ?vlvDiagRun, ?fireRequestedStart, ?slotGrant, ?deferTimeout, ?peakReached, ?boostTimeout, ?peakEnd, ?decayEnd, ?holdEnd, ?valveOff,
    ?releaseTimeout, ?periodicFiring, ?prechargeDone, ?measureDone, ?boostReady, ?readySuspend, ?chargingSuspend, ?boostResume,
    ?boostConverterFault, ?boostOvervoltage, ?ledgerWindow, ?lowSideShort, ?highSideShort, ?groupOverTemp, ?valveHeldClear,
    ?valveOffStateDiagnosis, ?openLoad, ?shortGround, ?ledgerLoRead, ?ovSlowEnd⟩
  -- Descriptor operations.
  case brDrive | brMove | brPulse | wiperSet | brQuery | brPosSet | hbSet | vlvFire | vlvRelease | vlvPeriodic | vlvQuery | boostSet |
      ledgerQuery =>
    exact fun _ _ _ h => ends_of_took rfl rfl (by decide) h rfl
  case hbDiagRun => exact fun _ _ _ _ _ _ h => ends_of_took rfl rfl (by decide) h rfl
  case vlvDiagRun => exact fun _ _ _ _ h => ends_of_took rfl rfl (by decide) h rfl
  -- Events that need the clocks or the digital die alone.
  case wiperParked => exact fun _ _ hc => whenClocked_next hc rfl
  case ledgerLoRead => exact fun _ _ hd => whenOn_next hd rfl
  -- Events with a guard, written for the occasion.
  case peakTimeTrip | pinchArm | backEmfCountEnd | peakEnd | releaseTimeout | boostReady =>
    exact fun _ _ hc hg => whenClocked_next hc (if_pos hg)
  case hbShortCircuit | hbOvertemp | boostTimeout => exact fun _ _ _ hc hg => whenClocked_next hc (if_pos hg)
  case hbOffStateDiagnosis => exact fun _ _ _ _ _ hd hg => whenOn_next hd (if_pos hg)
  case valveOffStateDiagnosis => exact fun _ _ _ hd hg => whenOn_next hd (if_pos hg)
  case boostResume => exact fun _ _ hc hg => whenClocked_onlyIf_next hc hg rfl
  case boostConverterFault => exact fun _ hc hg => whenClocked_onlyIf_next hc hg rfl
  case ovSlowEnd => exact fun _ _ hc hg => whenClocked_onlyIf_next hc (decide_eq_true hg) rfl
  -- Events with a guard, written against the occasion.
  case peakReached | decayEnd => exact fun _ _ _ _ hc hg => whenClocked_next hc (if_neg hg)
  case valveOff | prechargeDone | measureDone => exact fun _ _ _ hc hg => whenClocked_next hc (if_neg hg)
  case boostOvervoltage => exact fun _ _ hc hg => whenClocked_next hc (if_neg hg)
  case ledgerWindow => exact fun _ _ _ _ hc hg => whenClocked_next hc (if_neg hg)
  -- A suspension of the converter, from READY and from CHARGING.
  case readySuspend => exact fun _ _ hc ho hr => whenClocked_next hc ((if_neg ho).trans (if_pos hr))
  case chargingSuspend => exact fun _ _ hc ho hr hg => whenClocked_next hc ((if_neg ho).trans ((if_neg hr).trans (if_pos hg)))
  -- Trips and findings, by what they are about.
  case lowSideShort => rintro _ s hc v i rfl _ hg; exact whenClocked_next hc (if_pos hg)
  case highSideShort | groupOverTemp => rintro _ s hc g i rfl hg; exact whenClocked_next hc (if_neg hg)
  case openLoad => rintro _ s hc hv v i since rfl hg; exact whenClocked_onlyIf_next hc hv (if_pos hg)
  case shortGround => rintro _ s hc hv g high lows since rfl hg; exact whenClocked_onlyIf_next hc hv (if_neg hg)
  -- The brake, the operation, the hold or the dwell that runs.
  case brakeEnd => exact fun _ _ hc _ _ hb hg => whenClocked_next hc (by dsimp only; rewrite [hb]; exact if_neg hg)
  case hbHeldClear => exact fun _ _ hc _ hp hg => whenClocked_next hc (by rewrite [hp]; exact if_pos hg)
  case ripple => exact fun _ _ _ _ _ hc _ ha hg => whenClocked_next hc (by rewrite [ha]; exact if_neg hg)
  case stall => exact fun _ _ hc _ ho hg => whenClocked_next hc (by dsimp only; rewrite [ho]; exact if_neg hg)
  case wiperInterval => exact fun _ _ hc _ ho hg => whenClocked_next hc (by dsimp only; rewrite [ho]; exact if_pos hg)
  case parkTimeout => exact fun _ _ hc _ ho _ ht hg => whenClocked_next hc (by dsimp only; rewrite [ho, ht]; exact if_pos hg)
  case driveTimeout | pulseEnd =>
    exact fun _ _ hc _ ho hk _ ht hg => whenClocked_next hc (by rewrite [ho]; dsimp only; rewrite [hk, ht]; exact if_pos hg)
  case hbOnStateOpenLoad => exact fun _ _ hd _ ht hg => whenOn_next hd (by rewrite [ht]; exact if_pos hg)
  -- The firing that is pending, waits or runs.
  case fireRequestedStart => exact fun _ _ hd _ hf => whenOn_next hd (by rewrite [hf]; rfl)
  case slotGrant => exact fun _ _ hc _ hf hg => whenClocked_next hc (by rewrite [hf]; exact if_pos hg)
  case deferTimeout => exact fun _ _ hc hk _ hf hg => whenClocked_next hc (by rewrite [hk, hf]; exact if_neg hg)
  case holdEnd => exact fun _ _ hc hk _ ht hg => whenClocked_next hc (by rewrite [hk, ht]; exact if_pos hg)
  case periodicFiring => exact fun _ _ hd _ ht hg => whenOn_next hd (by rewrite [ht]; exact if_neg hg)
  case valveHeldClear => exact fun _ _ _ hc _ ht hg => whenClocked_next hc (by rewrite [ht]; exact if_pos hg)

end Sys2Proof.Bridges
end

section
/-! SUPPORT. How the commands of switch inputs and of the field die complete. -/

namespace Sys2Proof.Switches

open Sys2Proof.Machine Sys2Proof.Safety Sys2Proof.Laws Sys2Proof.Loads Sys2Proof.CanFd Sys2Proof.Faults

/-- Settles O17, command by command: each clause's hypotheses choose the branch of the command's meaning that it states. That the thermal
limit ends the cleaning pulses (log entry 16), and FIO_DIAG's result 1 with the targets of the field sources (log entry 17), are
the model's readings. -/
theorem switchAndFieldCommandsComplete : Obligations.SwitchAndFieldCommandsComplete := by
  refine ⟨?isSupplyLow, ?isSupplyReturn, ?cleaningPulseEnd, ?swiStuck, ?poll, ?wetCapped, ?wetAgain, ?swiQuery, ?swiSnapshot, ?swiClean,
    ?fioSet, ?fioQuery, ?fioSnapshot, ?fioClear, ?fsQuery, ?fsSupplyLow, ?fsSupplyHigh, ?fsSupplyNormal, ?barrierPowerFail, ?fioWire,
    ?fioChange, ?edgeQueueDelivery, ?fioProt, ?fioRestart, ?fioCountReset, ?fioDiag, ?silenceTimeout, ?fsSilence, ?barrierPowerReturn⟩
  -- Descriptor operations.
  case swiQuery | swiSnapshot | swiClean | fioSnapshot | fioClear => exact fun _ _ _ h => ends_of_took rfl rfl (by decide) h rfl
  case fioSet => exact fun _ _ _ _ h => ends_of_took rfl rfl (by decide) h rfl
  case fioQuery | fsQuery => exact fun _ _ _ _ _ h => ends_of_took rfl rfl (by decide) h rfl
  -- Events of the digital die or of the clocks.
  case isSupplyLow | isSupplyReturn => exact fun _ _ hd hg => whenOn_onlyIf_next hd hg rfl
  case swiStuck => exact fun _ _ hd hg => whenOn_next hd (if_pos hg)
  case wetCapped => exact fun _ _ hd hg => whenOn_next hd (if_pos hg)
  case wetAgain => exact fun _ _ hd hn hg => whenOn_next hd ((if_neg hn).trans (if_pos hg))
  case cleaningPulseEnd => exact fun _ _ hd _ _ hp hg => whenOn_next hd (by rewrite [hp]; exact if_pos hg)
  case barrierPowerReturn => exact fun _ hc => whenClocked_next hc rfl
  -- Events of the field die, which goes by its own power.
  case fsSupplyLow | fsSupplyHigh | fsSupplyNormal => exact fun _ _ hg => onlyIf_next hg rfl
  case barrierPowerFail => exact fun _ _ => rfl
  case fioWire => exact fun _ _ _ _ hg => onlyIf_next hg rfl
  case fioProt => exact fun _ _ _ _ _ hg => onlyIf_next hg rfl
  case fioChange | fsSilence => exact fun _ _ _ hg => onlyIf_next hg rfl
  case fioCountReset => exact fun _ _ hg => onlyIf_next (decide_eq_true hg) rfl
  case fioDiag => exact fun _ _ _ _ _ hg hf => onlyIf_next hg (if_neg hf)
  case edgeQueueDelivery => exact fun _ hg _ _ hq => onlyIf_next hg (by rewrite [hq]; rfl)
  -- Events of what is armed, held or in force.
  case poll => exact fun _ _ _ _ hp hg => congrArg Host.Outcome.next (by rewrite [hp]; exact if_pos hg)
  case fioRestart => exact fun _ _ _ _ hh hg => congrArg Host.Outcome.next (by rewrite [hh]; exact if_pos hg)
  case silenceTimeout => exact fun _ _ _ ht hg => congrArg Host.Outcome.next (by rewrite [ht]; exact if_pos hg)

end Sys2Proof.Switches
end

section
/-! SUPPORT. How the commands of LIN, the gateway and network sleep complete. -/

namespace Sys2Proof.Networks

open Sys2Proof.Machine Sys2Proof.Safety Sys2Proof.Laws Sys2Proof.Loads Sys2Proof.CanFd Sys2Proof.Faults

/-- Settles O19, command by command: each clause's hypotheses choose the branch of the command's meaning that it states. The free RESULTs
of statuses 0x10 and 0x13 (log entry 5), the payload of record 0x0031 (log entry 9), LIN_SCHED and LIN_DIAG_REQ (log entry 19), NET_SLEEP
and NET_WAKE (log entry 20) are the model's readings. -/
theorem linAndSleepCommandsComplete : Obligations.LinAndSleepCommandsComplete := by
  refine ⟨?linWrite, ?linSched, ?linDiagReq, ?linQuery, ?gwIsolate, ?gwRouteQuery, ?slotStart, ?sleepCommandStart, ?linRx, ?linErr,
    ?dominantArmed, ?dominantAsleep, ?dominantFault, ?gatewayBufferAssign, ?gatewayMaxAge, ?gwDrop, ?linBusRecessive, ?netSleep, ?netWake,
    ?netListen, ?netQuery, ?drainEnd, ?segmentCommit, ?agreeTimeout, ?wupInPark, ?wupAwake, ?wakeUpFrame, ?decoderErrorCount,
    ?decoderSilence, ?linWakeAsleep, ?linWakeDraining, ?segmentAwake, ?announceSent, ?announceLate, ?maxAwake⟩
  -- Descriptor operations.
  case linWrite | linSched | linDiagReq | linQuery | gwIsolate | gwRouteQuery | netSleep | netWake | netListen | netQuery =>
    exact fun _ _ _ h => ends_of_took rfl rfl (by decide) h rfl
  -- A slot's start, of a schedule's frame and of the go-to-sleep command.
  case slotStart => exact fun _ _ hd ht hg => whenOn_onlyIf_next hd (decide_eq_true ht) (if_pos hg)
  case sleepCommandStart => exact fun _ _ hd ht hn hg => whenOn_onlyIf_next hd (decide_eq_true ht) ((if_neg hn).trans (if_pos hg))
  -- The slot that runs.
  case linRx => exact fun _ _ _ _ hd _ hc hg => whenOn_next hd (by rewrite [hc]; exact if_neg hg)
  case linErr => exact fun _ _ _ _ _ hd _ hc hg => whenOn_next hd (by rewrite [hc]; exact if_neg hg)
  -- A bus held dominant, on a segment that is armed, asleep or in use.
  case dominantArmed => exact fun _ _ ha => congrArg Host.Outcome.next (if_pos ha)
  case dominantAsleep =>
    exact fun _ _ ha hd hg hs hw =>
      (congrArg Host.Outcome.next (if_neg ha)).trans (whenOn_onlyIf_next hd hg ((if_pos hs).trans (if_pos hw)))
  case dominantFault =>
    exact fun _ _ ha hd hg hs => (congrArg Host.Outcome.next (if_neg ha)).trans (whenOn_onlyIf_next hd hg (if_neg hs))
  case linBusRecessive => exact fun _ _ hd hg => whenOn_onlyIf_next hd hg rfl
  -- Frames and drops at the gateway.
  case gatewayBufferAssign => exact fun _ _ hd _ hh hg => whenOn_next hd (by rewrite [hh]; exact if_neg hg)
  case gatewayMaxAge => exact fun _ hd => whenOn_next hd rfl
  case gwDrop => exact fun _ _ hd _ ht hg => whenOn_next hd (by dsimp only; rewrite [ht]; exact if_pos hg)
  -- The agreement to sleep.
  case drainEnd => exact fun _ _ hd hg => whenOn_next hd (if_neg hg)
  case segmentCommit => exact fun _ _ hd hg => whenOn_onlyIf_next hd hg rfl
  case agreeTimeout => exact fun _ _ hd _ _ hu hg => whenOn_next hd (by rewrite [hu]; exact if_pos hg)
  -- Wakes, in park and while the device runs.
  case wupInPark => exact fun _ _ hr => congrArg Host.Outcome.next (if_pos hr)
  case wupAwake => exact fun _ _ hr hd hg => (congrArg Host.Outcome.next (if_neg hr)).trans (whenOn_onlyIf_next hd hg rfl)
  case wakeUpFrame => exact fun _ _ _ hd hg => whenOn_onlyIf_next hd hg rfl
  case decoderErrorCount => exact fun _ _ hg => congrArg Host.Outcome.next (if_neg hg)
  case decoderSilence => exact fun _ _ hg => onlyIf_next hg rfl
  case linWakeAsleep => exact fun _ _ hd hw => whenOn_next hd (if_pos hw)
  case linWakeDraining => exact fun _ _ hd hw hg => whenOn_next hd ((if_neg hw).trans (if_pos hg))
  case segmentAwake => exact fun _ _ hd hg => whenOn_next hd (if_neg hg)
  case announceSent => exact fun _ _ hd _ hs => whenOn_next hd (by rewrite [hs]; rfl)
  case announceLate => exact fun _ _ hd hs _ ht hg => whenOn_next hd (by rewrite [hs, ht]; exact if_pos hg)
  case maxAwake => exact fun _ _ hd _ ht hg => whenOn_next hd (by dsimp only; rewrite [ht]; exact if_neg hg)

end Sys2Proof.Networks
end

section
/-! SUPPORT. How the commands of access, of pairs and of the package store complete. -/

namespace Sys2Proof.AccessPairs

open Sys2Proof.Machine Sys2Proof.Safety Sys2Proof.Laws Sys2Proof.Loads Sys2Proof.CanFd Sys2Proof.Faults

/-- Settles O20, command by command: each clause's hypotheses choose the branch of the command's meaning that it states. The free RESULTs
of KEY_WRITE (log entry 5), the records' payloads (log entry 9), the byte order of the key check value (log entry 29) and the times of the
merge's self-test (log entry 31) are the model's readings. -/
theorem accessAndPairCommandsComplete : Obligations.AccessAndPairCommandsComplete := by
  refine ⟨?switchDebounce, ?fieldDebounce, ?ladderInvalid, ?tokenSearch, ?releaseStart, ?releaseEnd, ?tokenRead, ?tokenWrite, ?keyWrite,
    ?keyQuery, ?fieldStart, ?wup, ?halt, ?authA, ?authB, ?read, ?write, ?slotAnswer, ?challengeAnswer, ?proofAnswer, ?dataAnswer,
    ?releasedFrame, ?blockedFrame, ?releaseSessionTimeout, ?pairMismatch, ?pkgWrite, ?pkgErase, ?pkgQuery, ?pairSplit, ?pairMerge,
    ?pairQuery, ?mergeCopyDone, ?mergeSelftestDone⟩
  -- Descriptor operations; KEY_WRITE and PKG_WRITE read their data as a block.
  case tokenSearch | releaseStart | releaseEnd | tokenRead | tokenWrite | keyQuery | pkgErase | pkgQuery | pairSplit | pairMerge |
      pairQuery =>
    exact fun _ _ _ h => ends_of_took rfl rfl (by decide) h rfl
  case keyWrite | pkgWrite => exact fun _ _ _ _ _ h there => ends_of_block rfl rfl (by decide) h there rfl
  -- The samples of a switch, a field input or a ladder.
  case switchDebounce => rintro _ _ s i rfl l rfl hd; exact whenOn_next hd rfl
  case fieldDebounce => rintro _ _ s i rfl l rfl hc; exact whenClocked_next hc rfl
  case ladderInvalid => exact fun _ _ _ hd => whenOn_next hd rfl
  -- The steps of the air operation that runs.
  case fieldStart | wup | authA => exact fun _ _ hd _ ho hg => whenOn_next hd (by rewrite [ho]; exact if_neg hg)
  case halt | authB | read | write => exact fun _ hd _ ho hg => whenOn_next hd (by rewrite [ho]; exact if_neg hg)
  case slotAnswer => exact fun _ _ hd _ ho _ _ hp => whenOn_next hd (by rewrite [ho]; dsimp only; rewrite [hp]; rfl)
  case challengeAnswer | proofAnswer | dataAnswer =>
    exact fun _ _ hd _ ho hp => whenOn_next hd (by rewrite [ho]; dsimp only; rewrite [hp]; rfl)
  -- The release and its frames.
  case releasedFrame => exact fun _ hd _ hr hg => whenOn_next hd (by rewrite [hr]; exact if_pos hg)
  case blockedFrame => exact fun _ hd hr hg => whenOn_next hd (by rewrite [hr]; exact if_pos hg)
  case releaseSessionTimeout => exact fun _ hd hg => whenOn_onlyIf_next hd hg rfl
  -- The pairs, which the engines' clock drives.
  case pairMismatch => exact fun _ _ _ _ hg => onlyIf_next hg rfl
  case mergeCopyDone => exact fun _ _ hg => onlyIf_next hg rfl
  case mergeSelftestDone => exact fun _ _ _ _ hr hg => congrArg Host.Outcome.next (by rewrite [hr]; exact if_pos hg)

end Sys2Proof.AccessPairs
end

section
/-! SUPPORT. How the commands of grafting, of the start-up and of the supplies complete. -/

namespace Sys2Proof.Starts

open Sys2Proof.Machine Sys2Proof.Safety Sys2Proof.Laws Sys2Proof.Loads Sys2Proof.CanFd Sys2Proof.Faults

/-- Settles O23, command by command: each clause's hypotheses choose the branch of the command's meaning that it states. The free CAUSE of
a reset that ends a trial (log entry 5), the time from REG_WAKE to the digital die's start (log entry 34) and the RESULT of an UPD_ARM that
fails (log entry 35) are the model's readings. -/
theorem updateAndStartCommandsComplete : Obligations.UpdateAndStartCommandsComplete := by
  refine ⟨?updWrite, ?updArm, ?updDisarm, ?updQuery, ?updConfirm, ?updReject, ?updKeySet, ?trialTimeout, ?rootIslandPowerOn,
    ?digitalDieStart, ?graftBlock, ?safeEntriesDelivered, ?linkFailure, ?linkReturn, ?pinReset, ?faultReset, ?watchdogReset, ?trialReset,
    ?vcoreBrownout, ?rootIslandSupplyLoss, ?loadDieSupplyLow, ?lsSupplyHigh, ?supplyReturn, ?dieOvertemp⟩
  -- Descriptor operations; UPD_WRITE and UPD_KEY_SET read their data as a block.
  case updDisarm | updQuery | updConfirm | updReject => exact fun _ _ _ h => ends_of_took rfl rfl (by decide) h rfl
  -- An arming, by what the judgement of the images finds.
  case updArm =>
    intro o d s h
    refine ends_of_took rfl rfl (by decide) h ?_
    cases hb : badImage (begun o d updArmForm s) (d.u 24 8) with
    | none => simp only [hb]
    | some i => simp only [hb]
  case updWrite | updKeySet => exact fun _ _ _ _ _ h there => ends_of_block rfl rfl (by decide) h there rfl
  -- Events of the running digital die.
  case trialTimeout => exact fun _ hd hg => whenOn_onlyIf_next hd hg rfl
  case linkFailure | linkReturn => exact fun _ _ hd hg => whenOn_onlyIf_next hd hg rfl
  case dieOvertemp => exact fun _ _ _ hd hg => whenOn_onlyIf_next hd (decide_eq_true hg) rfl
  case vcoreBrownout => exact fun _ hd => whenOn_next hd rfl
  -- Events whose occasion is a condition on the state, whatever the die does.
  case rootIslandPowerOn | digitalDieStart | graftBlock | safeEntriesDelivered | lsSupplyHigh | supplyReturn =>
    exact fun _ _ hg => onlyIf_next hg rfl
  case rootIslandSupplyLoss => exact fun _ hg => onlyIf_next hg rfl
  case loadDieSupplyLow => exact fun _ _ _ hg => onlyIf_next hg rfl
  -- A device reset, by its source.
  case pinReset => rintro _ s rfl hd; exact whenOn_next hd rfl
  case faultReset | watchdogReset | trialReset =>
    rintro _ s rfl t hr ht
    exact congrArg Host.Outcome.next (by dsimp only; rewrite [hr]; exact if_pos ht)

end Sys2Proof.Starts
end
